-- ==== Sys2Proof/Word.lean ====
section
/-!
DEFINITION. The words of the machine and their plainest arithmetic: 64-bit words, bytes, vectors of 2,048 bits, and
sparse tables kept as sorted lists of (key, value).
-/

namespace Sys2Proof

/-- An `s` or `a` register (04 Table 4.1). -/
abbrev Word := BitVec 64

/-- A byte (00 R3). -/
abbrev Byte := BitVec 8

/-- A vector register (06 R149). -/
abbrev Vec := BitVec 2048

/-- A sparse table: (key, value) pairs with keys strictly rising. A key that is not listed has the default value of
the table's reader. -/
abbrev Tab (α : Type) := List (Nat × α)

namespace Tab

/-- The value at a key, `d` where none is listed. -/
def get {α : Type} (d : α) : Tab α → Nat → α
  | [], _ => d
  | (j, v) :: r, k => if k = j then v else get d r k

/-- The value at a key, if one is listed. -/
def find {α : Type} : Tab α → Nat → Option α
  | [], _ => none
  | (j, v) :: r, k => if k = j then some v else find r k

/-- Writes the value at a key. -/
def set {α : Type} : Tab α → Nat → α → Tab α
  | [], k, x => [(k, x)]
  | (j, v) :: r, k, x =>
    if k = j then (k, x) :: r else if k < j then (k, x) :: (j, v) :: r else (j, v) :: set r k x

/-- Removes a key. -/
def del {α : Type} (m : Tab α) (k : Nat) : Tab α := m.filter (fun p => p.1 ≠ k)

end Tab

/-- Writes element `i` of a list; a list without one is left as it is. -/
def setAt {α : Type} : List α → Nat → α → List α
  | [], _, _ => []
  | _ :: r, 0, x => x :: r
  | y :: r, i + 1, x => y :: setAt r i x

end Sys2Proof
end

