-- ==== Sys2Proof/Config.lean ====
section
/-!
DEFINITION. What an implementation of the device fixes (fuses, 00 R8, 22 R512) and the free values: what the manual
leaves open. A free value is opaque: nothing can evaluate it, so a claim holds for every value of it.
-/

namespace Sys2Proof.Config

/-- Free choice: the order in which two V results aimed at one register land when they land at one tick (04 R114).
The place at which such a result is put among those landing with it; applied to `State.freeCount`. Log entry 1, DESIGN CHOICE. -/
opaque landOrder : Nat → Nat

/-- Fuse: `brs.stat.svn`, the fused minimum security version at first power-on (22 R513). Log entry 2, DESIGN CHOICE. -/
opaque svnFuse : BitVec 16
/-- Fuse: `brs.stat.htmax`, the greatest heater DAC code (22 R513). Log entry 2, DESIGN CHOICE. -/
opaque htmaxFuse : BitVec 12
/-- Fuse: `fab.pen.fuse`, ports that may ever be enabled (22 R513). Log entry 2, DESIGN CHOICE. -/
opaque penFuse : BitVec 12
/-- Fuse: `dw.win` w (22 R513). Log entry 2, DESIGN CHOICE. -/
opaque dwWin : Nat → BitVec 64
/-- Fuse: the energy table `en.tab`, entry i in nJ (18 R449). Log entry 2, DESIGN CHOICE. -/
opaque enTab : Nat → BitVec 32
/-- Fuse: `die.cur.lim` of a die (18 R452). Log entry 2, DESIGN CHOICE. -/
opaque curLim : Nat → BitVec 16
/-- Fuse: the fused minimum of `act.bud.ref` of a die (18 R459). Log entry 2, DESIGN CHOICE. -/
opaque refMin : Nat → BitVec 10
/-- Fuse: `sc.ecc.thr` of a die (11 R283). Log entry 2, DESIGN CHOICE. -/
opaque eccThr : Nat → BitVec 10
/-- Fuse: logic rail in mV of a cluster (4 × die + k) at an operating point (18 R462). Log entry 2, DESIGN CHOICE. -/
opaque logicMv : Nat → Nat → BitVec 10
/-- Fuse: `fab.id.pkg`, written by the bursar at bring-up (20 R481). Log entry 2, DESIGN CHOICE. -/
opaque pkgNumber : BitVec 10
/-- Installed drawer capacity in GiB, found at bring-up (22 Table 22.3). Log entry 2, DESIGN CHOICE. -/
opaque drawerGib : BitVec 16
/-- Fuses: the attestation public key, certificate length and certificate bytes by word (22 R517). Log entry 2, DESIGN CHOICE. -/
opaque attPub : Nat → BitVec 64
/-- Fuse: certificate length (22 R517). Log entry 2, DESIGN CHOICE. -/
opaque attLen : BitVec 16
/-- Fuse: certificate word (22 R517). Log entry 2, DESIGN CHOICE. -/
opaque attCert : Nat → BitVec 64
/-- The digests that attestation signs: of a running image by version, of the fuses, of the capability list; the functions SM3, of a list of
32-byte blocks, and SM2 under the identity key, whose choice of a random number is the second argument, `State.freeCount` (22 R517). The
manual names the algorithms and does not give them. Log entry 93, DESIGN CHOICE. -/
opaque imageDigest : BitVec 16 → BitVec 256
/-- Likewise (22 R517). Log entry 93, DESIGN CHOICE. -/
opaque fuseDigest : BitVec 256
/-- Likewise (22 R517). Log entry 93, DESIGN CHOICE. -/
opaque capsDigest : BitVec 256
/-- Likewise (22 R517). Log entry 93, DESIGN CHOICE. -/
opaque sm3 : List (BitVec 256) → BitVec 256
/-- Likewise (22 R517). Log entry 93, DESIGN CHOICE. -/
opaque sm2Sign : BitVec 256 → Nat → BitVec 512
/-- Free value: the monitor photodiode reading of a ring, refreshed every frame (12 R324). Applied to the register's
offset and `State.freeCount`. Log entry 3, DESIGN CHOICE. -/
opaque ringAdc : Nat → Nat → BitVec 12

/-- Free value: word 3 of a stop record, "loop state of level 0", whose format the manual does not give (21 Table 21.1).
Applied to `State.freeCount`. Log entry 22, DESIGN CHOICE. -/
opaque loopWord : Nat → BitVec 64

/-- Free choice: which stamp or kept table of the race detector is evicted for another, and which line of a cache goes for one that comes
(02 R55, 09 R238, R247 to R249; 11 R276): the manual does not give it. Applied to `State.freeCount`. Log entries 11, 12, 17 and 21, DESIGN
CHOICE. -/
opaque victim : Nat → Nat

/-- Free choice: which of the ways that a class permits takes a line that is brought into a slice of the shared cache (11 R276). Applied to
`State.freeCount`. Log entry 12, DESIGN CHOICE. -/
opaque cacheWay : Nat → Nat

/-- Free value: the energy in µJ that the die's meters measure for an operation (18 R453). Applied to `State.freeCount`. Log entry 33, DESIGN CHOICE. -/
opaque meter : Nat → Nat

/-- Free value: unit code and location in the record of a checker or residue mismatch, which the manual does not give (19 R464, R465,
Table 19.2). Applied to `State.freeCount`. Log entry 35, DESIGN CHOICE. -/
opaque errAt : Nat → Nat

/-- Free choice: which of the corners at which a gang's rectangle has room the placer takes (01 R18, 17 R437). Applied to
`State.freeCount`. Log entry 36, DESIGN CHOICE. -/
opaque corner : Nat → Nat

/-- Free choice: the lane that a spare ring takes over at a retraining (12 R320, R324). Applied to `State.freeCount`. Log entry 37, DESIGN CHOICE. -/
opaque spareLane : Nat → Nat

/-- Free choice: whether copies of descriptors are held when a task's leases are mapped (10 R256). Applied to `State.freeCount`. Log entry 38, DESIGN CHOICE. -/
opaque keepDesc : Nat → Bool

/-- Free value: whether the module's input power, averaged over an allowance period, exceeded its fused ceiling (18 R452). Applied to
`State.freeCount`. Log entry 39, DESIGN CHOICE. -/
opaque overCeiling : Nat → Bool

end Sys2Proof.Config
end

