-- ==== Sys2Proof/Syntax.lean ====
section
/-!
DEFINITION. The syntax of the device's steps: one constructor of `Instr` for each row of the opcode table. The first
217 are instruction words; a constructor holds the word's fields as the manual's tables cut them (02 R41, Table 2.3),
and `pre` where the word may be merged with an L word (R49, R50). The others are the device's own steps and the inputs
that reach it from outside: they have no word and no fields; what names the unit and what the outside world supplies
stands in `Machine.Event`, which `State.cur` holds.
-/

namespace Sys2Proof

/-- One row of the opcode table. -/
inductive Instr where
  /-- ADD (R126). Writes the sum of two s registers, modulo 2^64. -/
  | add (d : BitVec 5) (a : BitVec 5) (b : BitVec 5)
  /-- SUB (R126). Writes the difference of two s registers, modulo 2^64. -/
  | sub (d : BitVec 5) (a : BitVec 5) (b : BitVec 5)
  /-- MUL (R126). Writes the low 64 bits of the product of two s registers. -/
  | mul (d : BitVec 5) (a : BitVec 5) (b : BitVec 5)
  /-- MULH (R126). Writes the high 64 bits of the signed 128-bit product. -/
  | mulh (d : BitVec 5) (a : BitVec 5) (b : BitVec 5)
  /-- MULHN (R126). Writes the high 64 bits of the natural 128-bit product. -/
  | mulhn (d : BitVec 5) (a : BitVec 5) (b : BitVec 5)
  /-- DIV (R127). Writes the signed quotient truncated toward zero, or takes DIVZERO on a zero divisor. -/
  | div (d : BitVec 5) (a : BitVec 5) (b : BitVec 5)
  /-- DIVN (R127). Writes the natural quotient, or takes DIVZERO on a zero divisor. -/
  | divn (d : BitVec 5) (a : BitVec 5) (b : BitVec 5)
  /-- REM (R127). Writes the signed remainder, or takes DIVZERO on a zero divisor. -/
  | rem (d : BitVec 5) (a : BitVec 5) (b : BitVec 5)
  /-- REMN (R127). Writes the natural remainder, or takes DIVZERO on a zero divisor. -/
  | remn (d : BitVec 5) (a : BitVec 5) (b : BitVec 5)
  /-- AND (R126). Writes the bitwise and of two s registers. -/
  | and (d : BitVec 5) (a : BitVec 5) (b : BitVec 5)
  /-- OR (R126). Writes the bitwise or of two s registers. -/
  | or (d : BitVec 5) (a : BitVec 5) (b : BitVec 5)
  /-- XOR (R126). Writes the bitwise xor of two s registers. -/
  | xor (d : BitVec 5) (a : BitVec 5) (b : BitVec 5)
  /-- SHL (R126). Shifts left by the low six bits of the count register. -/
  | shl (d : BitVec 5) (a : BitVec 5) (b : BitVec 5)
  /-- SHR (R126). Shifts right with zero fill by the low six bits of the count register. -/
  | shr (d : BitVec 5) (a : BitVec 5) (b : BitVec 5)
  /-- SRA (R126). Shifts right with sign fill by the low six bits of the count register. -/
  | sra (d : BitVec 5) (a : BitVec 5) (b : BitVec 5)
  /-- SLT (R126). Writes 1 when the first operand is less than the second as signed values, else 0. -/
  | slt (d : BitVec 5) (a : BitVec 5) (b : BitVec 5)
  /-- SLTN (R126). Writes 1 when the first operand is less than the second as natural values, else 0. -/
  | sltn (d : BitVec 5) (a : BitVec 5) (b : BitVec 5)
  /-- SEQ (R126). Writes 1 when the two operands are equal, else 0. -/
  | seq (d : BitVec 5) (a : BitVec 5) (b : BitVec 5)
  /-- MIN (R126). Writes the signed lesser of two s registers. -/
  | min (d : BitVec 5) (a : BitVec 5) (b : BitVec 5)
  /-- MINN (R126). Writes the natural lesser of two s registers. -/
  | minn (d : BitVec 5) (a : BitVec 5) (b : BitVec 5)
  /-- MAX (R126). Writes the signed greater of two s registers. -/
  | max (d : BitVec 5) (a : BitVec 5) (b : BitVec 5)
  /-- MAXN (R126). Writes the natural greater of two s registers. -/
  | maxn (d : BitVec 5) (a : BitVec 5) (b : BitVec 5)
  /-- CLZ (R128). Writes the count of leading zero bits of an s register. -/
  | clz (d : BitVec 5) (a : BitVec 5)
  /-- CTZ (R128). Writes the count of trailing zero bits of an s register. -/
  | ctz (d : BitVec 5) (a : BitVec 5)
  /-- POPC (R128). Writes the count of one bits of an s register. -/
  | popc (d : BitVec 5) (a : BitVec 5)
  /-- WFLD (R131). Extracts field k of a work identifier using the thread's own widths. -/
  | wfld (d : BitVec 5) (a : BitVec 5) (k : BitVec 3)
  /-- ADDI (R129). Adds a sign-extended immediate to an s register. -/
  | addi (d : BitVec 5) (a : BitVec 5) (i : BitVec 13) (pre : Option (BitVec 29))
  /-- ANDI (R129). Ands an s register with a sign-extended immediate. -/
  | andi (d : BitVec 5) (a : BitVec 5) (i : BitVec 13) (pre : Option (BitVec 29))
  /-- ORI (R129). Ors an s register with a sign-extended immediate. -/
  | ori (d : BitVec 5) (a : BitVec 5) (i : BitVec 13) (pre : Option (BitVec 29))
  /-- XORI (R129). Xors an s register with a sign-extended immediate. -/
  | xori (d : BitVec 5) (a : BitVec 5) (i : BitVec 13) (pre : Option (BitVec 29))
  /-- SHLI (R129). Shifts left by an immediate count 0 to 63. -/
  | shli (d : BitVec 5) (a : BitVec 5) (c : BitVec 6)
  /-- SHRI (R129). Shifts right with zero fill by an immediate count 0 to 63. -/
  | shri (d : BitVec 5) (a : BitVec 5) (c : BitVec 6)
  /-- SRAI (R129). Shifts right with sign fill by an immediate count 0 to 63. -/
  | srai (d : BitVec 5) (a : BitVec 5) (c : BitVec 6)
  /-- SLTI (R129). Writes 1 when an s register is less than a sign-extended immediate as i64. -/
  | slti (d : BitVec 5) (a : BitVec 5) (i : BitVec 13) (pre : Option (BitVec 29))
  /-- MOVI (R130). Writes a sign-extended immediate into an s register. -/
  | movi (d : BitVec 5) (i : BitVec 18) (pre : Option (BitVec 29))
  /-- MOVHI (R130). Writes the immediate into bits 63:32 of an s register, keeping bits 31:0. -/
  | movhi (d : BitVec 5) (i : BitVec 18) (pre : Option (BitVec 29))
  /-- SEL (R132). Chooses one of two s registers by whether a third is nonzero. -/
  | sel (d : BitVec 5) (a : BitVec 5) (b : BitVec 5) (c : BitVec 5)
  /-- BEQ (R133). Branches by a word offset when two s registers are equal. -/
  | beq (a : BitVec 5) (b : BitVec 5) (o : BitVec 13) (pre : Option (BitVec 29))
  /-- BNE (R133). Branches by a word offset when two s registers differ. -/
  | bne (a : BitVec 5) (b : BitVec 5) (o : BitVec 13) (pre : Option (BitVec 29))
  /-- BLT (R133). Branches when the first s register is less than the second, signed. -/
  | blt (a : BitVec 5) (b : BitVec 5) (o : BitVec 13) (pre : Option (BitVec 29))
  /-- BGE (R133). Branches when the first s register is at least the second, signed. -/
  | bge (a : BitVec 5) (b : BitVec 5) (o : BitVec 13) (pre : Option (BitVec 29))
  /-- BLTN (R133). Branches when the first s register is less than the second, natural. -/
  | bltn (a : BitVec 5) (b : BitVec 5) (o : BitVec 13) (pre : Option (BitVec 29))
  /-- BGEN (R133). Branches when the first s register is at least the second, natural. -/
  | bgen (a : BitVec 5) (b : BitVec 5) (o : BitVec 13) (pre : Option (BitVec 29))
  /-- JMP (R134). Jumps by a word offset relative to the instruction's address. -/
  | jmp (o : BitVec 23) (pre : Option (BitVec 29))
  /-- CALL (R134). Writes the return address to s27 and jumps by a word offset. -/
  | call (o : BitVec 23) (pre : Option (BitVec 29))
  /-- JR (R134). Jumps to an s register plus an immediate, taking ALIGN on a misaligned target. -/
  | jr (a : BitVec 5) (i : BitVec 13) (pre : Option (BitVec 29))
  /-- CALLR (R134). Writes the return address to s27 and jumps to an s register plus an immediate. -/
  | callr (a : BitVec 5) (i : BitVec 13) (pre : Option (BitVec 29))
  /-- LOOP (R136). Opens a counted hardware loop whose count comes from an s register. -/
  | loop (a : BitVec 5) (l : BitVec 7)
  /-- LOOPI (R136). Opens a counted hardware loop with an immediate 16-bit count. -/
  | loopi (c : BitVec 16) (l : BitVec 7)
  /-- LOOPS (R141). Opens a software-pipelined loop with a stage map and stage count. -/
  | loops (a : BitVec 5) (b : BitVec 5) (t : BitVec 2) (l : BitVec 5)
  /-- LEXIT (R143). Leaves or drains the innermost loop, conditionally or always. -/
  | lexit (a : BitVec 5) (y : BitVec 1) (x : BitVec 1)
  /-- LCNT (R144). Reads the pass index or passes left of one active loop level. -/
  | lcnt (d : BitVec 5) (r : BitVec 1) (l : BitVec 2)
  /-- NOP (R145). Changes nothing but the program counter. -/
  | nop
  /-- TRAP (R422). Raises SOFTTRAP at its own address with the immediate in trap.val. -/
  | trap (i : BitVec 13)
  /-- RFT (R423). Returns from a trap level, restoring set-aside state and re-injecting in-flight results. -/
  | rft
  /-- BRK (R422). Raises BREAK at its own address with the immediate in trap.val. -/
  | brk (i : BitVec 13)
  /-- CSRR (R424). Reads a CSR into an s register. -/
  | csrr (d : BitVec 5) (c : BitVec 12)
  /-- CSRW (R424). Writes an s register into a CSR under its access codes. -/
  | csrw (a : BitVec 5) (c : BitVec 12)
  /-- CSRX (R424). Exchanges a CSR with an s register. -/
  | csrx (d : BitVec 5) (a : BitVec 5) (c : BitVec 12)
  /-- CSRS (R424). Reads a CSR and sets the bits given by an s register. -/
  | csrs (d : BitVec 5) (a : BitVec 5) (c : BitVec 12)
  /-- CSRC (R424). Reads a CSR and clears the bits given by an s register. -/
  | csrc (d : BitVec 5) (a : BitVec 5) (c : BitVec 12)
  /-- EXIT (R117). Ends the thread once its older work completes, dropping registrations and freeing its slot. -/
  | exit
  /-- YIELD (R118). Marks the thread as having just issued on all three stages. -/
  | yield
  /-- SLEEP (R120). Stops fetch for the thread for a number of cluster cycles. -/
  | sleep (a : BitVec 5) (i : BitVec 13)
  /-- PRIO (R121). Sets the thread's own class, clamped to the ceiling, and returns the old one. -/
  | prio (d : BitVec 5) (a : BitVec 5) (i : BitVec 13)
  /-- ESYNC (R119). Holds the front until older V, A, Y words finish and older M and C words leave their queue heads. -/
  | esync
  /-- SPAWN (R443). Copies a launch record from the scratchpad into a device launch queue, waiting or running inline when full. -/
  | spawn (d : BitVec 5) (a : BitVec 5) (b : BitVec 5)
  /-- FLEASE (R367). Asks the die's teller for a fragment lease of a shape on a queue, waiting or trying once. -/
  | flease (d : BitVec 5) (t : BitVec 1) (q : BitVec 2) (s : BitVec 2)
  /-- FRET (R368). Returns the group's lease and writes its strip mask. -/
  | fret (d : BitVec 5)
  /-- DRAW (R454). Requests leave for an amount and adds it to the thread's reserve. -/
  | draw (d : BitVec 5) (a : BitVec 5) (t : BitVec 1)
  /-- DRET (R454). Returns part of the thread's reserve to the service's account. -/
  | dret (d : BitVec 5) (a : BitVec 5)
  /-- MARK (R501). Writes a kind-1 trace record with an immediate and an s register value. -/
  | mark (a : BitVec 5) (i : BitVec 13)
  /-- CAPR (R519). Reads one entry of the capability list. -/
  | capr (d : BitVec 5) (a : BitVec 5)
  /-- LEXT (R267). Asks the scheduler to add one tile to the task's lease and writes the result code. -/
  | lext (d : BitVec 5) (a : BitVec 5) (b : BitVec 5)
  /-- FENCEI (R55). Discards younger fetched words, invalidates the instruction cache and refetches. -/
  | fencei
  /-- HALT (R426). In a privileged service stops the thread for the debug interface; otherwise takes PRIVILEGED. -/
  | halt
  /-- LIMM (R49). Prefixes the next word, extending its immediate by 29 bits. -/
  | limm (i : BitVec 29)
  /-- VADD (R158). Adds two vectors lane by lane, optionally saturating integers. -/
  | vadd (d : BitVec 5) (a : BitVec 5) (b : BitVec 5) (t : BitVec 4) (m : BitVec 3) (x : BitVec 1)
  /-- VSUB (R158). Subtracts two vectors lane by lane, optionally saturating integers. -/
  | vsub (d : BitVec 5) (a : BitVec 5) (b : BitVec 5) (t : BitVec 4) (m : BitVec 3) (x : BitVec 1)
  /-- VMUL (R158). Multiplies two vectors lane by lane, optionally saturating integers. -/
  | vmul (d : BitVec 5) (a : BitVec 5) (b : BitVec 5) (t : BitVec 4) (m : BitVec 3) (x : BitVec 1)
  /-- VMULH (R158). Writes the high half of each integer lane product. -/
  | vmulh (d : BitVec 5) (a : BitVec 5) (b : BitVec 5) (t : BitVec 4) (m : BitVec 3)
  /-- VFMA (R159). Computes a times b plus the destination, rounded once. -/
  | vfma (d : BitVec 5) (a : BitVec 5) (b : BitVec 5) (t : BitVec 4) (m : BitVec 3)
  /-- VFMS (R159). Computes a times b minus the destination, rounded once. -/
  | vfms (d : BitVec 5) (a : BitVec 5) (b : BitVec 5) (t : BitVec 4) (m : BitVec 3)
  /-- VFNM (R159). Computes the destination minus a times b, rounded once. -/
  | vfnm (d : BitVec 5) (a : BitVec 5) (b : BitVec 5) (t : BitVec 4) (m : BitVec 3)
  /-- VMIN (R158). Writes the lesser of each pair of lanes. -/
  | vmin (d : BitVec 5) (a : BitVec 5) (b : BitVec 5) (t : BitVec 4) (m : BitVec 3)
  /-- VMAX (R158). Writes the greater of each pair of lanes. -/
  | vmax (d : BitVec 5) (a : BitVec 5) (b : BitVec 5) (t : BitVec 4) (m : BitVec 3)
  /-- VABS (R158). Writes the absolute value of each lane. -/
  | vabs (d : BitVec 5) (a : BitVec 5) (t : BitVec 4) (m : BitVec 3) (x : BitVec 1)
  /-- VNEG (R158). Writes the negation of each lane. -/
  | vneg (d : BitVec 5) (a : BitVec 5) (t : BitVec 4) (m : BitVec 3) (x : BitVec 1)
  /-- VDIV (R160). Divides float lanes, rounded once. -/
  | vdiv (d : BitVec 5) (a : BitVec 5) (b : BitVec 5) (t : BitVec 4) (m : BitVec 3)
  /-- VSQRT (R160). Writes the square root of each float lane. -/
  | vsqrt (d : BitVec 5) (a : BitVec 5) (t : BitVec 4) (m : BitVec 3)
  /-- VRCP (R160). Writes the reciprocal of each float lane, exact or approximate. -/
  | vrcp (d : BitVec 5) (a : BitVec 5) (t : BitVec 4) (m : BitVec 3) (x : BitVec 1)
  /-- VRSQ (R160). Writes the reciprocal square root of each float lane, exact or approximate. -/
  | vrsq (d : BitVec 5) (a : BitVec 5) (t : BitVec 4) (m : BitVec 3) (x : BitVec 1)
  /-- VEXP2 (R160). Writes 2 to the power of each float lane, exact or approximate. -/
  | vexp2 (d : BitVec 5) (a : BitVec 5) (t : BitVec 4) (m : BitVec 3) (x : BitVec 1)
  /-- VLOG2 (R160). Writes the base-2 logarithm of each float lane, exact or approximate. -/
  | vlog2 (d : BitVec 5) (a : BitVec 5) (t : BitVec 4) (m : BitVec 3) (x : BitVec 1)
  /-- VAND (R162). Ands two vectors bitwise. -/
  | vand (d : BitVec 5) (a : BitVec 5) (b : BitVec 5) (t : BitVec 4) (m : BitVec 3)
  /-- VOR (R162). Ors two vectors bitwise. -/
  | vor (d : BitVec 5) (a : BitVec 5) (b : BitVec 5) (t : BitVec 4) (m : BitVec 3)
  /-- VXOR (R162). Xors two vectors bitwise. -/
  | vxor (d : BitVec 5) (a : BitVec 5) (b : BitVec 5) (t : BitVec 4) (m : BitVec 3)
  /-- VNOT (R162). Inverts the bits of each lane. -/
  | vnot (d : BitVec 5) (a : BitVec 5) (t : BitVec 4) (m : BitVec 3)
  /-- VSHL (R162). Shifts integer lanes left by per-lane counts. -/
  | vshl (d : BitVec 5) (a : BitVec 5) (b : BitVec 5) (t : BitVec 4) (m : BitVec 3)
  /-- VSHR (R162). Shifts integer lanes right with zero fill. -/
  | vshr (d : BitVec 5) (a : BitVec 5) (b : BitVec 5) (t : BitVec 4) (m : BitVec 3)
  /-- VSRA (R162). Shifts integer lanes right with sign fill. -/
  | vsra (d : BitVec 5) (a : BitVec 5) (b : BitVec 5) (t : BitVec 4) (m : BitVec 3)
  /-- VCMPEQ (R163). Writes a mask of lane-group equality, all or any. -/
  | vcmpeq (d : BitVec 3) (a : BitVec 5) (b : BitVec 5) (t : BitVec 4) (m : BitVec 3) (x : BitVec 1)
  /-- VCMPLT (R163). Writes a mask of lane-group less-than, all or any. -/
  | vcmplt (d : BitVec 3) (a : BitVec 5) (b : BitVec 5) (t : BitVec 4) (m : BitVec 3) (x : BitVec 1)
  /-- VCMPLE (R163). Writes a mask of lane-group less-or-equal, all or any. -/
  | vcmple (d : BitVec 3) (a : BitVec 5) (b : BitVec 5) (t : BitVec 4) (m : BitVec 3) (x : BitVec 1)
  /-- VCMPUN (R163). Writes a mask of lane groups holding an unordered float pair. -/
  | vcmpun (d : BitVec 3) (a : BitVec 5) (b : BitVec 5) (t : BitVec 4) (m : BitVec 3) (x : BitVec 1)
  /-- VSEL (R164). Selects every lane from a or b by the mask. -/
  | vsel (d : BitVec 5) (a : BitVec 5) (b : BitVec 5) (t : BitVec 4) (m : BitVec 3)
  /-- VCVT (R165). Converts lanes from a source type to the destination type. -/
  | vcvt (d : BitVec 5) (a : BitVec 5) (s : BitVec 1) (c : BitVec 4) (t : BitVec 4) (m : BitVec 3) (r : BitVec 1)
  /-- VQBLK (R167). Quantises float lanes into e2m1 blocks with their sideband. -/
  | vqblk (d : BitVec 5) (a : BitVec 5) (b : BitVec 5) (t : BitVec 4)
  /-- VDQBLK (R168). Decodes a block vector into float lanes. -/
  | vdqblk (d : BitVec 5) (a : BitVec 5) (b : BitVec 5) (t : BitVec 4) (m : BitVec 3)
  /-- VRED (R170). Reduces the lanes by a fixed tree into lane 0. -/
  | vred (d : BitVec 5) (a : BitVec 5) (p : BitVec 3) (t : BitVec 4) (m : BitVec 3)
  /-- VSCAN (R170). Forms an inclusive scan of the lanes by a fixed tree. -/
  | vscan (d : BitVec 5) (a : BitVec 5) (p : BitVec 3) (t : BitVec 4) (m : BitVec 3)
  /-- VPERM (R172). Permutes lanes by per-lane indices. -/
  | vperm (d : BitVec 5) (a : BitVec 5) (b : BitVec 5) (t : BitVec 4) (m : BitVec 3) (x : BitVec 1)
  /-- VROT (R172). Rotates lanes by a count. -/
  | vrot (d : BitVec 5) (a : BitVec 5) (b : BitVec 5) (t : BitVec 4) (m : BitVec 3)
  /-- VZIP (R172). Interleaves the low or high halves of two vectors. -/
  | vzip (d : BitVec 5) (a : BitVec 5) (b : BitVec 5) (t : BitVec 4) (m : BitVec 3) (x : BitVec 1)
  /-- VUNZIP (R172). Takes the even or odd lanes of two vectors. -/
  | vunzip (d : BitVec 5) (a : BitVec 5) (b : BitVec 5) (t : BitVec 4) (m : BitVec 3) (x : BitVec 1)
  /-- VBCST (R172). Broadcasts one lane to every lane. -/
  | vbcst (d : BitVec 5) (a : BitVec 5) (b : BitVec 5) (t : BitVec 4) (m : BitVec 3)
  /-- VIOTA (R172). Writes each lane's index. -/
  | viota (d : BitVec 5) (t : BitVec 4) (m : BitVec 3)
  /-- VMOVI (R173). Writes an immediate into every 32-bit group of a vector. -/
  | vmovi (d : BitVec 5) (i : BitVec 18) (pre : Option (BitVec 29))
  /-- VDOT4 (R171). Accumulates four-element dot products into 32-bit groups. -/
  | vdot4 (d : BitVec 5) (a : BitVec 5) (b : BitVec 5) (t : BitVec 4) (m : BitVec 3) (x : BitVec 1)
  /-- VDOT2 (R171). Accumulates two-element dot products into 32-bit groups. -/
  | vdot2 (d : BitVec 5) (a : BitVec 5) (b : BitVec 5) (t : BitVec 4) (m : BitVec 3) (x : BitVec 1)
  /-- MLOG (R174). Combines two mask registers by a logical operation. -/
  | mlog (d : BitVec 3) (a : BitVec 3) (p : BitVec 2) (b : BitVec 3) (m : BitVec 3) (n : BitVec 1)
  /-- MPOP (R174). Counts the set bits of a mask under a mask. -/
  | mpop (d : BitVec 5) (a : BitVec 3) (m : BitVec 3)
  /-- MFIRST (R174). Finds the first set bit of a mask under a mask. -/
  | mfirst (d : BitVec 5) (a : BitVec 3) (m : BitVec 3)
  /-- VTOS (R176). Pushes one 64-bit piece of a vector onto vsq. -/
  | vtos (a : BitVec 5) (j : BitVec 5)
  /-- VTOA (R176). Pushes a whole vector onto vaq. -/
  | vtoa (a : BitVec 5)
  /-- VMOV (R172). Copies a vector lane by lane. -/
  | vmov (d : BitVec 5) (a : BitVec 5) (t : BitVec 4) (m : BitVec 3)
  /-- VWAIT (R177). Holds younger steering until every older V result has landed. -/
  | vwait
  /-- VCLASS (R175). Writes a one-hot class of each float lane. -/
  | vclass (d : BitVec 5) (a : BitVec 5) (t : BitVec 4) (m : BitVec 3)
  /-- VCLZ (R175). Writes the leading zero count of each lane. -/
  | vclz (d : BitVec 5) (a : BitVec 5) (t : BitVec 4) (m : BitVec 3)
  /-- VPOPC (R175). Writes the one-bit count of each lane. -/
  | vpopc (d : BitVec 5) (a : BitVec 5) (t : BitVec 4) (m : BitVec 3)
  /-- AADD (R194). Adds two a registers. -/
  | aadd (d : BitVec 5) (a : BitVec 5) (b : BitVec 5)
  /-- ASUB (R194). Subtracts two a registers. -/
  | asub (d : BitVec 5) (a : BitVec 5) (b : BitVec 5)
  /-- AMUL (R194). Multiplies two a registers, low 64 bits. -/
  | amul (d : BitVec 5) (a : BitVec 5) (b : BitVec 5)
  /-- ASHL (R194). Shifts an a register left. -/
  | ashl (d : BitVec 5) (a : BitVec 5) (b : BitVec 5)
  /-- ASHR (R194). Shifts an a register right with zero fill. -/
  | ashr (d : BitVec 5) (a : BitVec 5) (b : BitVec 5)
  /-- AAND (R194). Ands two a registers. -/
  | aand (d : BitVec 5) (a : BitVec 5) (b : BitVec 5)
  /-- AOR (R194). Ors two a registers. -/
  | aor (d : BitVec 5) (a : BitVec 5) (b : BitVec 5)
  /-- AADDI (R194). Adds a sign-extended immediate to an a register. -/
  | aaddi (d : BitVec 5) (a : BitVec 5) (i : BitVec 13) (pre : Option (BitVec 29))
  /-- AMOVI (R194). Writes an immediate into an a register. -/
  | amovi (d : BitVec 5) (i : BitVec 18) (pre : Option (BitVec 29))
  /-- AMOVHI (R194). Writes an immediate into bits 63:32 of an a register. -/
  | amovhi (d : BitVec 5) (i : BitVec 18) (pre : Option (BitVec 29))
  /-- LDS (R195). Loads one 64-bit scratchpad word. -/
  | lds (d : BitVec 5) (a : BitVec 5) (i : BitVec 13) (pre : Option (BitVec 29))
  /-- STS (R195). Stores one 64-bit scratchpad word. -/
  | sts (d : BitVec 5) (a : BitVec 5) (i : BitVec 13) (pre : Option (BitVec 29))
  /-- LDV (R196). Loads 256 scratchpad bytes into a load queue. -/
  | ldv (d : BitVec 5) (a : BitVec 5) (i : BitVec 13) (pre : Option (BitVec 29))
  /-- STV (R196). Stores 256 bytes popped from sq into the scratchpad. -/
  | stv (a : BitVec 5) (i : BitVec 13) (pre : Option (BitVec 29))
  /-- LDVS (R197). Loads strided scratchpad elements into a load queue. -/
  | ldvs (d : BitVec 5) (a : BitVec 5) (b : BitVec 5) (w : BitVec 1)
  /-- STVS (R197). Stores a vector to strided scratchpad elements. -/
  | stvs (a : BitVec 5) (b : BitVec 5) (w : BitVec 1)
  /-- LDG (R198). Gathers scratchpad elements through index lanes from vaq. -/
  | ldg (d : BitVec 5) (a : BitVec 5) (w : BitVec 1)
  /-- STG (R198). Scatters a vector to scratchpad elements through index lanes. -/
  | stg (a : BitVec 5) (w : BitVec 1)
  /-- LDT (R199). Loads 256 bytes of a registered tile, waiting by tile state. -/
  | ldt (d : BitVec 5) (a : BitVec 5) (i : BitVec 13) (pre : Option (BitVec 29))
  /-- STT (R199). Stores 256 bytes into a registered tile, waiting by tile state. -/
  | stt (a : BitVec 5) (i : BitVec 13) (pre : Option (BitVec 29))
  /-- KSET (R268). Sets two coordinates of a k register from an a register. -/
  | kset (d : BitVec 3) (a : BitVec 5) (p : BitVec 2)
  /-- KADD (R268). Adds two k registers coordinate by coordinate. -/
  | kadd (d : BitVec 3) (a : BitVec 3) (b : BitVec 3)
  /-- KADDI (R268). Copies a k register and adds a delta to one coordinate. -/
  | kaddi (d : BitVec 3) (a : BitVec 3) (e : BitVec 10) (j : BitVec 3) (pre : Option (BitVec 29))
  /-- KCLR (R268). Zeroes a k register. -/
  | kclr (d : BitVec 3)
  /-- TLD (R270). Loads 1 to 8 bytes of a tensor element. -/
  | tld (d : BitVec 5) (a : BitVec 5) (k : BitVec 3) (x : BitVec 1) (n : BitVec 2)
  /-- TST (R270). Stores 1 to 8 bytes of a tensor element at a scope. -/
  | tst (d : BitVec 5) (a : BitVec 5) (k : BitVec 3) (s : BitVec 3) (n : BitVec 2)
  /-- TLDV (R271). Loads a run of tensor elements along place 0 into a load queue. -/
  | tldv (d : BitVec 5) (a : BitVec 5) (k : BitVec 3)
  /-- TSTV (R271). Stores a run of tensor elements from sq. -/
  | tstv (a : BitVec 5) (k : BitVec 3) (s : BitVec 3)
  /-- TLDG (R272). Gathers tensor elements along a dimension through index lanes. -/
  | tldg (d : BitVec 5) (a : BitVec 5) (k : BitVec 3) (j : BitVec 3)
  /-- TSTG (R272). Scatters tensor elements along a dimension through index lanes. -/
  | tstg (a : BitVec 5) (k : BitVec 3) (s : BitVec 3) (j : BitVec 3)
  /-- TPF (R273). Hints a fetch, optionally a promotion, of a tile. -/
  | tpf (a : BitVec 5) (k : BitVec 3) (p : BitVec 1)
  /-- TTREG (R200). Registers a tile in state empty. -/
  | ttreg (a : BitVec 5) (t : BitVec 8)
  /-- TTREL (R201). Unregisters a tile, waiting while an engine owns it. -/
  | ttrel (t : BitVec 8)
  /-- TTSTAT (R201). Returns a tile-table entry. -/
  | ttstat (d : BitVec 5) (t : BitVec 8)
  /-- BINIT (R212). Initialises a barrier object, advancing its phase and releasing waiters. -/
  | binit (d : BitVec 5) (a : BitVec 5) (i : BitVec 10)
  /-- BREG (R209). Registers the thread at a barrier object. -/
  | breg (a : BitVec 5) (i : BitVec 10)
  /-- BARV (R213). Arrives at a barrier object and returns its phase. -/
  | barv (d : BitVec 5) (a : BitVec 5) (s : BitVec 3) (i : BitVec 10)
  /-- BARD (R213). Arrives and drops from a barrier object, removing the registration. -/
  | bard (d : BitVec 5) (a : BitVec 5) (s : BitVec 3) (i : BitVec 10)
  /-- BEXP (R213). Adds expected bytes to an object, optionally arriving. -/
  | bexp (d : BitVec 5) (a : BitVec 5) (b : BitVec 5) (s : BitVec 3) (v : BitVec 1)
  /-- BWAIT (R215). Waits for an object's phase to pass a token, taking POISON if poisoned. -/
  | bwait (d : BitVec 5) (a : BitVec 5) (s : BitVec 3) (i : BitVec 10)
  /-- BTEST (R216). Returns word 0 of an object without waiting. -/
  | btest (d : BitVec 5) (a : BitVec 5) (s : BitVec 3) (i : BitVec 10)
  /-- LDF (R220). Waits for a tagged word to be full and loads it. -/
  | ldf (d : BitVec 5) (a : BitVec 5) (s : BitVec 3) (o : BitVec 10)
  /-- LDFE (R220). Waits for full, loads the word and sets it empty. -/
  | ldfe (d : BitVec 5) (a : BitVec 5) (s : BitVec 3) (o : BitVec 10)
  /-- STEF (R220). Waits for empty, stores the word and sets it full. -/
  | stef (d : BitVec 5) (a : BitVec 5) (s : BitVec 3) (o : BitVec 10)
  /-- STF (R220). Stores a word and sets it full. -/
  | stf (d : BitVec 5) (a : BitVec 5) (s : BitVec 3) (o : BitVec 10)
  /-- FESET (R220). Sets a word's tag empty or full. -/
  | feset (f : BitVec 1) (a : BitVec 5) (o : BitVec 10)
  /-- TREADY (R202). Flips a tile from empty to ready. -/
  | tready (t : BitVec 8)
  /-- TEMPTY (R202). Flips a tile from ready to empty. -/
  | tempty (t : BitVec 8)
  /-- TWAIT (R202). Waits until a tile stands in a given state. -/
  | twait (s : BitVec 2) (t : BitVec 8)
  /-- LDAQ (R242). Loads a tensor word with acquire at a scope. -/
  | ldaq (d : BitVec 5) (a : BitVec 5) (k : BitVec 3) (s : BitVec 3) (w : BitVec 1)
  /-- STRL (R242). Stores a tensor word with release at a scope. -/
  | strl (d : BitVec 5) (a : BitVec 5) (k : BitVec 3) (s : BitVec 3) (w : BitVec 1)
  /-- LDAQS (R243). Loads a scratchpad word with acquire. -/
  | ldaqs (d : BitVec 5) (a : BitVec 5) (b : BitVec 5) (s : BitVec 3) (w : BitVec 1)
  /-- STRLS (R243). Stores a scratchpad word with release. -/
  | strls (d : BitVec 5) (a : BitVec 5) (b : BitVec 5) (s : BitVec 3) (w : BitVec 1)
  /-- FENCE (R231). Orders older and younger accesses by kind and scope. -/
  | fence (s : BitVec 3) (k : BitVec 2)
  /-- AMO (R290). Performs a read-modify-write atomic on a tensor word at its home slice. -/
  | amo (d : BitVec 5) (a : BitVec 5) (r : BitVec 2) (k : BitVec 3) (s : BitVec 3) (p : BitVec 5)
  /-- AMOC (R290). Performs a compare-and-swap on a tensor word. -/
  | amoc (d : BitVec 5) (a : BitVec 5) (r : BitVec 2) (k : BitVec 3) (s : BitVec 3) (w : BitVec 1)
  /-- RED (R291). Posts a reduction to a tensor word, or appends it to escrow. -/
  | red (d : BitVec 5) (a : BitVec 5) (r : BitVec 2) (k : BitVec 3) (s : BitVec 3) (p : BitVec 5)
  /-- REDV (R292). Adds a vector into a run of tensor elements, sector by sector. -/
  | redv (a : BitVec 5) (r : BitVec 2) (k : BitVec 3) (s : BitVec 3) (y : BitVec 1)
  /-- AMOS (R293). Performs an atomic on a scratchpad word at its bank. -/
  | amos (d : BitVec 5) (a : BitVec 5) (b : BitVec 5) (s : BitVec 3) (p : BitVec 5)
  /-- MNEST (R390). Writes one level of the shadow nest table. -/
  | mnest (a : BitVec 5) (b : BitVec 5) (l : BitVec 3)
  /-- MBODY (R382). Starts recording the next n M words into the shadow body. -/
  | mbody (n : BitVec 4)
  /-- MGO (R383). Checks, asks leave for and runs the recorded nest on the fragment. -/
  | mgo (a : BitVec 5) (b : BitVec 5)
  /-- MSEL (R389). Selects the strip that later M words address in independent mode. -/
  | msel (k : BitVec 3)
  /-- MCONF (R360). Sets the lease mode once every strip is idle, clearing any fault. -/
  | mconf (m : BitVec 2)
  /-- MCLM (R391). Claims a run of free operand slots, setting them empty. -/
  | mclm (n : BitVec 4) (k : BitVec 3) (s : BitVec 4)
  /-- MREL (R391). Releases a run of operand slots to free. -/
  | mrel (n : BitVec 4) (k : BitVec 3) (s : BitVec 4)
  /-- MLDB (R392). Loads stationary weights from a slot into the back buffer. -/
  | mldb (d : BitVec 5) (g : BitVec 2) (x : BitVec 1) (p : BitVec 1) (t : BitVec 4)
  /-- MMMA (R393). Performs one dense pass into an accumulator half. -/
  | mmma (d : BitVec 5) (g : BitVec 2) (x : BitVec 1) (h : BitVec 1) (t : BitVec 4)
  /-- MMMS (R393). Performs one 2:4 sparse pass using a metadata entry. -/
  | mmms (d : BitVec 5) (g : BitVec 2) (x : BitVec 1) (h : BitVec 1) (t : BitVec 4)
  /-- MMMC (R394). Performs a chained pass, streaming each strip's output into the next. -/
  | mmmc (d : BitVec 5) (a : BitVec 5) (g : BitVec 2) (x : BitVec 1) (h : BitVec 1) (t : BitVec 4)
  /-- MZACC (R395). Sets one or both accumulator halves to tag none. -/
  | mzacc (g : BitVec 2) (b : BitVec 1) (h : BitVec 1)
  /-- MDRN (R396). Drains an accumulator half to a tensor or tile endpoint, optionally reducing absmax. -/
  | mdrn (d : BitVec 5) (a : BitVec 5) (b : BitVec 5) (g : BitVec 2) (h : BitVec 1) (s : BitVec 1) (t : BitVec 4)
  /-- MDRC (R398). Drains an accumulator half into an operand slot as an A tile. -/
  | mdrc (d : BitVec 5) (b : BitVec 5) (g : BitVec 2) (h : BitVec 1) (s : BitVec 1) (t : BitVec 4)
  /-- MAMAX (R399). Reduces the absolute maximum of a half into a word without draining. -/
  | mamax (a : BitVec 5) (g : BitVec 2) (h : BitVec 1)
  /-- MMQCLR (R400). Clears a fragment fault, its metadata queues and its shadow nest. -/
  | mmqclr
  /-- CNEST (R332). Attaches a nest of counts and steps to the next C word on the channel. -/
  | cnest (d : BitVec 5) (a : BitVec 5) (b : BitVec 5) (c : BitVec 2)
  /-- CCPY (R339). Copies runs between endpoints with a conversion. -/
  | ccpy (d : BitVec 5) (a : BitVec 5) (b : BitVec 5) (c : BitVec 2) (v : BitVec 4) (o : BitVec 1) (s : BitVec 1)
  /-- CST (R340). Copies with places 0 and 1 exchanged. -/
  | cst (d : BitVec 5) (a : BitVec 5) (b : BitVec 5) (c : BitVec 2) (v : BitVec 4) (o : BitVec 1) (s : BitVec 1)
  /-- CCPYS (R341). Copies with an element stride at the source. -/
  | ccpys (d : BitVec 5) (a : BitVec 5) (b : BitVec 5) (c : BitVec 2) (v : BitVec 4) (o : BitVec 1) (s : BitVec 1)
  /-- CMC (R342). Multicasts runs to a tile on every core named in a mask. -/
  | cmc (d : BitVec 5) (a : BitVec 5) (b : BitVec 5) (c : BitVec 2) (v : BitVec 4) (o : BitVec 1) (s : BitVec 1)
  /-- CGTH (R343). Gathers rows by indices held in a tile. -/
  | cgth (d : BitVec 5) (a : BitVec 5) (b : BitVec 5) (c : BitVec 2) (v : BitVec 4) (o : BitVec 1) (s : BitVec 1)
  /-- COPF (R346). Fills an operand slot of the thread's lease. -/
  | copf (d : BitVec 5) (a : BitVec 5) (b : BitVec 5) (c : BitVec 2) (v : BitVec 4) (o : BitVec 1) (s : BitVec 1)
  /-- CMETA (R347). Moves entries into a strip's sparsity metadata queue. -/
  | cmeta (d : BitVec 5) (a : BitVec 5) (b : BitVec 5) (c : BitVec 2) (o : BitVec 1)
  /-- CRED (R344). Combines source elements into a destination tensor by an operation. -/
  | cred (d : BitVec 5) (a : BitVec 5) (b : BitVec 5) (c : BitVec 2) (p : BitVec 4) (o : BitVec 1)
  /-- CSET (R345). Writes a pattern into every destination element. -/
  | cset (d : BitVec 5) (a : BitVec 5) (b : BitVec 5) (c : BitVec 2) (o : BitVec 1)
  /-- CREM (R492). Writes runs into a peer's granted scratchpad window, or contributes to a collective. -/
  | crem (d : BitVec 5) (a : BitVec 5) (b : BitVec 5) (c : BitVec 2) (v : BitVec 4) (o : BitVec 1) (s : BitVec 1)
  /-- CPRO (R315). Asks promotion of a run of tiles and counts their bytes. -/
  | cpro (d : BitVec 5) (a : BitVec 5) (b : BitVec 5) (c : BitVec 2) (o : BitVec 1)
  /-- V_RESULT_LAND (R111). A V word's results land L ticks after issue, or fill a push-port entry L cycles after issue. -/
  | vResultLand
  /-- COPY_COMMAND_START (R328). A copy command leaves its queue head and starts once every start condition holds. -/
  | copyCommandStart
  /-- SECTOR_LANDS (R334). A destination sector lands, subtracting 32 bytes from the object and flipping the tile after the last. -/
  | sectorLands
  /-- COPY_COMMAND_COMPLETE (R327). A command completes when its sectors, counts and flips are done, and the next may start. -/
  | copyCommandComplete
  /-- TAKE_TRAP (R407). At the horizon the thread stops at the trap point and enters the next trap level. -/
  | takeTrap
  /-- WAIT_TIMEOUT (R222). A blocking wait reaching wait.limit ends with TIMEOUT. -/
  | waitTimeout
  /-- V_STALL_TIMEOUT (R105). A head V word stalled on a data queue past the limit makes the front take TIMEOUT. -/
  | vStallTimeout
  /-- ESCROW_WAIT_TIMEOUT (R309). A word waiting behind an escrow append to a full store takes TIMEOUT at the limit. -/
  | escrowWaitTimeout
  /-- LINKSTALL (R322). An access waiting on a retraining link or the fabric past the limit takes LINKSTALL. -/
  | linkstall
  /-- SLEEP_EXPIRY (R120). The SLEEP count reaches zero and fetch resumes. -/
  | sleepExpiry
  /-- LOAD_DATA_ARRIVE (R101). A load's data arrive and fill its reserved queue entry. -/
  | loadDataArrive
  /-- INHERIT_MESSAGE (R109). A control message announcing a wait or completion changes a remote registrant's inherited class. -/
  | inheritMessage
  /-- ATOMIC_APPLY (R284). The home arithmetic unit applies one arriving atomic or reduction sector. -/
  | atomicApply
  /-- SLICE_PERIOD (R279). A 1,024-cycle slice period begins, resetting class allotment counts. -/
  | slicePeriod
  /-- URGENT_PROMOTION (R297). A request-normal head flit that waited 1,024 cycles competes in the urgent tier. -/
  | urgentPromotion
  /-- TELLER_GRANT (R352). The teller grants the head request of the chosen queue to a free placement. -/
  | tellerGrant
  /-- STRIP_RUNDOWN_END (R357). A returning lease's queued M words complete and its strips enter scrubbing. -/
  | stripRundownEnd
  /-- STRIP_SCRUB_COMPLETE (R358). Scrubbing releases slots, zeroes undrained halves and frees the strips. -/
  | stripScrubComplete
  /-- FRAGMENT_SAVE_COMPLETE (R363). A pre-empted fragment's state is saved and its strips become free. -/
  | fragmentSaveComplete
  /-- NEST_COMPLETE (R385). Every word and drain of a nest has completed, making one arrival at the completion object. -/
  | nestComplete
  /-- LNQ_TAIL_WRITE (R428). The host advances a launch queue's tail to submit records. -/
  | lnqTailWrite
  /-- GANG_ACCEPT (R433). The scheduler accepts the next gang of a record, checking it and entering its ranges. -/
  | gangAccept
  /-- RECORD_FINISH (R428). The scheduler writes a finished record's status and advances the queue head. -/
  | recordFinish
  /-- LEASE_MAPPED (R260). Every tile of a ready task's ranges is mapped, pinned and staged. -/
  | leaseMapped
  /-- GANG_START (R437). With rectangle, lease and leave granted, every group of the gang starts in one cycle. -/
  | gangStart
  /-- CLEARING_COMPLETE (R265). A guarded task's shadows are published and escrow untagged, and the task is released. -/
  | clearingComplete
  /-- PREEMPT_GANG (R440). A placer pre-empts the fewest lower-class gangs to free a rectangle. -/
  | preemptGang
  /-- GANG_SAVE_COMPLETE (R419). A gang's save completes and its cores, slots and windows are freed. -/
  | gangSaveComplete
  /-- GANG_RESTORE (R420). A saved gang is placed and restored before any of its threads issues. -/
  | gangRestore
  /-- CHECKER_MISMATCH (R464). The checker core's copy disagrees with the front, discarding the task. -/
  | checkerMismatch
  /-- RESIDUE_MISMATCH (R465). A datapath residue check fails and the result does not land. -/
  | residueMismatch
  /-- TASK_DISCARD (R472). A task that consumed poison or mismatched is killed, dropped and re-queued or failed. -/
  | taskDiscard
  /-- SCRUB_LINE (R471). Scrub reads one line, correcting or reporting its errors. -/
  | scrubLine
  /-- TILE_FETCH (R305). A forced fetch starts, promoting the tile or applying its log in place. -/
  | tileFetch
  /-- FETCH_COMPLETE (R306). With no untagged entry left, the tile becomes resident and the drawer frame goes to set 8. -/
  | fetchComplete
  /-- ESCROW_APPLY (R307). One escrow entry is applied at its home slice and freed. -/
  | escrowApply
  /-- DEFERRED_APPEND (R309). An append waiting on a full store is performed when an entry frees or the tile is resident. -/
  | deferredAppend
  /-- HW_FRAME_PUT (R301). A hardware put waiting at a full ring enters when room frees. -/
  | hwFramePut
  /-- DRAWER_SLOT_SEND (R319). A drawer request goes out in the first slot its class may use. -/
  | drawerSlotSend
  /-- DRAWER_READ_RETURN (R317). Read data return in the inbound slot four frames later. -/
  | drawerReadReturn
  /-- DRAWER_WRITE_COMPLETE (R317). A drawer write completion returns four frames later. -/
  | drawerWriteComplete
  /-- DL_ENABLE (R320). Setting dl.ctl.en takes the link from down to training. -/
  | dlEnable
  /-- DL_DISABLE (R320). Clearing dl.ctl.en takes the link down. -/
  | dlDisable
  /-- DL_RETRAIN (R323). A write of 1 to dl.ctl.rt puts an up link into retraining. -/
  | dlRetrain
  /-- LANES_LOCKED (R320). All 16 lanes lock and the link goes up. -/
  | lanesLocked
  /-- LOCK_LOSS (R320). A ring losing lock, drift or an inconsistent lane map puts the link into retraining. -/
  | lockLoss
  /-- TRAINING_TIMEOUT (R320). 60 µs without lock on 16 lanes fails the link. -/
  | trainingTimeout
  /-- TUNING_TIMEOUT (R325). After 30 µs of inconsistent service tuning, ownership returns to the bursar. -/
  | tuningTimeout
  /-- PH_OWN_WRITE (R325). Hands link tuning to a service or back to the bursar, subject to consent. -/
  | phOwnWrite
  /-- ALLOWANCE_PERIOD (R448). At each 1 ms boundary accounts refill and waiting requests are retested. -/
  | allowancePeriod
  /-- LEAVE_GRANT (R450). A waiting request for leave is granted, debiting its cost and committing its current. -/
  | leaveGrant
  /-- LEAVE_AGEING (R451). A head waiting 4,096 cycles for current stops other grants on the die. -/
  | leaveAgeing
  /-- LEAVE_SETTLE (R453). A completed operation settles measured energy against its cost. -/
  | leaveSettle
  /-- ACTIVITY_PERIOD (R459). A 1,024-cycle activity period begins and internal budgets refill. -/
  | activityPeriod
  /-- DIE_SRAM_WRITE (R461). Requests economy or normal service, moving the SRAM rail in order. -/
  | dieSramWrite
  /-- ECC_MODE_CHANGE_DONE (R282). The slices finish re-encoding and the rail may move. -/
  | eccModeChangeDone
  /-- CLU_OP_WRITE (R462). Requests a cluster operating point change. -/
  | cluOpWrite
  /-- OP_POINT_CHANGE (R462). At the retirement boundaries the voltage and clock of a cluster change. -/
  | opPointChange
  /-- SVC_CTL_WRITE (R33). Changes a service's enable, class, priority ceiling or mode. -/
  | svcCtlWrite
  /-- SVC_TINV_WRITE (R256). Drops every cached copy of a descriptor or tile-map entry throughout the package. -/
  | svcTinvWrite
  /-- NF_PUT (R300). Adds a frame at the tail of a pool ring. -/
  | nfPut
  /-- NF_DROP (R300). Removes frames from the head of a pool ring. -/
  | nfDrop
  /-- NF_BASE_WRITE (R300). Sets a pool ring's storage and empties it. -/
  | nfBaseWrite
  /-- HOST_MEM_READ (R479). A host CXL.mem read of the window is served at the home slice. -/
  | hostMemRead
  /-- HOST_MEM_WRITE (R479). A host CXL.mem write is performed at the home slice. -/
  | hostMemWrite
  /-- HOST_SNOOP (R478). A host snoop invalidates a class-10 line before it is answered. -/
  | hostSnoop
  /-- PEER_LEASE_REQUEST (R484). A peer receives a translation lease request and grants handles or refuses. -/
  | peerLeaseRequest
  /-- PEER_LEASE_REPLY (R484). Granted handles arrive and the local tile map takes class-9 frame words. -/
  | peerLeaseReply
  /-- HANDLE_RECALL (R485). A peer recalls a handle before moving its frame, holders pausing then resuming. -/
  | handleRecall
  /-- PEER_ACCESS (R486). An access to a class-9 tile is performed at the peer's home slice. -/
  | peerAccess
  /-- FABRIC_TIMEOUT (R487). A fabric access without reply or hold notice within fab.tmo.us fails. -/
  | fabricTimeout
  /-- CREM_SECTOR_ARRIVE (R491). A CREM sector arrives at an inbound entry and is written, held or refused. -/
  | cremSectorArrive
  /-- CREM_ACK (R492). An acknowledgement or refusal of a CREM sector reaches the source. -/
  | cremAck
  /-- HOLD_NOTICE (R491). A target holding a sector for a saved group sends a hold notice each interval. -/
  | holdNotice
  /-- COLLECTIVE_RESULT (R494). The combined all-reduce result returns and is written back into the tile. -/
  | collectiveResult
  /-- RXW_WRITE (R490). Binds or unbinds an inbound entry to the group's window region. -/
  | rxwWrite
  /-- FGI_WRITE (R489). Configures an inbound entry, unbinding it when disabled or reassigned. -/
  | fgiWrite
  /-- NTF_WRITE (R456). Makes the writer the service's notification thread. -/
  | ntfWrite
  /-- BMX_CLR (R503). Clears every bank-matrix counter of a core. -/
  | bmxClr
  /-- ESC_RDX_WRITE (R509). Selects an escrow entry for reading through the escrow view. -/
  | escRdxWrite
  /-- DEVICE_RESET (R510). Package reset enters boot and the boot ROM verifies the firmware image. -/
  | deviceReset
  /-- FIRMWARE_VERIFY (R511). Verification accepts the image into load or sends the package to recovery. -/
  | firmwareVerify
  /-- LOAD_COMPLETE (R510). The bursar finishes loading fuses, training links and writing fab.id, and the package is ready. -/
  | loadComplete
  /-- BRS_STAT_UPD (R513). Starts verification and installation of the image at brs.img. -/
  | brsStatUpd
  /-- BRS_TUNE_WRITE (R515). Grants or withdraws consent to service tuning of links. -/
  | brsTuneWrite
  /-- ATT_CTL_GO (R517). Starts an attestation signature over the nonce and digests. -/
  | attCtlGo
  /-- ATT_SIGN_DONE (R517). The bursar writes the signature and sets att.ctl.ok. -/
  | attSignDone
  /-- DBG_STOP (R516). Asks the named thread to stop for the debug interface. -/
  | dbgStop
  /-- DBG_RELEASE (R516). Releases a stopped thread. -/
  | dbgRelease
  /-- DBG_SET_TRC_DBG (R516). Sets trc.dbg of the named thread. -/
  | dbgSetTrcDbg
  /-- DBG_CLEAR_TRC_DBG (R516). Clears trc.dbg of the named thread. -/
  | dbgClearTrcDbg
  /-- REGISTER_WRITE (R6). A write to a register without behaviour of its own sets its fields under their access codes. -/
  | registerWrite
  /-- REGISTER_READ (R6). A read of a device register whose RC fields clear in the same access, as esc.stat.hw, dl.stat.rtn, err.cnt and fgi.ref do. -/
  | registerRead
  /-- HOME_SLICE_WRITE (R233). A write-through store or L1 write-back reaches its home slice and is applied there, fixing its place in coherence order and making it visible. -/
  | homeSliceWrite
  /-- REMOTE_REQUEST_ARRIVE (R203). A posted remote scratchpad store or a remote Y-word operation reaches the named core and is performed at its bank or barrier object. -/
  | remoteRequestArrive
  /-- SCHEDULER_REPLY (R267). The scheduler's reply to LEXT arrives, writing the result code, possibly adding a range, and releasing the held front. -/
  | schedulerReply
  /-- SRAM_RAIL_SETTLED (R461). The die's SRAM rail reaches its new set point, so that re-encoding to normal service may begin, or economy and die.sram.mv take their new values. -/
  | sramRailSettled
  /-- LINK_REPLAY (R487). A fabric port's link layer detects a CRC failure and replays a flit, writing a class-5 error record. -/
  | linkReplay
  /-- HOST_STORE_ACK (R478). The host acknowledges a device store to a class-10 tile, which performs the store at every scope and frees waiting releases at .sys. -/
  | hostStoreAck
  /-- PEER_LEASE_RELEASE (R484). A peer receives the release of translation-lease handles and decrements each tile's tm.lc. -/
  | peerLeaseRelease
  deriving DecidableEq, Repr

end Sys2Proof
end

