-- ==== Sys2Proof/WellFormed.lean ====
section
/-!
DEFINITION. What makes an instruction word well formed: the values its fields may hold. `legal` is false exactly where
a field value is an ILLEGAL encoding by itself (02 R52, R43, R44, R45; 06 R152, R154; 07 R193; 11 R288; 13 R338; 15 R388;
16 R425); `portsOk` is false exactly where a register field reads a push port or writes a pop port (02 R48).
-/

namespace Sys2Proof

/-- A source field of the `s` file: not a push port (02 R48, 05 R122). -/
def sSrc (r : BitVec 5) : Bool := decide (r < 30)
/-- A destination field of the `s` file: not a pop port (02 R48, 05 R122). -/
def sDst (r : BitVec 5) : Bool := decide (r ≠ 28) && decide (r ≠ 29)
/-- A field both read and written, as MOVHI's d: no port at all (05 R130). -/
def sReg (r : BitVec 5) : Bool := decide (r < 28)
/-- A vector destination (06 R154): 28, 29 and 31 take QUEUE. -/
def vDst (r : BitVec 5) : Bool := decide (r < 28) || decide (r = 30)
/-- A vector source (06 R154): 30 takes QUEUE. -/
def vSrc (r : BitVec 5) : Bool := decide (r ≠ 30)
/-- A destination that the word also reads (06 R154). -/
def vReg (r : BitVec 5) : Bool := decide (r < 28)
/-- A scalar field of the `a` file: a29 and a31 are ILLEGAL in it (07 R193). -/
def aNum (r : BitVec 5) : Bool := decide (r ≠ 29) && decide (r ≠ 31)
/-- A source in the `a` file: a30 takes QUEUE (07 R193). -/
def aSrc (r : BitVec 5) : Bool := decide (r ≠ 30)
/-- A destination in the `a` file: a28 takes QUEUE (07 R193). -/
def aDst (r : BitVec 5) : Bool := decide (r ≠ 28)
/-- AMOVHI's d, read and written: a port takes QUEUE (07 R194). -/
def aReg (r : BitVec 5) : Bool := decide (r ≠ 28) && decide (r ≠ 30)
/-- d of AMO and of non-cas AMOS: 28 to 30 take QUEUE (11 R288). -/
def aRw (r : BitVec 5) : Bool := decide (r < 28) || decide (r = 31)
/-- d of AMOC and cas AMOS: even, 2 to 26 (11 R288). -/
def evenPair (r : BitVec 5) : Bool := decide (2 ≤ r) && decide (r ≤ 26) && decide (r.toNat % 2 = 0)
/-- A vector field of a load: 28 to 30 are numbers with a meaning, of which 30 has the wrong direction (07 R193). -/
def qLoadNum (r : BitVec 5) : Bool := decide (28 ≤ r) && decide (r ≤ 30)
/-- A vector field of a load pushes `lq0` or `lq1`; 30 takes QUEUE (07 R193). -/
def qLoad (r : BitVec 5) : Bool := decide (r ≠ 30)
/-- Scope codes 6 and 7 are reserved (02 R44). -/
def scopeOk (s : BitVec 3) : Bool := decide (s ≤ 5)
/-- A tensor endpoint field names s4, s8, … s24 (02 R45). -/
def endpoint (r : BitVec 5) : Bool := decide (4 ≤ r) && decide (r ≤ 24) && decide (r.toNat % 4 = 0)
/-- Type set INT (06 Table 6.2). -/
def tInt (t : BitVec 4) : Bool := decide (t ≤ 5)
/-- Type set SINT (06 Table 6.2). -/
def tSint (t : BitVec 4) : Bool := decide (t ≤ 2)
/-- Type set FLT (06 Table 6.2). -/
def tFlt (t : BitVec 4) : Bool := decide (6 ≤ t) && decide (t ≤ 8)
/-- Type set NUM (06 Table 6.2). -/
def tNum (t : BitVec 4) : Bool := decide (t ≤ 8)
/-- Type set ANY8 (06 Table 6.2). -/
def tAny8 (t : BitVec 4) : Bool := decide (t ≤ 10)
/-- Type set ANY (06 Table 6.2). -/
def tAny (t : BitVec 4) : Bool := decide (t ≤ 11)
/-- Types of the matrix words (15 R388): 0, 3, 8, 9, 10, 11. -/
def tMat (t : BitVec 4) : Bool := decide (t = 0) || decide (t = 3) || (decide (8 ≤ t) && decide (t ≤ 11))
/-- VCVT's `.sat`: both types integer or both float (06 R165). -/
def cvtSatOk (sat : BitVec 1) (s t : BitVec 4) : Bool :=
  decide (sat = 0) || (tInt s && tInt t) || (decide (6 ≤ s) && decide (6 ≤ t))
/-- Reduction codes and the types each admits (06 Table 6.6). -/
def redTypeOk (p : BitVec 3) (t : BitVec 4) : Bool :=
  (decide (p ≤ 2) && tNum t) || (decide (3 ≤ p) && decide (p ≤ 5) && tInt t)
/-- Conversion codes that admit `.sat` (13 R333). -/
def convSat (v : BitVec 4) : Bool :=
  decide (v = 1) || decide (v = 2) || (decide (5 ≤ v) && decide (v ≤ 8))
/-- The CSR addresses that some chapter assigns (16 R425). -/
def csrAssigned (c : BitVec 12) : Bool :=
  (decide (0x010 ≤ c) && decide (c ≤ 0x022)) || (decide (0x030 ≤ c) && decide (c ≤ 0x035)) ||
  (decide (0x040 ≤ c) && decide (c ≤ 0x04A)) || (decide (0x050 ≤ c) && decide (c ≤ 0x056)) || decide (c = 0x058)

/-- The field values by themselves are no ILLEGAL encoding (02 R52). -/
def Instr.legal : Instr → Bool
  | .add _ _ _ => true
  | .sub _ _ _ => true
  | .mul _ _ _ => true
  | .mulh _ _ _ => true
  | .mulhn _ _ _ => true
  | .div _ _ _ => true
  | .divn _ _ _ => true
  | .rem _ _ _ => true
  | .remn _ _ _ => true
  | .and _ _ _ => true
  | .or _ _ _ => true
  | .xor _ _ _ => true
  | .shl _ _ _ => true
  | .shr _ _ _ => true
  | .sra _ _ _ => true
  | .slt _ _ _ => true
  | .sltn _ _ _ => true
  | .seq _ _ _ => true
  | .min _ _ _ => true
  | .minn _ _ _ => true
  | .max _ _ _ => true
  | .maxn _ _ _ => true
  | .clz _ _ => true
  | .ctz _ _ => true
  | .popc _ _ => true
  | .wfld _ _ k => decide (k ≤ 5)
  | .addi _ _ _ _ => true
  | .andi _ _ _ _ => true
  | .ori _ _ _ _ => true
  | .xori _ _ _ _ => true
  | .shli _ _ _ => true
  | .shri _ _ _ => true
  | .srai _ _ _ => true
  | .slti _ _ _ _ => true
  | .movi _ _ _ => true
  | .movhi _ _ _ => true
  | .sel _ _ _ _ => true
  | .beq _ _ _ _ => true
  | .bne _ _ _ _ => true
  | .blt _ _ _ _ => true
  | .bge _ _ _ _ => true
  | .bltn _ _ _ _ => true
  | .bgen _ _ _ _ => true
  | .jmp _ _ => true
  | .call _ _ => true
  | .jr _ _ _ => true
  | .callr _ _ _ => true
  | .loop _ l => decide (1 ≤ l) && decide (l ≤ 64)
  | .loopi _ l => decide (1 ≤ l) && decide (l ≤ 64)
  | .loops _ _ _ _ => true
  | .lexit _ _ _ => true
  | .lcnt _ _ _ => true
  | .nop => true
  | .trap _ => true
  | .rft => true
  | .brk _ => true
  | .csrr _ c => csrAssigned c
  | .csrw _ c => csrAssigned c
  | .csrx _ _ c => csrAssigned c
  | .csrs _ _ c => csrAssigned c
  | .csrc _ _ c => csrAssigned c
  | .exit => true
  | .yield => true
  | .sleep _ _ => true
  | .prio _ _ _ => true
  | .esync => true
  | .spawn _ _ _ => true
  | .flease _ _ _ _ => true
  | .fret _ => true
  | .draw _ _ _ => true
  | .dret _ _ => true
  | .mark _ _ => true
  | .capr _ _ => true
  | .lext _ _ _ => true
  | .fencei => true
  | .halt => true
  | .limm _ => true
  | .vadd _ _ _ t _ _ => tNum t
  | .vsub _ _ _ t _ _ => tNum t
  | .vmul _ _ _ t _ _ => tNum t
  | .vmulh _ _ _ t _ => tInt t
  | .vfma _ _ _ t _ => tNum t
  | .vfms _ _ _ t _ => tNum t
  | .vfnm _ _ _ t _ => tNum t
  | .vmin _ _ _ t _ => tNum t
  | .vmax _ _ _ t _ => tNum t
  | .vabs _ _ t _ x => (tSint t || (tFlt t && x == 0))
  | .vneg _ _ t _ x => (tSint t || (tFlt t && x == 0))
  | .vdiv _ _ _ t _ => tFlt t
  | .vsqrt _ _ t _ => tFlt t
  | .vrcp _ _ t _ _ => tFlt t
  | .vrsq _ _ t _ _ => tFlt t
  | .vexp2 _ _ t _ _ => tFlt t
  | .vlog2 _ _ t _ _ => tFlt t
  | .vand _ _ _ t _ => tAny t
  | .vor _ _ _ t _ => tAny t
  | .vxor _ _ _ t _ => tAny t
  | .vnot _ _ t _ => tAny t
  | .vshl _ _ _ t _ => tInt t
  | .vshr _ _ _ t _ => tInt t
  | .vsra _ _ _ t _ => tInt t
  | .vcmpeq d _ _ t _ _ => tNum t && decide (d ≠ 0)
  | .vcmplt d _ _ t _ _ => tNum t && decide (d ≠ 0)
  | .vcmple d _ _ t _ _ => tNum t && decide (d ≠ 0)
  | .vcmpun d _ _ t _ _ => tFlt t && decide (d ≠ 0)
  | .vsel _ _ _ t _ => tAny t
  | .vcvt _ _ s c t _ r => tAny t && tAny c && cvtSatOk s c t && (decide (r = 0) || decide (6 ≤ t))
  | .vqblk d _ b t => tFlt t && vReg b && decide (b ≠ d)
  | .vdqblk _ _ _ t _ => tFlt t
  | .vred _ _ p t _ => redTypeOk p t
  | .vscan _ _ p t _ => redTypeOk p t
  | .vperm _ _ _ t _ _ => tAny8 t
  | .vrot _ _ _ t _ => tAny t
  | .vzip _ _ _ t _ _ => tAny t
  | .vunzip _ _ _ t _ _ => tAny t
  | .vbcst _ _ _ t _ => tAny t
  | .viota _ t _ => tInt t
  | .vmovi _ _ _ => true
  | .vdot4 _ _ _ t _ x => (decide (t = 0) || decide (t = 3) || ((decide (t = 9) || decide (t = 10)) && x == 0))
  | .vdot2 _ _ _ t _ x => (decide (t = 1) || decide (t = 4) || ((decide (t = 7) || decide (t = 8)) && x == 0))
  | .mlog d _ _ _ _ _ => decide (d ≠ 0)
  | .mpop _ _ _ => true
  | .mfirst _ _ _ => true
  | .vtos _ _ => true
  | .vtoa _ => true
  | .vmov _ _ t _ => tAny t
  | .vwait => true
  | .vclass _ _ t _ => tFlt t
  | .vclz _ _ t _ => tInt t
  | .vpopc _ _ t _ => tInt t
  | .aadd d a b => aNum d && aNum a && aNum b
  | .asub d a b => aNum d && aNum a && aNum b
  | .amul d a b => aNum d && aNum a && aNum b
  | .ashl d a b => aNum d && aNum a && aNum b
  | .ashr d a b => aNum d && aNum a && aNum b
  | .aand d a b => aNum d && aNum a && aNum b
  | .aor d a b => aNum d && aNum a && aNum b
  | .aaddi d a _ _ => aNum d && aNum a
  | .amovi d _ _ => aNum d
  | .amovhi d _ _ => aNum d
  | .lds d a _ _ => aNum d && aNum a
  | .sts d a _ _ => aNum d && aNum a
  | .ldv d a _ _ => aNum a && qLoadNum d
  | .stv a _ _ => aNum a
  | .ldvs d a b _ => aNum a && aNum b && qLoadNum d
  | .stvs a b _ => aNum a && aNum b
  | .ldg d a _ => aNum a && qLoadNum d
  | .stg a _ => aNum a
  | .ldt d a _ _ => aNum a && qLoadNum d
  | .stt a _ _ => aNum a
  | .kset _ a p => aNum a && decide (p ≤ 2)
  | .kadd _ _ _ => true
  | .kaddi _ _ _ j _ => decide (j ≤ 5)
  | .kclr _ => true
  | .tld d a _ _ _ => aNum d && aNum a
  | .tst d a _ s _ => aNum d && aNum a && scopeOk s
  | .tldv d a _ => aNum a && qLoadNum d
  | .tstv a _ s => aNum a && scopeOk s
  | .tldg d a _ j => aNum a && qLoadNum d && decide (j ≤ 5)
  | .tstg a _ s j => aNum a && scopeOk s && decide (j ≤ 5)
  | .tpf a _ _ => decide (a < 28)
  | .ttreg a _ => aNum a
  | .ttrel _ => true
  | .ttstat d _ => aNum d
  | .binit d a _ => aNum d && aNum a
  | .breg a _ => aNum a
  | .barv d a s _ => aNum d && aNum a && scopeOk s
  | .bard d a s _ => aNum d && aNum a && scopeOk s
  | .bexp d a b s _ => aNum d && aNum a && aNum b && scopeOk s
  | .bwait d a s _ => aNum d && aNum a && scopeOk s
  | .btest d a s _ => aNum d && aNum a && scopeOk s
  | .ldf d a s _ => aNum d && aNum a && scopeOk s
  | .ldfe d a s _ => aNum d && aNum a && scopeOk s
  | .stef d a s _ => aNum d && aNum a && scopeOk s
  | .stf d a s _ => aNum d && aNum a && scopeOk s
  | .feset _ a _ => aNum a
  | .tready _ => true
  | .tempty _ => true
  | .twait _ _ => true
  | .ldaq d a _ s _ => aNum d && aNum a && scopeOk s
  | .strl d a _ s _ => aNum d && aNum a && scopeOk s
  | .ldaqs d a b s _ => aNum d && aNum a && aNum b && scopeOk s
  | .strls d a b s _ => aNum d && aNum a && aNum b && scopeOk s
  | .fence s k => scopeOk s && decide (k ≠ 0)
  | .amo d a _ _ s p => aNum a && scopeOk s && decide (p ≤ 0x16) && decide (d ≠ 31)
  | .amoc d a _ _ s _ => aNum a && scopeOk s && evenPair d
  | .red d a r _ s p => aNum d && aNum a && scopeOk s && decide (p ≤ 0x14) && (decide (r = 0) || decide (r = 2))
  | .redv a r _ s _ => aNum a && scopeOk s && (decide (r = 0) || decide (r = 2))
  | .amos d a b s p => aNum a && aNum b && scopeOk s && (decide (p ≤ 0x16) || decide (p = 0x18) || decide (p = 0x19)) && (if 0x18 ≤ p then evenPair d else decide (d ≠ 31))
  | .mnest _ _ l => decide (l ≤ 5)
  | .mbody _ => true
  | .mgo _ _ => true
  | .msel _ => true
  | .mconf m => decide (m ≠ 3)
  | .mclm _ _ _ => true
  | .mrel _ _ _ => true
  | .mldb _ g _ _ t => tMat t && decide (g ≠ 3)
  | .mmma _ g _ _ t => tMat t && decide (g ≠ 3)
  | .mmms _ g _ _ t => tMat t && decide (g ≠ 3)
  | .mmmc _ _ g _ _ t => tMat t && decide (g ≠ 3)
  | .mzacc g b h => decide (g ≠ 3) && (decide (b = 0) || decide (h = 0))
  | .mdrn d _ _ g _ _ t => endpoint d && decide (t ≤ 12) && decide (g ≠ 3)
  | .mdrc _ _ g _ _ t => tMat t && decide (g ≠ 3)
  | .mamax _ g _ => decide (g ≠ 3)
  | .mmqclr => true
  | .cnest _ _ _ _ => true
  | .ccpy d a _ _ v _ s => endpoint d && endpoint a && decide (v ≤ 13) && (decide (s = 0) || convSat v)
  | .cst d a _ _ v _ s => endpoint d && endpoint a && decide (v ≤ 10) && (decide (s = 0) || convSat v)
  | .ccpys d a _ _ v _ s => endpoint d && endpoint a && decide (v ≤ 10) && (decide (s = 0) || convSat v)
  | .cmc d a _ _ v _ s => endpoint d && endpoint a && decide (v ≤ 13) && (decide (s = 0) || convSat v)
  | .cgth d a _ _ v _ s => endpoint d && endpoint a && decide (v ≤ 13) && (decide (s = 0) || convSat v)
  | .copf _ a _ _ v _ s => endpoint a && decide (v ≤ 13) && (decide (s = 0) || convSat v)
  | .cmeta _ a _ _ _ => endpoint a
  | .cred d a _ _ p _ => endpoint d && endpoint a && decide (p ≤ 5)
  | .cset d _ _ _ _ => endpoint d
  | .crem d a _ _ v _ s => endpoint d && endpoint a && decide (v ≤ 13) && (decide (s = 0) || convSat v)
  | .cpro d _ _ _ _ => endpoint d
  | .vResultLand => true
  | .copyCommandStart => true
  | .sectorLands => true
  | .copyCommandComplete => true
  | .takeTrap => true
  | .waitTimeout => true
  | .vStallTimeout => true
  | .escrowWaitTimeout => true
  | .linkstall => true
  | .sleepExpiry => true
  | .loadDataArrive => true
  | .inheritMessage => true
  | .atomicApply => true
  | .slicePeriod => true
  | .urgentPromotion => true
  | .tellerGrant => true
  | .stripRundownEnd => true
  | .stripScrubComplete => true
  | .fragmentSaveComplete => true
  | .nestComplete => true
  | .lnqTailWrite => true
  | .gangAccept => true
  | .recordFinish => true
  | .leaseMapped => true
  | .gangStart => true
  | .clearingComplete => true
  | .preemptGang => true
  | .gangSaveComplete => true
  | .gangRestore => true
  | .checkerMismatch => true
  | .residueMismatch => true
  | .taskDiscard => true
  | .scrubLine => true
  | .tileFetch => true
  | .fetchComplete => true
  | .escrowApply => true
  | .deferredAppend => true
  | .hwFramePut => true
  | .drawerSlotSend => true
  | .drawerReadReturn => true
  | .drawerWriteComplete => true
  | .dlEnable => true
  | .dlDisable => true
  | .dlRetrain => true
  | .lanesLocked => true
  | .lockLoss => true
  | .trainingTimeout => true
  | .tuningTimeout => true
  | .phOwnWrite => true
  | .allowancePeriod => true
  | .leaveGrant => true
  | .leaveAgeing => true
  | .leaveSettle => true
  | .activityPeriod => true
  | .dieSramWrite => true
  | .eccModeChangeDone => true
  | .cluOpWrite => true
  | .opPointChange => true
  | .svcCtlWrite => true
  | .svcTinvWrite => true
  | .nfPut => true
  | .nfDrop => true
  | .nfBaseWrite => true
  | .hostMemRead => true
  | .hostMemWrite => true
  | .hostSnoop => true
  | .peerLeaseRequest => true
  | .peerLeaseReply => true
  | .handleRecall => true
  | .peerAccess => true
  | .fabricTimeout => true
  | .cremSectorArrive => true
  | .cremAck => true
  | .holdNotice => true
  | .collectiveResult => true
  | .rxwWrite => true
  | .fgiWrite => true
  | .ntfWrite => true
  | .bmxClr => true
  | .escRdxWrite => true
  | .deviceReset => true
  | .firmwareVerify => true
  | .loadComplete => true
  | .brsStatUpd => true
  | .brsTuneWrite => true
  | .attCtlGo => true
  | .attSignDone => true
  | .dbgStop => true
  | .dbgRelease => true
  | .dbgSetTrcDbg => true
  | .dbgClearTrcDbg => true
  | .registerWrite => true
  | .registerRead => true
  | .homeSliceWrite => true
  | .remoteRequestArrive => true
  | .schedulerReply => true
  | .sramRailSettled => true
  | .linkReplay => true
  | .hostStoreAck => true
  | .peerLeaseRelease => true

/-- No register field reads a push port or writes a pop port (02 R48). -/
def Instr.portsOk : Instr → Bool
  | .add d a b => sDst d && sSrc a && sSrc b
  | .sub d a b => sDst d && sSrc a && sSrc b
  | .mul d a b => sDst d && sSrc a && sSrc b
  | .mulh d a b => sDst d && sSrc a && sSrc b
  | .mulhn d a b => sDst d && sSrc a && sSrc b
  | .div d a b => sDst d && sSrc a && sSrc b
  | .divn d a b => sDst d && sSrc a && sSrc b
  | .rem d a b => sDst d && sSrc a && sSrc b
  | .remn d a b => sDst d && sSrc a && sSrc b
  | .and d a b => sDst d && sSrc a && sSrc b
  | .or d a b => sDst d && sSrc a && sSrc b
  | .xor d a b => sDst d && sSrc a && sSrc b
  | .shl d a b => sDst d && sSrc a && sSrc b
  | .shr d a b => sDst d && sSrc a && sSrc b
  | .sra d a b => sDst d && sSrc a && sSrc b
  | .slt d a b => sDst d && sSrc a && sSrc b
  | .sltn d a b => sDst d && sSrc a && sSrc b
  | .seq d a b => sDst d && sSrc a && sSrc b
  | .min d a b => sDst d && sSrc a && sSrc b
  | .minn d a b => sDst d && sSrc a && sSrc b
  | .max d a b => sDst d && sSrc a && sSrc b
  | .maxn d a b => sDst d && sSrc a && sSrc b
  | .clz d a => sDst d && sSrc a
  | .ctz d a => sDst d && sSrc a
  | .popc d a => sDst d && sSrc a
  | .wfld d a _ => sDst d && sSrc a
  | .addi d a _ _ => sDst d && sSrc a
  | .andi d a _ _ => sDst d && sSrc a
  | .ori d a _ _ => sDst d && sSrc a
  | .xori d a _ _ => sDst d && sSrc a
  | .shli d a _ => sDst d && sSrc a
  | .shri d a _ => sDst d && sSrc a
  | .srai d a _ => sDst d && sSrc a
  | .slti d a _ _ => sDst d && sSrc a
  | .movi d _ _ => sDst d
  | .movhi d _ _ => sReg d
  | .sel d a b c => sDst d && sSrc a && sSrc b && sSrc c
  | .beq a b _ _ => sSrc a && sSrc b
  | .bne a b _ _ => sSrc a && sSrc b
  | .blt a b _ _ => sSrc a && sSrc b
  | .bge a b _ _ => sSrc a && sSrc b
  | .bltn a b _ _ => sSrc a && sSrc b
  | .bgen a b _ _ => sSrc a && sSrc b
  | .jmp _ _ => true
  | .call _ _ => true
  | .jr a _ _ => sSrc a
  | .callr a _ _ => sSrc a
  | .loop a _ => sSrc a
  | .loopi _ _ => true
  | .loops a b _ _ => sSrc a && sSrc b
  | .lexit a _ _ => sSrc a
  | .lcnt d _ _ => sDst d
  | .nop => true
  | .trap _ => true
  | .rft => true
  | .brk _ => true
  | .csrr d _ => sDst d
  | .csrw a _ => sSrc a
  | .csrx d a _ => sDst d && sSrc a
  | .csrs d a _ => sDst d && sSrc a
  | .csrc d a _ => sDst d && sSrc a
  | .exit => true
  | .yield => true
  | .sleep a _ => sSrc a
  | .prio d a _ => sDst d && sSrc a
  | .esync => true
  | .spawn d a b => sDst d && sSrc a && sSrc b
  | .flease d _ _ _ => sDst d
  | .fret d => sDst d
  | .draw d a _ => sDst d && sSrc a
  | .dret d a => sDst d && sSrc a
  | .mark a _ => sSrc a
  | .capr d a => sDst d && sSrc a
  | .lext d a b => sDst d && sSrc a && sSrc b
  | .fencei => true
  | .halt => true
  | .limm _ => true
  | .vadd d a b _ _ _ => vDst d && vSrc a && vSrc b
  | .vsub d a b _ _ _ => vDst d && vSrc a && vSrc b
  | .vmul d a b _ _ _ => vDst d && vSrc a && vSrc b
  | .vmulh d a b _ _ => vDst d && vSrc a && vSrc b
  | .vfma d a b _ _ => vReg d && vSrc a && vSrc b
  | .vfms d a b _ _ => vReg d && vSrc a && vSrc b
  | .vfnm d a b _ _ => vReg d && vSrc a && vSrc b
  | .vmin d a b _ _ => vDst d && vSrc a && vSrc b
  | .vmax d a b _ _ => vDst d && vSrc a && vSrc b
  | .vabs d a _ _ _ => vDst d && vSrc a
  | .vneg d a _ _ _ => vDst d && vSrc a
  | .vdiv d a b _ _ => vDst d && vSrc a && vSrc b
  | .vsqrt d a _ _ => vDst d && vSrc a
  | .vrcp d a _ _ _ => vDst d && vSrc a
  | .vrsq d a _ _ _ => vDst d && vSrc a
  | .vexp2 d a _ _ _ => vDst d && vSrc a
  | .vlog2 d a _ _ _ => vDst d && vSrc a
  | .vand d a b _ _ => vDst d && vSrc a && vSrc b
  | .vor d a b _ _ => vDst d && vSrc a && vSrc b
  | .vxor d a b _ _ => vDst d && vSrc a && vSrc b
  | .vnot d a _ _ => vDst d && vSrc a
  | .vshl d a b _ _ => vDst d && vSrc a && vSrc b
  | .vshr d a b _ _ => vDst d && vSrc a && vSrc b
  | .vsra d a b _ _ => vDst d && vSrc a && vSrc b
  | .vcmpeq _ a b _ _ _ => vSrc a && vSrc b
  | .vcmplt _ a b _ _ _ => vSrc a && vSrc b
  | .vcmple _ a b _ _ _ => vSrc a && vSrc b
  | .vcmpun _ a b _ _ _ => vSrc a && vSrc b
  | .vsel d a b _ _ => vDst d && vSrc a && vSrc b
  | .vcvt d a _ _ _ _ _ => vDst d && vSrc a
  | .vqblk d a _ _ => vDst d && vSrc a
  | .vdqblk d a b _ _ => vDst d && vSrc a && vSrc b
  | .vred d a _ _ _ => vDst d && vSrc a
  | .vscan d a _ _ _ => vDst d && vSrc a
  | .vperm d a b _ _ _ => vDst d && vSrc a && vSrc b
  | .vrot d a b _ _ => vDst d && vSrc a && vSrc b
  | .vzip d a b _ _ _ => vDst d && vSrc a && vSrc b
  | .vunzip d a b _ _ _ => vDst d && vSrc a && vSrc b
  | .vbcst d a b _ _ => vDst d && vSrc a && vSrc b
  | .viota d _ _ => vDst d
  | .vmovi d _ _ => vDst d
  | .vdot4 d a b _ _ _ => vReg d && vSrc a && vSrc b
  | .vdot2 d a b _ _ _ => vReg d && vSrc a && vSrc b
  | .mlog _ _ _ _ _ _ => true
  | .mpop d _ _ => vDst d
  | .mfirst d _ _ => vDst d
  | .vtos a _ => vSrc a
  | .vtoa a => vSrc a
  | .vmov d a _ _ => vDst d && vSrc a
  | .vwait => true
  | .vclass d a _ _ => vDst d && vSrc a
  | .vclz d a _ _ => vDst d && vSrc a
  | .vpopc d a _ _ => vDst d && vSrc a
  | .aadd d a b => aDst d && aSrc a && aSrc b
  | .asub d a b => aDst d && aSrc a && aSrc b
  | .amul d a b => aDst d && aSrc a && aSrc b
  | .ashl d a b => aDst d && aSrc a && aSrc b
  | .ashr d a b => aDst d && aSrc a && aSrc b
  | .aand d a b => aDst d && aSrc a && aSrc b
  | .aor d a b => aDst d && aSrc a && aSrc b
  | .aaddi d a _ _ => aDst d && aSrc a
  | .amovi d _ _ => aDst d
  | .amovhi d _ _ => aReg d
  | .lds d a _ _ => aDst d && aSrc a
  | .sts d a _ _ => aSrc d && aSrc a
  | .ldv d a _ _ => aSrc a && qLoad d
  | .stv a _ _ => aSrc a
  | .ldvs d a b _ => aSrc a && aSrc b && qLoad d
  | .stvs a b _ => aSrc a && aSrc b
  | .ldg d a _ => aSrc a && qLoad d
  | .stg a _ => aSrc a
  | .ldt d a _ _ => aSrc a && qLoad d
  | .stt a _ _ => aSrc a
  | .kset _ a _ => aSrc a
  | .kadd _ _ _ => true
  | .kaddi _ _ _ _ _ => true
  | .kclr _ => true
  | .tld d a _ _ _ => aDst d && aSrc a
  | .tst d a _ _ _ => aSrc d && aSrc a
  | .tldv d a _ => aSrc a && qLoad d
  | .tstv a _ _ => aSrc a
  | .tldg d a _ _ => aSrc a && qLoad d
  | .tstg a _ _ _ => aSrc a
  | .tpf _ _ _ => true
  | .ttreg a _ => aSrc a
  | .ttrel _ => true
  | .ttstat d _ => aDst d
  | .binit d a _ => aSrc d && aSrc a
  | .breg a _ => aSrc a
  | .barv d a _ _ => aDst d && aSrc a
  | .bard d a _ _ => aDst d && aSrc a
  | .bexp d a b _ _ => aDst d && aSrc a && aSrc b
  | .bwait d a _ _ => aSrc d && aSrc a
  | .btest d a _ _ => aDst d && aSrc a
  | .ldf d a _ _ => aDst d && aSrc a
  | .ldfe d a _ _ => aDst d && aSrc a
  | .stef d a _ _ => aSrc d && aSrc a
  | .stf d a _ _ => aSrc d && aSrc a
  | .feset _ a _ => aSrc a
  | .tready _ => true
  | .tempty _ => true
  | .twait _ _ => true
  | .ldaq d a _ _ _ => aDst d && aSrc a
  | .strl d a _ _ _ => aSrc d && aSrc a
  | .ldaqs d a b _ _ => aDst d && aSrc a && aSrc b
  | .strls d a b _ _ => aSrc d && aSrc a && aSrc b
  | .fence _ _ => true
  | .amo d a _ _ _ _ => aSrc a && aRw d
  | .amoc _ a _ _ _ _ => aSrc a
  | .red d a _ _ _ _ => aSrc d && aSrc a
  | .redv a _ _ _ _ => aSrc a
  | .amos d a b _ p => aSrc a && aSrc b && (decide (0x18 ≤ p) || aRw d)
  | .mnest a b _ => sSrc a && sSrc b
  | .mbody _ => true
  | .mgo a b => sSrc a && sSrc b
  | .msel _ => true
  | .mconf _ => true
  | .mclm _ _ _ => true
  | .mrel _ _ _ => true
  | .mldb d _ _ _ _ => sSrc d
  | .mmma d _ _ _ _ => sSrc d
  | .mmms d _ _ _ _ => sSrc d
  | .mmmc d a _ _ _ _ => sSrc d && sSrc a
  | .mzacc _ _ _ => true
  | .mdrn _ a b _ _ _ _ => sSrc a && sSrc b
  | .mdrc d b _ _ _ _ => sSrc d && sSrc b
  | .mamax a _ _ => sSrc a
  | .mmqclr => true
  | .cnest d a b _ => sSrc d && sSrc a && sSrc b
  | .ccpy _ _ b _ _ _ _ => sSrc b
  | .cst _ _ b _ _ _ _ => sSrc b
  | .ccpys _ _ b _ _ _ _ => sSrc b
  | .cmc _ _ b _ _ _ _ => sSrc b
  | .cgth _ _ b _ _ _ _ => sSrc b
  | .copf d _ b _ _ _ _ => sSrc d && sSrc b
  | .cmeta d _ b _ _ => sSrc d && sSrc b
  | .cred _ _ b _ _ _ => sSrc b
  | .cset _ a b _ _ => sSrc a && sSrc b
  | .crem _ _ b _ _ _ _ => sSrc b
  | .cpro _ a b _ _ => sSrc a && sSrc b
  | .vResultLand => true
  | .copyCommandStart => true
  | .sectorLands => true
  | .copyCommandComplete => true
  | .takeTrap => true
  | .waitTimeout => true
  | .vStallTimeout => true
  | .escrowWaitTimeout => true
  | .linkstall => true
  | .sleepExpiry => true
  | .loadDataArrive => true
  | .inheritMessage => true
  | .atomicApply => true
  | .slicePeriod => true
  | .urgentPromotion => true
  | .tellerGrant => true
  | .stripRundownEnd => true
  | .stripScrubComplete => true
  | .fragmentSaveComplete => true
  | .nestComplete => true
  | .lnqTailWrite => true
  | .gangAccept => true
  | .recordFinish => true
  | .leaseMapped => true
  | .gangStart => true
  | .clearingComplete => true
  | .preemptGang => true
  | .gangSaveComplete => true
  | .gangRestore => true
  | .checkerMismatch => true
  | .residueMismatch => true
  | .taskDiscard => true
  | .scrubLine => true
  | .tileFetch => true
  | .fetchComplete => true
  | .escrowApply => true
  | .deferredAppend => true
  | .hwFramePut => true
  | .drawerSlotSend => true
  | .drawerReadReturn => true
  | .drawerWriteComplete => true
  | .dlEnable => true
  | .dlDisable => true
  | .dlRetrain => true
  | .lanesLocked => true
  | .lockLoss => true
  | .trainingTimeout => true
  | .tuningTimeout => true
  | .phOwnWrite => true
  | .allowancePeriod => true
  | .leaveGrant => true
  | .leaveAgeing => true
  | .leaveSettle => true
  | .activityPeriod => true
  | .dieSramWrite => true
  | .eccModeChangeDone => true
  | .cluOpWrite => true
  | .opPointChange => true
  | .svcCtlWrite => true
  | .svcTinvWrite => true
  | .nfPut => true
  | .nfDrop => true
  | .nfBaseWrite => true
  | .hostMemRead => true
  | .hostMemWrite => true
  | .hostSnoop => true
  | .peerLeaseRequest => true
  | .peerLeaseReply => true
  | .handleRecall => true
  | .peerAccess => true
  | .fabricTimeout => true
  | .cremSectorArrive => true
  | .cremAck => true
  | .holdNotice => true
  | .collectiveResult => true
  | .rxwWrite => true
  | .fgiWrite => true
  | .ntfWrite => true
  | .bmxClr => true
  | .escRdxWrite => true
  | .deviceReset => true
  | .firmwareVerify => true
  | .loadComplete => true
  | .brsStatUpd => true
  | .brsTuneWrite => true
  | .attCtlGo => true
  | .attSignDone => true
  | .dbgStop => true
  | .dbgRelease => true
  | .dbgSetTrcDbg => true
  | .dbgClearTrcDbg => true
  | .registerWrite => true
  | .registerRead => true
  | .homeSliceWrite => true
  | .remoteRequestArrive => true
  | .schedulerReply => true
  | .sramRailSettled => true
  | .linkReplay => true
  | .hostStoreAck => true
  | .peerLeaseRelease => true

/-- A well-formed instruction: the front's decode takes no trap at it, whatever the state (02 R48, R52). -/
def Instr.wellFormed (i : Instr) : Bool := i.legal && i.portsOk

end Sys2Proof
end

