-- ==== Sys2Proof/Decode.lean ====
section
/-!
DEFINITION. The front's decoder and an encoder (02 R34, R41, R49-R54). `decodeRow` finds the row of the opcode map
whose fixed bits a word carries, `decode` adds the checks of field values (R52), of prefixes (R50, R51) and of ports
(R48) in the order of R53. `encodeWord` is written from the same encoding tables.
-/

namespace Sys2Proof

/-- Why the front's decoder refuses a word (02 R53). -/
inductive DecErr where
  /-- ILLEGAL: 02 R51 and R52. -/
  | illegal
  /-- QUEUE: 02 R48. -/
  | queue
  deriving DecidableEq, Repr

/-- `n` bits of a word from bit `lo` (00 R8 pseudocode `x[hi:lo]`). -/
def bits (w : BitVec 32) (lo n : Nat) : BitVec n := w.extractLsb' lo n

/-- The rows of engine 0 (02 Tables 2.8 to 2.14), by opcode. -/
def decodeRowS (w : BitVec 32) : Option Instr :=
  match (bits w 23 6).toNat with
  | 0x00 => if bits w 0 8 = 0 then some (.add (bits w 18 5) (bits w 13 5) (bits w 8 5)) else none
  | 0x01 => if bits w 0 8 = 0 then some (.sub (bits w 18 5) (bits w 13 5) (bits w 8 5)) else none
  | 0x02 => if bits w 0 8 = 0 then some (.mul (bits w 18 5) (bits w 13 5) (bits w 8 5)) else none
  | 0x03 => if bits w 0 8 = 0 then some (.mulh (bits w 18 5) (bits w 13 5) (bits w 8 5)) else if bits w 0 8 = 0x1 then some (.mulhn (bits w 18 5) (bits w 13 5) (bits w 8 5)) else none
  | 0x04 => if bits w 0 8 = 0 then some (.div (bits w 18 5) (bits w 13 5) (bits w 8 5)) else if bits w 0 8 = 0x1 then some (.divn (bits w 18 5) (bits w 13 5) (bits w 8 5)) else none
  | 0x05 => if bits w 0 8 = 0 then some (.rem (bits w 18 5) (bits w 13 5) (bits w 8 5)) else if bits w 0 8 = 0x1 then some (.remn (bits w 18 5) (bits w 13 5) (bits w 8 5)) else none
  | 0x06 => if bits w 0 8 = 0 then some (.and (bits w 18 5) (bits w 13 5) (bits w 8 5)) else none
  | 0x07 => if bits w 0 8 = 0 then some (.or (bits w 18 5) (bits w 13 5) (bits w 8 5)) else none
  | 0x08 => if bits w 0 8 = 0 then some (.xor (bits w 18 5) (bits w 13 5) (bits w 8 5)) else none
  | 0x09 => if bits w 0 8 = 0 then some (.shl (bits w 18 5) (bits w 13 5) (bits w 8 5)) else none
  | 0x0a => if bits w 0 8 = 0 then some (.shr (bits w 18 5) (bits w 13 5) (bits w 8 5)) else none
  | 0x0b => if bits w 0 8 = 0 then some (.sra (bits w 18 5) (bits w 13 5) (bits w 8 5)) else none
  | 0x0c => if bits w 0 8 = 0 then some (.slt (bits w 18 5) (bits w 13 5) (bits w 8 5)) else if bits w 0 8 = 0x1 then some (.sltn (bits w 18 5) (bits w 13 5) (bits w 8 5)) else none
  | 0x0d => if bits w 0 8 = 0 then some (.seq (bits w 18 5) (bits w 13 5) (bits w 8 5)) else none
  | 0x0e => if bits w 0 8 = 0 then some (.min (bits w 18 5) (bits w 13 5) (bits w 8 5)) else if bits w 0 8 = 0x1 then some (.minn (bits w 18 5) (bits w 13 5) (bits w 8 5)) else none
  | 0x0f => if bits w 0 8 = 0 then some (.max (bits w 18 5) (bits w 13 5) (bits w 8 5)) else if bits w 0 8 = 0x1 then some (.maxn (bits w 18 5) (bits w 13 5) (bits w 8 5)) else none
  | 0x10 => if bits w 0 13 = 0 then some (.clz (bits w 18 5) (bits w 13 5)) else none
  | 0x11 => if bits w 0 13 = 0 then some (.ctz (bits w 18 5) (bits w 13 5)) else none
  | 0x12 => if bits w 0 13 = 0 then some (.popc (bits w 18 5) (bits w 13 5)) else none
  | 0x13 => if bits w 3 10 = 0 then some (.wfld (bits w 18 5) (bits w 13 5) (bits w 0 3)) else none
  | 0x14 => some (.addi (bits w 18 5) (bits w 13 5) (bits w 0 13) none)
  | 0x15 => some (.andi (bits w 18 5) (bits w 13 5) (bits w 0 13) none)
  | 0x16 => some (.ori (bits w 18 5) (bits w 13 5) (bits w 0 13) none)
  | 0x17 => some (.xori (bits w 18 5) (bits w 13 5) (bits w 0 13) none)
  | 0x18 => if bits w 6 7 = 0 then some (.shli (bits w 18 5) (bits w 13 5) (bits w 0 6)) else none
  | 0x19 => if bits w 6 7 = 0 then some (.shri (bits w 18 5) (bits w 13 5) (bits w 0 6)) else none
  | 0x1a => if bits w 6 7 = 0 then some (.srai (bits w 18 5) (bits w 13 5) (bits w 0 6)) else none
  | 0x1b => some (.slti (bits w 18 5) (bits w 13 5) (bits w 0 13) none)
  | 0x1c => some (.movi (bits w 18 5) (bits w 0 18) none)
  | 0x1d => some (.movhi (bits w 18 5) (bits w 0 18) none)
  | 0x1e => if bits w 0 3 = 0 then some (.sel (bits w 18 5) (bits w 13 5) (bits w 8 5) (bits w 3 5)) else none
  | 0x20 => some (.beq (bits w 18 5) (bits w 13 5) (bits w 0 13) none)
  | 0x21 => some (.bne (bits w 18 5) (bits w 13 5) (bits w 0 13) none)
  | 0x22 => some (.blt (bits w 18 5) (bits w 13 5) (bits w 0 13) none)
  | 0x23 => some (.bge (bits w 18 5) (bits w 13 5) (bits w 0 13) none)
  | 0x24 => some (.bltn (bits w 18 5) (bits w 13 5) (bits w 0 13) none)
  | 0x25 => some (.bgen (bits w 18 5) (bits w 13 5) (bits w 0 13) none)
  | 0x28 => some (.jmp (bits w 0 23) none)
  | 0x29 => some (.call (bits w 0 23) none)
  | 0x2a => if bits w 18 5 = 0 then some (.jr (bits w 13 5) (bits w 0 13) none) else none
  | 0x2b => if bits w 18 5 = 0 then some (.callr (bits w 13 5) (bits w 0 13) none) else none
  | 0x30 => if bits w 18 5 = 0 ∧ bits w 7 6 = 0 then some (.loop (bits w 13 5) (bits w 0 7)) else none
  | 0x31 => some (.loopi (bits w 7 16) (bits w 0 7))
  | 0x32 => if bits w 18 5 = 0 ∧ bits w 7 1 = 0 then some (.loops (bits w 13 5) (bits w 8 5) (bits w 5 2) (bits w 0 5)) else none
  | 0x33 => if bits w 18 5 = 0 ∧ bits w 2 11 = 0 then some (.lexit (bits w 13 5) (bits w 1 1) (bits w 0 1)) else none
  | 0x34 => if bits w 3 15 = 0 then some (.lcnt (bits w 18 5) (bits w 2 1) (bits w 0 2)) else none
  | 0x38 => if bits w 0 23 = 0 then some (.nop) else none
  | _ => none

/-- The rows of engine 6 (02 Tables 2.8 to 2.14), by opcode. -/
def decodeRowK (w : BitVec 32) : Option Instr :=
  match (bits w 23 6).toNat with
  | 0x00 => if bits w 13 10 = 0 then some (.trap (bits w 0 13)) else none
  | 0x01 => if bits w 0 23 = 0 then some (.rft) else none
  | 0x02 => if bits w 13 10 = 0 then some (.brk (bits w 0 13)) else none
  | 0x03 => if bits w 12 6 = 0 then some (.csrr (bits w 18 5) (bits w 0 12)) else none
  | 0x04 => if bits w 18 5 = 0 ∧ bits w 12 1 = 0 then some (.csrw (bits w 13 5) (bits w 0 12)) else none
  | 0x05 => if bits w 12 1 = 0 then some (.csrx (bits w 18 5) (bits w 13 5) (bits w 0 12)) else none
  | 0x06 => if bits w 12 1 = 0 then some (.csrs (bits w 18 5) (bits w 13 5) (bits w 0 12)) else none
  | 0x07 => if bits w 12 1 = 0 then some (.csrc (bits w 18 5) (bits w 13 5) (bits w 0 12)) else none
  | 0x08 => if bits w 0 23 = 0 then some (.exit) else none
  | 0x09 => if bits w 0 23 = 0 then some (.yield) else none
  | 0x0a => if bits w 18 5 = 0 then some (.sleep (bits w 13 5) (bits w 0 13)) else none
  | 0x0b => some (.prio (bits w 18 5) (bits w 13 5) (bits w 0 13))
  | 0x0c => if bits w 0 23 = 0 then some (.esync) else none
  | 0x0d => if bits w 0 8 = 0 then some (.spawn (bits w 18 5) (bits w 13 5) (bits w 8 5)) else none
  | 0x0e => if bits w 5 13 = 0 then some (.flease (bits w 18 5) (bits w 4 1) (bits w 2 2) (bits w 0 2)) else none
  | 0x0f => if bits w 0 18 = 0 then some (.fret (bits w 18 5)) else none
  | 0x10 => if bits w 1 12 = 0 then some (.draw (bits w 18 5) (bits w 13 5) (bits w 0 1)) else none
  | 0x11 => if bits w 0 13 = 0 then some (.dret (bits w 18 5) (bits w 13 5)) else none
  | 0x12 => if bits w 18 5 = 0 then some (.mark (bits w 13 5) (bits w 0 13)) else none
  | 0x13 => if bits w 0 13 = 0 then some (.capr (bits w 18 5) (bits w 13 5)) else none
  | 0x14 => if bits w 0 8 = 0 then some (.lext (bits w 18 5) (bits w 13 5) (bits w 8 5)) else none
  | 0x15 => if bits w 0 23 = 0 then some (.fencei) else none
  | 0x16 => if bits w 0 23 = 0 then some (.halt) else none
  | _ => none

/-- The rows of engine 1 (02 Tables 2.8 to 2.14), by opcode. -/
def decodeRowV (w : BitVec 32) : Option Instr :=
  match (bits w 23 6).toNat with
  | 0x00 => some (.vadd (bits w 18 5) (bits w 13 5) (bits w 8 5) (bits w 4 4) (bits w 1 3) (bits w 0 1))
  | 0x01 => some (.vsub (bits w 18 5) (bits w 13 5) (bits w 8 5) (bits w 4 4) (bits w 1 3) (bits w 0 1))
  | 0x02 => some (.vmul (bits w 18 5) (bits w 13 5) (bits w 8 5) (bits w 4 4) (bits w 1 3) (bits w 0 1))
  | 0x03 => if bits w 0 1 = 0 then some (.vmulh (bits w 18 5) (bits w 13 5) (bits w 8 5) (bits w 4 4) (bits w 1 3)) else none
  | 0x04 => if bits w 0 1 = 0 then some (.vfma (bits w 18 5) (bits w 13 5) (bits w 8 5) (bits w 4 4) (bits w 1 3)) else none
  | 0x05 => if bits w 0 1 = 0 then some (.vfms (bits w 18 5) (bits w 13 5) (bits w 8 5) (bits w 4 4) (bits w 1 3)) else none
  | 0x06 => if bits w 0 1 = 0 then some (.vfnm (bits w 18 5) (bits w 13 5) (bits w 8 5) (bits w 4 4) (bits w 1 3)) else none
  | 0x07 => if bits w 0 1 = 0 then some (.vmin (bits w 18 5) (bits w 13 5) (bits w 8 5) (bits w 4 4) (bits w 1 3)) else none
  | 0x08 => if bits w 0 1 = 0 then some (.vmax (bits w 18 5) (bits w 13 5) (bits w 8 5) (bits w 4 4) (bits w 1 3)) else none
  | 0x09 => if bits w 8 5 = 0 then some (.vabs (bits w 18 5) (bits w 13 5) (bits w 4 4) (bits w 1 3) (bits w 0 1)) else none
  | 0x0a => if bits w 8 5 = 0 then some (.vneg (bits w 18 5) (bits w 13 5) (bits w 4 4) (bits w 1 3) (bits w 0 1)) else none
  | 0x0b => if bits w 0 1 = 0 then some (.vdiv (bits w 18 5) (bits w 13 5) (bits w 8 5) (bits w 4 4) (bits w 1 3)) else none
  | 0x0c => if bits w 8 5 = 0 ∧ bits w 0 1 = 0 then some (.vsqrt (bits w 18 5) (bits w 13 5) (bits w 4 4) (bits w 1 3)) else none
  | 0x0d => if bits w 8 5 = 0 then some (.vrcp (bits w 18 5) (bits w 13 5) (bits w 4 4) (bits w 1 3) (bits w 0 1)) else none
  | 0x0e => if bits w 8 5 = 0 then some (.vrsq (bits w 18 5) (bits w 13 5) (bits w 4 4) (bits w 1 3) (bits w 0 1)) else none
  | 0x0f => if bits w 8 5 = 0 then some (.vexp2 (bits w 18 5) (bits w 13 5) (bits w 4 4) (bits w 1 3) (bits w 0 1)) else none
  | 0x10 => if bits w 8 5 = 0 then some (.vlog2 (bits w 18 5) (bits w 13 5) (bits w 4 4) (bits w 1 3) (bits w 0 1)) else none
  | 0x11 => if bits w 0 1 = 0 then some (.vand (bits w 18 5) (bits w 13 5) (bits w 8 5) (bits w 4 4) (bits w 1 3)) else none
  | 0x12 => if bits w 0 1 = 0 then some (.vor (bits w 18 5) (bits w 13 5) (bits w 8 5) (bits w 4 4) (bits w 1 3)) else none
  | 0x13 => if bits w 0 1 = 0 then some (.vxor (bits w 18 5) (bits w 13 5) (bits w 8 5) (bits w 4 4) (bits w 1 3)) else none
  | 0x14 => if bits w 8 5 = 0 ∧ bits w 0 1 = 0 then some (.vnot (bits w 18 5) (bits w 13 5) (bits w 4 4) (bits w 1 3)) else none
  | 0x15 => if bits w 0 1 = 0 then some (.vshl (bits w 18 5) (bits w 13 5) (bits w 8 5) (bits w 4 4) (bits w 1 3)) else none
  | 0x16 => if bits w 0 1 = 0 then some (.vshr (bits w 18 5) (bits w 13 5) (bits w 8 5) (bits w 4 4) (bits w 1 3)) else none
  | 0x17 => if bits w 0 1 = 0 then some (.vsra (bits w 18 5) (bits w 13 5) (bits w 8 5) (bits w 4 4) (bits w 1 3)) else none
  | 0x18 => if bits w 21 2 = 0 then some (.vcmpeq (bits w 18 3) (bits w 13 5) (bits w 8 5) (bits w 4 4) (bits w 1 3) (bits w 0 1)) else none
  | 0x19 => if bits w 21 2 = 0 then some (.vcmplt (bits w 18 3) (bits w 13 5) (bits w 8 5) (bits w 4 4) (bits w 1 3) (bits w 0 1)) else none
  | 0x1a => if bits w 21 2 = 0 then some (.vcmple (bits w 18 3) (bits w 13 5) (bits w 8 5) (bits w 4 4) (bits w 1 3) (bits w 0 1)) else none
  | 0x1b => if bits w 21 2 = 0 then some (.vcmpun (bits w 18 3) (bits w 13 5) (bits w 8 5) (bits w 4 4) (bits w 1 3) (bits w 0 1)) else none
  | 0x1c => if bits w 0 1 = 0 then some (.vsel (bits w 18 5) (bits w 13 5) (bits w 8 5) (bits w 4 4) (bits w 1 3)) else none
  | 0x1d => some (.vcvt (bits w 18 5) (bits w 13 5) (bits w 12 1) (bits w 8 4) (bits w 4 4) (bits w 1 3) (bits w 0 1))
  | 0x1e => if bits w 0 4 = 0 then some (.vqblk (bits w 18 5) (bits w 13 5) (bits w 8 5) (bits w 4 4)) else none
  | 0x1f => if bits w 0 1 = 0 then some (.vdqblk (bits w 18 5) (bits w 13 5) (bits w 8 5) (bits w 4 4) (bits w 1 3)) else none
  | 0x20 => if bits w 11 2 = 0 ∧ bits w 0 1 = 0 then some (.vred (bits w 18 5) (bits w 13 5) (bits w 8 3) (bits w 4 4) (bits w 1 3)) else none
  | 0x21 => if bits w 11 2 = 0 ∧ bits w 0 1 = 0 then some (.vscan (bits w 18 5) (bits w 13 5) (bits w 8 3) (bits w 4 4) (bits w 1 3)) else none
  | 0x22 => some (.vperm (bits w 18 5) (bits w 13 5) (bits w 8 5) (bits w 4 4) (bits w 1 3) (bits w 0 1))
  | 0x23 => if bits w 0 1 = 0 then some (.vrot (bits w 18 5) (bits w 13 5) (bits w 8 5) (bits w 4 4) (bits w 1 3)) else none
  | 0x24 => some (.vzip (bits w 18 5) (bits w 13 5) (bits w 8 5) (bits w 4 4) (bits w 1 3) (bits w 0 1))
  | 0x25 => some (.vunzip (bits w 18 5) (bits w 13 5) (bits w 8 5) (bits w 4 4) (bits w 1 3) (bits w 0 1))
  | 0x26 => if bits w 0 1 = 0 then some (.vbcst (bits w 18 5) (bits w 13 5) (bits w 8 5) (bits w 4 4) (bits w 1 3)) else none
  | 0x27 => if bits w 8 10 = 0 ∧ bits w 0 1 = 0 then some (.viota (bits w 18 5) (bits w 4 4) (bits w 1 3)) else none
  | 0x28 => some (.vmovi (bits w 18 5) (bits w 0 18) none)
  | 0x29 => some (.vdot4 (bits w 18 5) (bits w 13 5) (bits w 8 5) (bits w 4 4) (bits w 1 3) (bits w 0 1))
  | 0x2a => some (.vdot2 (bits w 18 5) (bits w 13 5) (bits w 8 5) (bits w 4 4) (bits w 1 3) (bits w 0 1))
  | 0x2b => if bits w 21 2 = 0 ∧ bits w 16 2 = 0 ∧ bits w 4 4 = 0 then some (.mlog (bits w 18 3) (bits w 13 3) (bits w 11 2) (bits w 8 3) (bits w 1 3) (bits w 0 1)) else none
  | 0x2c => if bits w 16 2 = 0 ∧ bits w 4 9 = 0 ∧ bits w 0 1 = 0 then some (.mpop (bits w 18 5) (bits w 13 3) (bits w 1 3)) else none
  | 0x2d => if bits w 16 2 = 0 ∧ bits w 4 9 = 0 ∧ bits w 0 1 = 0 then some (.mfirst (bits w 18 5) (bits w 13 3) (bits w 1 3)) else none
  | 0x2e => if bits w 18 5 = 0 ∧ bits w 0 8 = 0 then some (.vtos (bits w 13 5) (bits w 8 5)) else none
  | 0x2f => if bits w 18 5 = 0 ∧ bits w 0 13 = 0 then some (.vtoa (bits w 13 5)) else none
  | 0x30 => if bits w 8 5 = 0 ∧ bits w 0 1 = 0 then some (.vmov (bits w 18 5) (bits w 13 5) (bits w 4 4) (bits w 1 3)) else none
  | 0x31 => if bits w 0 23 = 0 then some (.vwait) else none
  | 0x32 => if bits w 8 5 = 0 ∧ bits w 0 1 = 0 then some (.vclass (bits w 18 5) (bits w 13 5) (bits w 4 4) (bits w 1 3)) else none
  | 0x33 => if bits w 8 5 = 0 ∧ bits w 0 1 = 0 then some (.vclz (bits w 18 5) (bits w 13 5) (bits w 4 4) (bits w 1 3)) else none
  | 0x34 => if bits w 8 5 = 0 ∧ bits w 0 1 = 0 then some (.vpopc (bits w 18 5) (bits w 13 5) (bits w 4 4) (bits w 1 3)) else none
  | _ => none

/-- The rows of engine 2 (02 Tables 2.8 to 2.14), by opcode. -/
def decodeRowA (w : BitVec 32) : Option Instr :=
  match (bits w 23 6).toNat with
  | 0x00 => if bits w 0 8 = 0 then some (.aadd (bits w 18 5) (bits w 13 5) (bits w 8 5)) else none
  | 0x01 => if bits w 0 8 = 0 then some (.asub (bits w 18 5) (bits w 13 5) (bits w 8 5)) else none
  | 0x02 => if bits w 0 8 = 0 then some (.amul (bits w 18 5) (bits w 13 5) (bits w 8 5)) else none
  | 0x03 => if bits w 0 8 = 0 then some (.ashl (bits w 18 5) (bits w 13 5) (bits w 8 5)) else none
  | 0x04 => if bits w 0 8 = 0 then some (.ashr (bits w 18 5) (bits w 13 5) (bits w 8 5)) else none
  | 0x05 => if bits w 0 8 = 0 then some (.aand (bits w 18 5) (bits w 13 5) (bits w 8 5)) else none
  | 0x06 => if bits w 0 8 = 0 then some (.aor (bits w 18 5) (bits w 13 5) (bits w 8 5)) else none
  | 0x08 => some (.aaddi (bits w 18 5) (bits w 13 5) (bits w 0 13) none)
  | 0x09 => some (.amovi (bits w 18 5) (bits w 0 18) none)
  | 0x0a => some (.amovhi (bits w 18 5) (bits w 0 18) none)
  | 0x0c => some (.lds (bits w 18 5) (bits w 13 5) (bits w 0 13) none)
  | 0x0d => some (.sts (bits w 18 5) (bits w 13 5) (bits w 0 13) none)
  | 0x0e => some (.ldv (bits w 18 5) (bits w 13 5) (bits w 0 13) none)
  | 0x0f => if bits w 18 5 = 0x1e then some (.stv (bits w 13 5) (bits w 0 13) none) else none
  | 0x10 => if bits w 1 7 = 0 then some (.ldvs (bits w 18 5) (bits w 13 5) (bits w 8 5) (bits w 0 1)) else none
  | 0x11 => if bits w 18 5 = 0x1e ∧ bits w 1 7 = 0 then some (.stvs (bits w 13 5) (bits w 8 5) (bits w 0 1)) else none
  | 0x12 => if bits w 1 12 = 0xe80 then some (.ldg (bits w 18 5) (bits w 13 5) (bits w 0 1)) else none
  | 0x13 => if bits w 18 5 = 0x1e ∧ bits w 1 12 = 0xe80 then some (.stg (bits w 13 5) (bits w 0 1)) else none
  | 0x14 => some (.ldt (bits w 18 5) (bits w 13 5) (bits w 0 13) none)
  | 0x15 => if bits w 18 5 = 0x1e then some (.stt (bits w 13 5) (bits w 0 13) none) else none
  | 0x18 => if bits w 21 2 = 0 ∧ bits w 2 11 = 0 then some (.kset (bits w 18 3) (bits w 13 5) (bits w 0 2)) else none
  | 0x19 => if bits w 21 2 = 0 ∧ bits w 16 2 = 0 ∧ bits w 11 2 = 0 ∧ bits w 0 8 = 0 then some (.kadd (bits w 18 3) (bits w 13 3) (bits w 8 3)) else none
  | 0x1a => if bits w 21 2 = 0 ∧ bits w 16 2 = 0 then some (.kaddi (bits w 18 3) (bits w 13 3) (bits w 3 10) (bits w 0 3) none) else none
  | 0x1b => if bits w 21 2 = 0 ∧ bits w 0 18 = 0 then some (.kclr (bits w 18 3)) else none
  | 0x1c => if bits w 11 2 = 0 ∧ bits w 3 5 = 0 then some (.tld (bits w 18 5) (bits w 13 5) (bits w 8 3) (bits w 2 1) (bits w 0 2)) else none
  | 0x1d => if bits w 11 2 = 0 ∧ bits w 2 3 = 0 then some (.tst (bits w 18 5) (bits w 13 5) (bits w 8 3) (bits w 5 3) (bits w 0 2)) else none
  | 0x1e => if bits w 11 2 = 0 ∧ bits w 0 8 = 0 then some (.tldv (bits w 18 5) (bits w 13 5) (bits w 8 3)) else none
  | 0x1f => if bits w 18 5 = 0x1e ∧ bits w 11 2 = 0 ∧ bits w 0 5 = 0 then some (.tstv (bits w 13 5) (bits w 8 3) (bits w 5 3)) else none
  | 0x20 => if bits w 11 2 = 0 ∧ bits w 3 5 = 0 then some (.tldg (bits w 18 5) (bits w 13 5) (bits w 8 3) (bits w 0 3)) else none
  | 0x21 => if bits w 18 5 = 0x1e ∧ bits w 11 2 = 0 ∧ bits w 3 2 = 0 then some (.tstg (bits w 13 5) (bits w 8 3) (bits w 5 3) (bits w 0 3)) else none
  | 0x22 => if bits w 18 5 = 0 ∧ bits w 11 2 = 0 ∧ bits w 1 7 = 0 then some (.tpf (bits w 13 5) (bits w 8 3) (bits w 0 1)) else none
  | 0x28 => if bits w 18 5 = 0 ∧ bits w 8 5 = 0 then some (.ttreg (bits w 13 5) (bits w 0 8)) else none
  | 0x29 => if bits w 8 15 = 0 then some (.ttrel (bits w 0 8)) else none
  | 0x2a => if bits w 8 10 = 0 then some (.ttstat (bits w 18 5) (bits w 0 8)) else none
  | _ => none

/-- The rows of engine 5 (02 Tables 2.8 to 2.14), by opcode. -/
def decodeRowY (w : BitVec 32) : Option Instr :=
  match (bits w 23 6).toNat with
  | 0x00 => if bits w 10 3 = 0 then some (.binit (bits w 18 5) (bits w 13 5) (bits w 0 10)) else none
  | 0x01 => if bits w 18 5 = 0 ∧ bits w 10 3 = 0 then some (.breg (bits w 13 5) (bits w 0 10)) else none
  | 0x02 => some (.barv (bits w 18 5) (bits w 13 5) (bits w 10 3) (bits w 0 10))
  | 0x03 => some (.bard (bits w 18 5) (bits w 13 5) (bits w 10 3) (bits w 0 10))
  | 0x04 => if bits w 0 4 = 0 then some (.bexp (bits w 18 5) (bits w 13 5) (bits w 8 5) (bits w 5 3) (bits w 4 1)) else none
  | 0x05 => some (.bwait (bits w 18 5) (bits w 13 5) (bits w 10 3) (bits w 0 10))
  | 0x06 => some (.btest (bits w 18 5) (bits w 13 5) (bits w 10 3) (bits w 0 10))
  | 0x07 => some (.ldf (bits w 18 5) (bits w 13 5) (bits w 10 3) (bits w 0 10))
  | 0x08 => some (.ldfe (bits w 18 5) (bits w 13 5) (bits w 10 3) (bits w 0 10))
  | 0x09 => some (.stef (bits w 18 5) (bits w 13 5) (bits w 10 3) (bits w 0 10))
  | 0x0a => some (.stf (bits w 18 5) (bits w 13 5) (bits w 10 3) (bits w 0 10))
  | 0x0b => if bits w 19 4 = 0 ∧ bits w 10 3 = 0 then some (.feset (bits w 18 1) (bits w 13 5) (bits w 0 10)) else none
  | 0x0c => if bits w 8 15 = 0 then some (.tready (bits w 0 8)) else none
  | 0x0d => if bits w 8 15 = 0 then some (.tempty (bits w 0 8)) else none
  | 0x0e => if bits w 10 13 = 0 then some (.twait (bits w 8 2) (bits w 0 8)) else none
  | 0x10 => if bits w 11 2 = 0 ∧ bits w 0 4 = 0 then some (.ldaq (bits w 18 5) (bits w 13 5) (bits w 8 3) (bits w 5 3) (bits w 4 1)) else none
  | 0x11 => if bits w 11 2 = 0 ∧ bits w 0 4 = 0 then some (.strl (bits w 18 5) (bits w 13 5) (bits w 8 3) (bits w 5 3) (bits w 4 1)) else none
  | 0x12 => if bits w 0 4 = 0 then some (.ldaqs (bits w 18 5) (bits w 13 5) (bits w 8 5) (bits w 5 3) (bits w 4 1)) else none
  | 0x13 => if bits w 0 4 = 0 then some (.strls (bits w 18 5) (bits w 13 5) (bits w 8 5) (bits w 5 3) (bits w 4 1)) else none
  | 0x14 => if bits w 8 15 = 0 ∧ bits w 0 3 = 0 then some (.fence (bits w 5 3) (bits w 3 2)) else none
  | 0x18 => some (.amo (bits w 18 5) (bits w 13 5) (bits w 11 2) (bits w 8 3) (bits w 5 3) (bits w 0 5))
  | 0x19 => if bits w 0 4 = 0 then some (.amoc (bits w 18 5) (bits w 13 5) (bits w 11 2) (bits w 8 3) (bits w 5 3) (bits w 4 1)) else none
  | 0x1a => some (.red (bits w 18 5) (bits w 13 5) (bits w 11 2) (bits w 8 3) (bits w 5 3) (bits w 0 5))
  | 0x1b => if bits w 18 5 = 0x1e ∧ bits w 1 4 = 0 then some (.redv (bits w 13 5) (bits w 11 2) (bits w 8 3) (bits w 5 3) (bits w 0 1)) else none
  | 0x1c => some (.amos (bits w 18 5) (bits w 13 5) (bits w 8 5) (bits w 5 3) (bits w 0 5))
  | _ => none

/-- The rows of engine 3 (02 Tables 2.8 to 2.14), by opcode. -/
def decodeRowM (w : BitVec 32) : Option Instr :=
  match (bits w 23 6).toNat with
  | 0x00 => if bits w 18 5 = 0 ∧ bits w 3 5 = 0 then some (.mnest (bits w 13 5) (bits w 8 5) (bits w 0 3)) else none
  | 0x01 => if bits w 4 19 = 0 then some (.mbody (bits w 0 4)) else none
  | 0x02 => if bits w 18 5 = 0 ∧ bits w 0 8 = 0 then some (.mgo (bits w 13 5) (bits w 8 5)) else none
  | 0x03 => if bits w 3 20 = 0 then some (.msel (bits w 0 3)) else none
  | 0x04 => if bits w 2 21 = 0 then some (.mconf (bits w 0 2)) else none
  | 0x05 => if bits w 11 12 = 0 then some (.mclm (bits w 7 4) (bits w 4 3) (bits w 0 4)) else none
  | 0x06 => if bits w 11 12 = 0 then some (.mrel (bits w 7 4) (bits w 4 3) (bits w 0 4)) else none
  | 0x07 => if bits w 8 10 = 0 then some (.mldb (bits w 18 5) (bits w 6 2) (bits w 5 1) (bits w 4 1) (bits w 0 4)) else none
  | 0x08 => if bits w 8 10 = 0 then some (.mmma (bits w 18 5) (bits w 6 2) (bits w 5 1) (bits w 4 1) (bits w 0 4)) else none
  | 0x09 => if bits w 8 10 = 0 then some (.mmms (bits w 18 5) (bits w 6 2) (bits w 5 1) (bits w 4 1) (bits w 0 4)) else none
  | 0x0a => if bits w 8 5 = 0 then some (.mmmc (bits w 18 5) (bits w 13 5) (bits w 6 2) (bits w 5 1) (bits w 4 1) (bits w 0 4)) else none
  | 0x0b => if bits w 13 10 = 0 ∧ bits w 2 9 = 0 then some (.mzacc (bits w 11 2) (bits w 1 1) (bits w 0 1)) else none
  | 0x0c => some (.mdrn (bits w 18 5) (bits w 13 5) (bits w 8 5) (bits w 6 2) (bits w 5 1) (bits w 4 1) (bits w 0 4))
  | 0x0d => if bits w 13 5 = 0 then some (.mdrc (bits w 18 5) (bits w 8 5) (bits w 6 2) (bits w 5 1) (bits w 4 1) (bits w 0 4)) else none
  | 0x0e => if bits w 18 5 = 0 ∧ bits w 8 5 = 0 ∧ bits w 0 5 = 0 then some (.mamax (bits w 13 5) (bits w 6 2) (bits w 5 1)) else none
  | 0x0f => if bits w 0 23 = 0 then some (.mmqclr) else none
  | _ => none

/-- The rows of engine 4 (02 Tables 2.8 to 2.14), by opcode. -/
def decodeRowC (w : BitVec 32) : Option Instr :=
  match (bits w 23 6).toNat with
  | 0x00 => if bits w 0 6 = 0 then some (.cnest (bits w 18 5) (bits w 13 5) (bits w 8 5) (bits w 6 2)) else none
  | 0x02 => some (.ccpy (bits w 18 5) (bits w 13 5) (bits w 8 5) (bits w 6 2) (bits w 2 4) (bits w 1 1) (bits w 0 1))
  | 0x03 => some (.cst (bits w 18 5) (bits w 13 5) (bits w 8 5) (bits w 6 2) (bits w 2 4) (bits w 1 1) (bits w 0 1))
  | 0x04 => some (.ccpys (bits w 18 5) (bits w 13 5) (bits w 8 5) (bits w 6 2) (bits w 2 4) (bits w 1 1) (bits w 0 1))
  | 0x05 => some (.cmc (bits w 18 5) (bits w 13 5) (bits w 8 5) (bits w 6 2) (bits w 2 4) (bits w 1 1) (bits w 0 1))
  | 0x06 => some (.cgth (bits w 18 5) (bits w 13 5) (bits w 8 5) (bits w 6 2) (bits w 2 4) (bits w 1 1) (bits w 0 1))
  | 0x07 => some (.copf (bits w 18 5) (bits w 13 5) (bits w 8 5) (bits w 6 2) (bits w 2 4) (bits w 1 1) (bits w 0 1))
  | 0x08 => if bits w 2 4 = 0 ∧ bits w 0 1 = 0 then some (.cmeta (bits w 18 5) (bits w 13 5) (bits w 8 5) (bits w 6 2) (bits w 1 1)) else none
  | 0x09 => if bits w 0 1 = 0 then some (.cred (bits w 18 5) (bits w 13 5) (bits w 8 5) (bits w 6 2) (bits w 2 4) (bits w 1 1)) else none
  | 0x0a => if bits w 2 4 = 0 ∧ bits w 0 1 = 0 then some (.cset (bits w 18 5) (bits w 13 5) (bits w 8 5) (bits w 6 2) (bits w 1 1)) else none
  | 0x0b => some (.crem (bits w 18 5) (bits w 13 5) (bits w 8 5) (bits w 6 2) (bits w 2 4) (bits w 1 1) (bits w 0 1))
  | 0x0c => if bits w 2 4 = 0 ∧ bits w 0 1 = 0 then some (.cpro (bits w 18 5) (bits w 13 5) (bits w 8 5) (bits w 6 2) (bits w 1 1)) else none
  | _ => none

/-- The row of the opcode map that a word carries, if any (02 R34, R54). -/
def decodeRow (w : BitVec 32) : Option Instr :=
  match (bits w 29 3).toNat with
  | 0 => decodeRowS w
  | 1 => decodeRowV w
  | 2 => decodeRowA w
  | 3 => decodeRowM w
  | 4 => decodeRowC w
  | 5 => decodeRowY w
  | 6 => decodeRowK w
  | _ => some (.limm (bits w 0 29))

/-- The same word with its vector field read as `sq`: a vector store whose field names `lq0` or `lq1` has only the
wrong direction (07 R193), so every other check of R52 comes before its QUEUE (02 R53). -/
def asStore (w : BitVec 32) : BitVec 32 := (w &&& ~~~(0x1F#32 <<< 18)) ||| (30#32 <<< 18)

/-- The word is a vector store, legal but for a pop-side vector field, whose `d` is 28 or 29 (07 R193, 10 R269). -/
def storeWrongWay (w : BitVec 32) : Bool :=
  (bits w 18 5 == 28 || bits w 18 5 == 29) &&
  match decodeRow (asStore w) with
  | some (.stv a i p) => (Instr.stv a i p).legal
  | some (.stvs a b k) => (Instr.stvs a b k).legal
  | some (.stg a k) => (Instr.stg a k).legal
  | some (.stt a i p) => (Instr.stt a i p).legal
  | some (.tstv a k s) => (Instr.tstv a k s).legal
  | some (.tstg a k s j) => (Instr.tstg a k s j).legal
  | _ => false

/-- The instruction merged with its L word, or `none` for a word that takes no prefix (02 R49, R50). -/
def Instr.withPre (i : Instr) (p : BitVec 29) : Option Instr :=
  match i with
  | .addi d a i _ => some (.addi d a i (some p))
  | .andi d a i _ => some (.andi d a i (some p))
  | .ori d a i _ => some (.ori d a i (some p))
  | .xori d a i _ => some (.xori d a i (some p))
  | .slti d a i _ => some (.slti d a i (some p))
  | .movi d i _ => some (.movi d i (some p))
  | .movhi d i _ => some (.movhi d i (some p))
  | .beq a b o _ => some (.beq a b o (some p))
  | .bne a b o _ => some (.bne a b o (some p))
  | .blt a b o _ => some (.blt a b o (some p))
  | .bge a b o _ => some (.bge a b o (some p))
  | .bltn a b o _ => some (.bltn a b o (some p))
  | .bgen a b o _ => some (.bgen a b o (some p))
  | .jmp o _ => some (.jmp o (some p))
  | .call o _ => some (.call o (some p))
  | .jr a i _ => some (.jr a i (some p))
  | .callr a i _ => some (.callr a i (some p))
  | .vmovi d i _ => some (.vmovi d i (some p))
  | .aaddi d a i _ => some (.aaddi d a i (some p))
  | .amovi d i _ => some (.amovi d i (some p))
  | .amovhi d i _ => some (.amovhi d i (some p))
  | .lds d a i _ => some (.lds d a i (some p))
  | .sts d a i _ => some (.sts d a i (some p))
  | .ldv d a i _ => some (.ldv d a i (some p))
  | .stv a i _ => some (.stv a i (some p))
  | .ldt d a i _ => some (.ldt d a i (some p))
  | .stt a i _ => some (.stt a i (some p))
  | .kaddi d a e j _ => some (.kaddi d a e j (some p))
  | _ => none

/-- The instruction that the front makes of a word `w` and the L word's bits `pre` before it, or the first of its
decode faults in the order of 02 R53. -/
def decode (pre : Option (BitVec 29)) (w : BitVec 32) : Except DecErr Instr :=
  match decodeRow w with
  | none =>
    match pre with
    | some _ => .error (if storeWrongWay w && (bits w 23 9 == 0x08F || bits w 23 9 == 0x095) then .queue else .illegal)
    | none => .error (if storeWrongWay w then .queue else .illegal)
  | some i =>
    match pre with
    | none => if !i.legal then .error .illegal else if !i.portsOk then .error .queue else .ok i
    | some p =>
      match i.withPre p with
      | none => .error .illegal
      | some j => if !j.legal then .error .illegal else if !j.portsOk then .error .queue else .ok j

/-- The L word's bits that an instruction was merged with (02 R49). -/
def Instr.preOf : Instr → Option (BitVec 29)
  | .addi _ _ _ p => p
  | .andi _ _ _ p => p
  | .ori _ _ _ p => p
  | .xori _ _ _ p => p
  | .slti _ _ _ p => p
  | .movi _ _ p => p
  | .movhi _ _ p => p
  | .beq _ _ _ p => p
  | .bne _ _ _ p => p
  | .blt _ _ _ p => p
  | .bge _ _ _ p => p
  | .bltn _ _ _ p => p
  | .bgen _ _ _ p => p
  | .jmp _ p => p
  | .call _ p => p
  | .jr _ _ p => p
  | .callr _ _ p => p
  | .vmovi _ _ p => p
  | .aaddi _ _ _ p => p
  | .amovi _ _ p => p
  | .amovhi _ _ p => p
  | .lds _ _ _ p => p
  | .sts _ _ _ p => p
  | .ldv _ _ _ p => p
  | .stv _ _ p => p
  | .ldt _ _ _ p => p
  | .stt _ _ p => p
  | .kaddi _ _ _ _ p => p
  | _ => none

/-- The word of an instruction, cut as the encoding tables of its chapter cut it; zero for a row without a word. -/
def Instr.encodeWord : Instr → BitVec 32
  | .add d a b => 0x0#9 ++ d ++ a ++ b ++ 0x0#8
  | .sub d a b => 0x1#9 ++ d ++ a ++ b ++ 0x0#8
  | .mul d a b => 0x2#9 ++ d ++ a ++ b ++ 0x0#8
  | .mulh d a b => 0x3#9 ++ d ++ a ++ b ++ 0x0#8
  | .mulhn d a b => 0x3#9 ++ d ++ a ++ b ++ 0x1#8
  | .div d a b => 0x4#9 ++ d ++ a ++ b ++ 0x0#8
  | .divn d a b => 0x4#9 ++ d ++ a ++ b ++ 0x1#8
  | .rem d a b => 0x5#9 ++ d ++ a ++ b ++ 0x0#8
  | .remn d a b => 0x5#9 ++ d ++ a ++ b ++ 0x1#8
  | .and d a b => 0x6#9 ++ d ++ a ++ b ++ 0x0#8
  | .or d a b => 0x7#9 ++ d ++ a ++ b ++ 0x0#8
  | .xor d a b => 0x8#9 ++ d ++ a ++ b ++ 0x0#8
  | .shl d a b => 0x9#9 ++ d ++ a ++ b ++ 0x0#8
  | .shr d a b => 0xa#9 ++ d ++ a ++ b ++ 0x0#8
  | .sra d a b => 0xb#9 ++ d ++ a ++ b ++ 0x0#8
  | .slt d a b => 0xc#9 ++ d ++ a ++ b ++ 0x0#8
  | .sltn d a b => 0xc#9 ++ d ++ a ++ b ++ 0x1#8
  | .seq d a b => 0xd#9 ++ d ++ a ++ b ++ 0x0#8
  | .min d a b => 0xe#9 ++ d ++ a ++ b ++ 0x0#8
  | .minn d a b => 0xe#9 ++ d ++ a ++ b ++ 0x1#8
  | .max d a b => 0xf#9 ++ d ++ a ++ b ++ 0x0#8
  | .maxn d a b => 0xf#9 ++ d ++ a ++ b ++ 0x1#8
  | .clz d a => 0x10#9 ++ d ++ a ++ 0x0#13
  | .ctz d a => 0x11#9 ++ d ++ a ++ 0x0#13
  | .popc d a => 0x12#9 ++ d ++ a ++ 0x0#13
  | .wfld d a k => 0x13#9 ++ d ++ a ++ 0x0#10 ++ k
  | .addi d a i _ => 0x14#9 ++ d ++ a ++ i
  | .andi d a i _ => 0x15#9 ++ d ++ a ++ i
  | .ori d a i _ => 0x16#9 ++ d ++ a ++ i
  | .xori d a i _ => 0x17#9 ++ d ++ a ++ i
  | .shli d a c => 0x18#9 ++ d ++ a ++ 0x0#7 ++ c
  | .shri d a c => 0x19#9 ++ d ++ a ++ 0x0#7 ++ c
  | .srai d a c => 0x1a#9 ++ d ++ a ++ 0x0#7 ++ c
  | .slti d a i _ => 0x1b#9 ++ d ++ a ++ i
  | .movi d i _ => 0x1c#9 ++ d ++ i
  | .movhi d i _ => 0x1d#9 ++ d ++ i
  | .sel d a b c => 0x1e#9 ++ d ++ a ++ b ++ c ++ 0x0#3
  | .beq a b o _ => 0x20#9 ++ a ++ b ++ o
  | .bne a b o _ => 0x21#9 ++ a ++ b ++ o
  | .blt a b o _ => 0x22#9 ++ a ++ b ++ o
  | .bge a b o _ => 0x23#9 ++ a ++ b ++ o
  | .bltn a b o _ => 0x24#9 ++ a ++ b ++ o
  | .bgen a b o _ => 0x25#9 ++ a ++ b ++ o
  | .jmp o _ => 0x28#9 ++ o
  | .call o _ => 0x29#9 ++ o
  | .jr a i _ => 0x2a#9 ++ 0x0#5 ++ a ++ i
  | .callr a i _ => 0x2b#9 ++ 0x0#5 ++ a ++ i
  | .loop a l => 0x30#9 ++ 0x0#5 ++ a ++ 0x0#6 ++ l
  | .loopi c l => 0x31#9 ++ c ++ l
  | .loops a b t l => 0x32#9 ++ 0x0#5 ++ a ++ b ++ 0x0#1 ++ t ++ l
  | .lexit a y x => 0x33#9 ++ 0x0#5 ++ a ++ 0x0#11 ++ y ++ x
  | .lcnt d r l => 0x34#9 ++ d ++ 0x0#15 ++ r ++ l
  | .nop => 0x38#9 ++ 0x0#23
  | .trap i => 0x180#9 ++ 0x0#10 ++ i
  | .rft => 0x181#9 ++ 0x0#23
  | .brk i => 0x182#9 ++ 0x0#10 ++ i
  | .csrr d c => 0x183#9 ++ d ++ 0x0#6 ++ c
  | .csrw a c => 0x184#9 ++ 0x0#5 ++ a ++ 0x0#1 ++ c
  | .csrx d a c => 0x185#9 ++ d ++ a ++ 0x0#1 ++ c
  | .csrs d a c => 0x186#9 ++ d ++ a ++ 0x0#1 ++ c
  | .csrc d a c => 0x187#9 ++ d ++ a ++ 0x0#1 ++ c
  | .exit => 0x188#9 ++ 0x0#23
  | .yield => 0x189#9 ++ 0x0#23
  | .sleep a i => 0x18a#9 ++ 0x0#5 ++ a ++ i
  | .prio d a i => 0x18b#9 ++ d ++ a ++ i
  | .esync => 0x18c#9 ++ 0x0#23
  | .spawn d a b => 0x18d#9 ++ d ++ a ++ b ++ 0x0#8
  | .flease d t q s => 0x18e#9 ++ d ++ 0x0#13 ++ t ++ q ++ s
  | .fret d => 0x18f#9 ++ d ++ 0x0#18
  | .draw d a t => 0x190#9 ++ d ++ a ++ 0x0#12 ++ t
  | .dret d a => 0x191#9 ++ d ++ a ++ 0x0#13
  | .mark a i => 0x192#9 ++ 0x0#5 ++ a ++ i
  | .capr d a => 0x193#9 ++ d ++ a ++ 0x0#13
  | .lext d a b => 0x194#9 ++ d ++ a ++ b ++ 0x0#8
  | .fencei => 0x195#9 ++ 0x0#23
  | .halt => 0x196#9 ++ 0x0#23
  | .limm i => 0x7#3 ++ i
  | .vadd d a b t m x => 0x40#9 ++ d ++ a ++ b ++ t ++ m ++ x
  | .vsub d a b t m x => 0x41#9 ++ d ++ a ++ b ++ t ++ m ++ x
  | .vmul d a b t m x => 0x42#9 ++ d ++ a ++ b ++ t ++ m ++ x
  | .vmulh d a b t m => 0x43#9 ++ d ++ a ++ b ++ t ++ m ++ 0x0#1
  | .vfma d a b t m => 0x44#9 ++ d ++ a ++ b ++ t ++ m ++ 0x0#1
  | .vfms d a b t m => 0x45#9 ++ d ++ a ++ b ++ t ++ m ++ 0x0#1
  | .vfnm d a b t m => 0x46#9 ++ d ++ a ++ b ++ t ++ m ++ 0x0#1
  | .vmin d a b t m => 0x47#9 ++ d ++ a ++ b ++ t ++ m ++ 0x0#1
  | .vmax d a b t m => 0x48#9 ++ d ++ a ++ b ++ t ++ m ++ 0x0#1
  | .vabs d a t m x => 0x49#9 ++ d ++ a ++ 0x0#5 ++ t ++ m ++ x
  | .vneg d a t m x => 0x4a#9 ++ d ++ a ++ 0x0#5 ++ t ++ m ++ x
  | .vdiv d a b t m => 0x4b#9 ++ d ++ a ++ b ++ t ++ m ++ 0x0#1
  | .vsqrt d a t m => 0x4c#9 ++ d ++ a ++ 0x0#5 ++ t ++ m ++ 0x0#1
  | .vrcp d a t m x => 0x4d#9 ++ d ++ a ++ 0x0#5 ++ t ++ m ++ x
  | .vrsq d a t m x => 0x4e#9 ++ d ++ a ++ 0x0#5 ++ t ++ m ++ x
  | .vexp2 d a t m x => 0x4f#9 ++ d ++ a ++ 0x0#5 ++ t ++ m ++ x
  | .vlog2 d a t m x => 0x50#9 ++ d ++ a ++ 0x0#5 ++ t ++ m ++ x
  | .vand d a b t m => 0x51#9 ++ d ++ a ++ b ++ t ++ m ++ 0x0#1
  | .vor d a b t m => 0x52#9 ++ d ++ a ++ b ++ t ++ m ++ 0x0#1
  | .vxor d a b t m => 0x53#9 ++ d ++ a ++ b ++ t ++ m ++ 0x0#1
  | .vnot d a t m => 0x54#9 ++ d ++ a ++ 0x0#5 ++ t ++ m ++ 0x0#1
  | .vshl d a b t m => 0x55#9 ++ d ++ a ++ b ++ t ++ m ++ 0x0#1
  | .vshr d a b t m => 0x56#9 ++ d ++ a ++ b ++ t ++ m ++ 0x0#1
  | .vsra d a b t m => 0x57#9 ++ d ++ a ++ b ++ t ++ m ++ 0x0#1
  | .vcmpeq d a b t m x => 0x58#9 ++ 0x0#2 ++ d ++ a ++ b ++ t ++ m ++ x
  | .vcmplt d a b t m x => 0x59#9 ++ 0x0#2 ++ d ++ a ++ b ++ t ++ m ++ x
  | .vcmple d a b t m x => 0x5a#9 ++ 0x0#2 ++ d ++ a ++ b ++ t ++ m ++ x
  | .vcmpun d a b t m x => 0x5b#9 ++ 0x0#2 ++ d ++ a ++ b ++ t ++ m ++ x
  | .vsel d a b t m => 0x5c#9 ++ d ++ a ++ b ++ t ++ m ++ 0x0#1
  | .vcvt d a s c t m r => 0x5d#9 ++ d ++ a ++ s ++ c ++ t ++ m ++ r
  | .vqblk d a b t => 0x5e#9 ++ d ++ a ++ b ++ t ++ 0x0#4
  | .vdqblk d a b t m => 0x5f#9 ++ d ++ a ++ b ++ t ++ m ++ 0x0#1
  | .vred d a p t m => 0x60#9 ++ d ++ a ++ 0x0#2 ++ p ++ t ++ m ++ 0x0#1
  | .vscan d a p t m => 0x61#9 ++ d ++ a ++ 0x0#2 ++ p ++ t ++ m ++ 0x0#1
  | .vperm d a b t m x => 0x62#9 ++ d ++ a ++ b ++ t ++ m ++ x
  | .vrot d a b t m => 0x63#9 ++ d ++ a ++ b ++ t ++ m ++ 0x0#1
  | .vzip d a b t m x => 0x64#9 ++ d ++ a ++ b ++ t ++ m ++ x
  | .vunzip d a b t m x => 0x65#9 ++ d ++ a ++ b ++ t ++ m ++ x
  | .vbcst d a b t m => 0x66#9 ++ d ++ a ++ b ++ t ++ m ++ 0x0#1
  | .viota d t m => 0x67#9 ++ d ++ 0x0#10 ++ t ++ m ++ 0x0#1
  | .vmovi d i _ => 0x68#9 ++ d ++ i
  | .vdot4 d a b t m x => 0x69#9 ++ d ++ a ++ b ++ t ++ m ++ x
  | .vdot2 d a b t m x => 0x6a#9 ++ d ++ a ++ b ++ t ++ m ++ x
  | .mlog d a p b m n => 0x6b#9 ++ 0x0#2 ++ d ++ 0x0#2 ++ a ++ p ++ b ++ 0x0#4 ++ m ++ n
  | .mpop d a m => 0x6c#9 ++ d ++ 0x0#2 ++ a ++ 0x0#9 ++ m ++ 0x0#1
  | .mfirst d a m => 0x6d#9 ++ d ++ 0x0#2 ++ a ++ 0x0#9 ++ m ++ 0x0#1
  | .vtos a j => 0x6e#9 ++ 0x0#5 ++ a ++ j ++ 0x0#8
  | .vtoa a => 0x6f#9 ++ 0x0#5 ++ a ++ 0x0#13
  | .vmov d a t m => 0x70#9 ++ d ++ a ++ 0x0#5 ++ t ++ m ++ 0x0#1
  | .vwait => 0x71#9 ++ 0x0#23
  | .vclass d a t m => 0x72#9 ++ d ++ a ++ 0x0#5 ++ t ++ m ++ 0x0#1
  | .vclz d a t m => 0x73#9 ++ d ++ a ++ 0x0#5 ++ t ++ m ++ 0x0#1
  | .vpopc d a t m => 0x74#9 ++ d ++ a ++ 0x0#5 ++ t ++ m ++ 0x0#1
  | .aadd d a b => 0x80#9 ++ d ++ a ++ b ++ 0x0#8
  | .asub d a b => 0x81#9 ++ d ++ a ++ b ++ 0x0#8
  | .amul d a b => 0x82#9 ++ d ++ a ++ b ++ 0x0#8
  | .ashl d a b => 0x83#9 ++ d ++ a ++ b ++ 0x0#8
  | .ashr d a b => 0x84#9 ++ d ++ a ++ b ++ 0x0#8
  | .aand d a b => 0x85#9 ++ d ++ a ++ b ++ 0x0#8
  | .aor d a b => 0x86#9 ++ d ++ a ++ b ++ 0x0#8
  | .aaddi d a i _ => 0x88#9 ++ d ++ a ++ i
  | .amovi d i _ => 0x89#9 ++ d ++ i
  | .amovhi d i _ => 0x8a#9 ++ d ++ i
  | .lds d a i _ => 0x8c#9 ++ d ++ a ++ i
  | .sts d a i _ => 0x8d#9 ++ d ++ a ++ i
  | .ldv d a i _ => 0x8e#9 ++ d ++ a ++ i
  | .stv a i _ => 0x8f#9 ++ 0x1e#5 ++ a ++ i
  | .ldvs d a b w => 0x90#9 ++ d ++ a ++ b ++ 0x0#7 ++ w
  | .stvs a b w => 0x91#9 ++ 0x1e#5 ++ a ++ b ++ 0x0#7 ++ w
  | .ldg d a w => 0x92#9 ++ d ++ a ++ 0xe80#12 ++ w
  | .stg a w => 0x93#9 ++ 0x1e#5 ++ a ++ 0xe80#12 ++ w
  | .ldt d a i _ => 0x94#9 ++ d ++ a ++ i
  | .stt a i _ => 0x95#9 ++ 0x1e#5 ++ a ++ i
  | .kset d a p => 0x98#9 ++ 0x0#2 ++ d ++ a ++ 0x0#11 ++ p
  | .kadd d a b => 0x99#9 ++ 0x0#2 ++ d ++ 0x0#2 ++ a ++ 0x0#2 ++ b ++ 0x0#8
  | .kaddi d a e j _ => 0x9a#9 ++ 0x0#2 ++ d ++ 0x0#2 ++ a ++ e ++ j
  | .kclr d => 0x9b#9 ++ 0x0#2 ++ d ++ 0x0#18
  | .tld d a k x n => 0x9c#9 ++ d ++ a ++ 0x0#2 ++ k ++ 0x0#5 ++ x ++ n
  | .tst d a k s n => 0x9d#9 ++ d ++ a ++ 0x0#2 ++ k ++ s ++ 0x0#3 ++ n
  | .tldv d a k => 0x9e#9 ++ d ++ a ++ 0x0#2 ++ k ++ 0x0#8
  | .tstv a k s => 0x9f#9 ++ 0x1e#5 ++ a ++ 0x0#2 ++ k ++ s ++ 0x0#5
  | .tldg d a k j => 0xa0#9 ++ d ++ a ++ 0x0#2 ++ k ++ 0x0#5 ++ j
  | .tstg a k s j => 0xa1#9 ++ 0x1e#5 ++ a ++ 0x0#2 ++ k ++ s ++ 0x0#2 ++ j
  | .tpf a k p => 0xa2#9 ++ 0x0#5 ++ a ++ 0x0#2 ++ k ++ 0x0#7 ++ p
  | .ttreg a t => 0xa8#9 ++ 0x0#5 ++ a ++ 0x0#5 ++ t
  | .ttrel t => 0xa9#9 ++ 0x0#15 ++ t
  | .ttstat d t => 0xaa#9 ++ d ++ 0x0#10 ++ t
  | .binit d a i => 0x140#9 ++ d ++ a ++ 0x0#3 ++ i
  | .breg a i => 0x141#9 ++ 0x0#5 ++ a ++ 0x0#3 ++ i
  | .barv d a s i => 0x142#9 ++ d ++ a ++ s ++ i
  | .bard d a s i => 0x143#9 ++ d ++ a ++ s ++ i
  | .bexp d a b s v => 0x144#9 ++ d ++ a ++ b ++ s ++ v ++ 0x0#4
  | .bwait d a s i => 0x145#9 ++ d ++ a ++ s ++ i
  | .btest d a s i => 0x146#9 ++ d ++ a ++ s ++ i
  | .ldf d a s o => 0x147#9 ++ d ++ a ++ s ++ o
  | .ldfe d a s o => 0x148#9 ++ d ++ a ++ s ++ o
  | .stef d a s o => 0x149#9 ++ d ++ a ++ s ++ o
  | .stf d a s o => 0x14a#9 ++ d ++ a ++ s ++ o
  | .feset f a o => 0x14b#9 ++ 0x0#4 ++ f ++ a ++ 0x0#3 ++ o
  | .tready t => 0x14c#9 ++ 0x0#15 ++ t
  | .tempty t => 0x14d#9 ++ 0x0#15 ++ t
  | .twait s t => 0x14e#9 ++ 0x0#13 ++ s ++ t
  | .ldaq d a k s w => 0x150#9 ++ d ++ a ++ 0x0#2 ++ k ++ s ++ w ++ 0x0#4
  | .strl d a k s w => 0x151#9 ++ d ++ a ++ 0x0#2 ++ k ++ s ++ w ++ 0x0#4
  | .ldaqs d a b s w => 0x152#9 ++ d ++ a ++ b ++ s ++ w ++ 0x0#4
  | .strls d a b s w => 0x153#9 ++ d ++ a ++ b ++ s ++ w ++ 0x0#4
  | .fence s k => 0x154#9 ++ 0x0#15 ++ s ++ k ++ 0x0#3
  | .amo d a r k s p => 0x158#9 ++ d ++ a ++ r ++ k ++ s ++ p
  | .amoc d a r k s w => 0x159#9 ++ d ++ a ++ r ++ k ++ s ++ w ++ 0x0#4
  | .red d a r k s p => 0x15a#9 ++ d ++ a ++ r ++ k ++ s ++ p
  | .redv a r k s y => 0x15b#9 ++ 0x1e#5 ++ a ++ r ++ k ++ s ++ 0x0#4 ++ y
  | .amos d a b s p => 0x15c#9 ++ d ++ a ++ b ++ s ++ p
  | .mnest a b l => 0xc0#9 ++ 0x0#5 ++ a ++ b ++ 0x0#5 ++ l
  | .mbody n => 0xc1#9 ++ 0x0#19 ++ n
  | .mgo a b => 0xc2#9 ++ 0x0#5 ++ a ++ b ++ 0x0#8
  | .msel k => 0xc3#9 ++ 0x0#20 ++ k
  | .mconf m => 0xc4#9 ++ 0x0#21 ++ m
  | .mclm n k s => 0xc5#9 ++ 0x0#12 ++ n ++ k ++ s
  | .mrel n k s => 0xc6#9 ++ 0x0#12 ++ n ++ k ++ s
  | .mldb d g x p t => 0xc7#9 ++ d ++ 0x0#10 ++ g ++ x ++ p ++ t
  | .mmma d g x h t => 0xc8#9 ++ d ++ 0x0#10 ++ g ++ x ++ h ++ t
  | .mmms d g x h t => 0xc9#9 ++ d ++ 0x0#10 ++ g ++ x ++ h ++ t
  | .mmmc d a g x h t => 0xca#9 ++ d ++ a ++ 0x0#5 ++ g ++ x ++ h ++ t
  | .mzacc g b h => 0xcb#9 ++ 0x0#10 ++ g ++ 0x0#9 ++ b ++ h
  | .mdrn d a b g h s t => 0xcc#9 ++ d ++ a ++ b ++ g ++ h ++ s ++ t
  | .mdrc d b g h s t => 0xcd#9 ++ d ++ 0x0#5 ++ b ++ g ++ h ++ s ++ t
  | .mamax a g h => 0xce#9 ++ 0x0#5 ++ a ++ 0x0#5 ++ g ++ h ++ 0x0#5
  | .mmqclr => 0xcf#9 ++ 0x0#23
  | .cnest d a b c => 0x100#9 ++ d ++ a ++ b ++ c ++ 0x0#6
  | .ccpy d a b c v o s => 0x102#9 ++ d ++ a ++ b ++ c ++ v ++ o ++ s
  | .cst d a b c v o s => 0x103#9 ++ d ++ a ++ b ++ c ++ v ++ o ++ s
  | .ccpys d a b c v o s => 0x104#9 ++ d ++ a ++ b ++ c ++ v ++ o ++ s
  | .cmc d a b c v o s => 0x105#9 ++ d ++ a ++ b ++ c ++ v ++ o ++ s
  | .cgth d a b c v o s => 0x106#9 ++ d ++ a ++ b ++ c ++ v ++ o ++ s
  | .copf d a b c v o s => 0x107#9 ++ d ++ a ++ b ++ c ++ v ++ o ++ s
  | .cmeta d a b c o => 0x108#9 ++ d ++ a ++ b ++ c ++ 0x0#4 ++ o ++ 0x0#1
  | .cred d a b c p o => 0x109#9 ++ d ++ a ++ b ++ c ++ p ++ o ++ 0x0#1
  | .cset d a b c o => 0x10a#9 ++ d ++ a ++ b ++ c ++ 0x0#4 ++ o ++ 0x0#1
  | .crem d a b c v o s => 0x10b#9 ++ d ++ a ++ b ++ c ++ v ++ o ++ s
  | .cpro d a b c o => 0x10c#9 ++ d ++ a ++ b ++ c ++ 0x0#4 ++ o ++ 0x0#1
  | _ => 0#32

/-- Bytes of an instruction in the code tensor: 8 with its L word, else 4 (02 R34, R49). -/
def Instr.size (i : Instr) : Nat := if i.preOf.isSome then 8 else 4

/-- The words of an instruction, the L word first (02 R49). -/
def Instr.encode (i : Instr) : List (BitVec 32) :=
  match i.preOf with
  | some p => [0x7#3 ++ p, i.encodeWord]
  | none => [i.encodeWord]

/-- The instruction that the decoder reads from the bits of an opcode-table row, laid out as 32-bit words, the bits
above `nbits` zero. -/
def decodeTableWord (nbits w : Nat) : Option Instr :=
  match decode none (BitVec.ofNat 32 (w % 2 ^ nbits)) with
  | .ok i => some i
  | .error _ => none

end Sys2Proof
end

