-- ==== Sys2Proof/Machine/Event.lean ====
section
/-!
DEFINITION. The device's own steps and the inputs from outside, with what names the unit and what the outside world
supplies: one constructor for each row of the opcode table that has no word. `Event.row` gives the row.
-/

namespace Sys2Proof.Machine

/-- Who makes a register access: the host over BAR 0, the bursar, or the thread in slot `t` of core `c`, for its service (01 R32, 22
R513). -/
inductive Agent where
  | host
  | bursar
  | service (c t : Nat)
  deriving DecidableEq, Repr

/-- An access to a class-9 tile at the peer that holds it (20 R486): a peer's access to a tile of this package, by handle, byte
offset and kind (0 load, 1 store, 2 atomic that returns a value, 3 reduction), with an operation code of 11 Table 11.3 and the
bytes of a sector under a mask, which joins those that wait; the performing of one that waits, by its place; or the reply to an access of
this package, by its number. -/
inductive PeerAcc where
  | serve (handle off kind op : Nat) (val : BitVec 256) (mask : BitVec 32)
  | reply (id : Nat) (val : BitVec 256)
  | perform (n : Nat)
  deriving DecidableEq, Repr

/-- The data queues of a thread (04 R101, Table 4.2). -/
inductive Port where
  | lq0 | lq1 | sq | svq | vsq | saq | asq | vaq
  deriving DecidableEq, Repr

/-- A step of the device or an input that reaches it: c is a package core, t a slot, ch a copy channel, n a service or a
number of bytes, L a link, who the agent. Log entry 16, DESIGN CHOICE. -/
inductive Event where
  /-- V_RESULT_LAND (R111). A V word's results land L ticks after issue, or fill a push-port entry L cycles after issue. -/
  | vResultLand (c t : Nat)
  /-- COPY_COMMAND_START (R328). A copy command leaves its queue head and starts once every start condition holds. -/
  | copyCommandStart (c ch : Nat)
  /-- SECTOR_LANDS (R334). A destination sector lands, subtracting 32 bytes from the object and flipping the tile after the last. -/
  | sectorLands (c ch : Nat)
  /-- COPY_COMMAND_COMPLETE (R327). A command completes when its sectors, counts and flips are done, and the next may start. -/
  | copyCommandComplete (c ch : Nat)
  /-- TAKE_TRAP (R407). At the horizon the thread stops at the trap point and enters the next trap level. -/
  | takeTrap (c t : Nat) (cause : BitVec 6) (val : BitVec 64)
  /-- WAIT_TIMEOUT (R222). A blocking wait reaching wait.limit ends with TIMEOUT. -/
  | waitTimeout (c t : Nat)
  /-- V_STALL_TIMEOUT (R105). A head V word stalled on a data queue past the limit makes the front take TIMEOUT. -/
  | vStallTimeout (c t : Nat)
  /-- ESCROW_WAIT_TIMEOUT (R309). A word waiting behind an escrow append to a full store takes TIMEOUT at the limit. -/
  | escrowWaitTimeout (c t : Nat)
  /-- LINKSTALL (R322). An access waiting on a retraining link or the fabric past the limit takes LINKSTALL. -/
  | linkstall (c t : Nat)
  /-- SLEEP_EXPIRY (R120). The SLEEP count reaches zero and fetch resumes. -/
  | sleepExpiry (c t : Nat)
  /-- LOAD_DATA_ARRIVE (R101). A load's data arrive and fill its reserved queue entry. -/
  | loadDataArrive (c t : Nat) (q : Port)
  /-- INHERIT_MESSAGE (R109). A control message announcing a wait or completion changes a remote registrant's inherited class. -/
  | inheritMessage (c t : Nat) (ob : Nat) (cls : Nat)
  /-- ATOMIC_APPLY (R284). The home arithmetic unit applies one arriving atomic or reduction sector. -/
  | atomicApply
  /-- SLICE_PERIOD (R279). A 1,024-cycle slice period begins, resetting class allotment counts. -/
  | slicePeriod (die : Nat)
  /-- URGENT_PROMOTION (R297). A request-normal head flit that waited 1,024 cycles competes in the urgent tier. -/
  | urgentPromotion (die n : Nat)
  /-- TELLER_GRANT (R352). The teller grants the head request of the chosen queue to a free placement. -/
  | tellerGrant (die : Nat)
  /-- STRIP_RUNDOWN_END (R357). A returning lease's queued M words complete and its strips enter scrubbing. -/
  | stripRundownEnd (die strip : Nat)
  /-- STRIP_SCRUB_COMPLETE (R358). Scrubbing releases slots, zeroes undrained halves and frees the strips. -/
  | stripScrubComplete (die strip : Nat)
  /-- FRAGMENT_SAVE_COMPLETE (R363). A pre-empted fragment's state is saved and its strips become free. -/
  | fragmentSaveComplete (die strip : Nat)
  /-- NEST_COMPLETE (R385). Every word and drain of a nest has completed, making one arrival at the completion object. -/
  | nestComplete (die strip : Nat)
  /-- LNQ_TAIL_WRITE (R428). The host advances a launch queue's tail to submit records. -/
  | lnqTailWrite (svc q : Nat) (val : BitVec 64) (who : Agent)
  /-- GANG_ACCEPT (R433). The scheduler accepts the next gang of a record, checking it and entering its ranges. -/
  | gangAccept (svc : Nat)
  /-- RECORD_FINISH (R428). The scheduler writes a finished record's status and advances the queue head. -/
  | recordFinish (svc q : Nat)
  /-- LEASE_MAPPED (R260). Every tile of a ready task's ranges is mapped, pinned and staged. -/
  | leaseMapped (task : Nat)
  /-- GANG_START (R437). With rectangle, lease and leave granted, every group of the gang starts in one cycle. -/
  | gangStart (task : Nat)
  /-- CLEARING_COMPLETE (R265). A guarded task's shadows are published and escrow untagged, and the task is released. -/
  | clearingComplete (task : Nat)
  /-- PREEMPT_GANG (R440). A placer pre-empts the fewest lower-class gangs to free a rectangle. -/
  | preemptGang (task : Nat)
  /-- GANG_SAVE_COMPLETE (R419). A gang's save completes and its cores, slots and windows are freed. -/
  | gangSaveComplete (task : Nat)
  /-- GANG_RESTORE (R420). A saved gang is placed and restored before any of its threads issues. -/
  | gangRestore (task : Nat)
  /-- CHECKER_MISMATCH (R464). The checker core's copy disagrees with the front at word number seq, discarding the task. -/
  | checkerMismatch (c t seq : Nat)
  /-- RESIDUE_MISMATCH (R465). A datapath residue check fails at a result of word number seq, and the result does not land. -/
  | residueMismatch (c t seq : Nat)
  /-- TASK_DISCARD (R472). A task that consumed poison or mismatched is killed, dropped and re-queued or failed. -/
  | taskDiscard (task : Nat)
  /-- SCRUB_LINE (R471). Scrub reads its next line on a die, correcting or reporting an error that it finds there: whether it was corrected,
  and which word of the line it struck. -/
  | scrubLine (die sub : Nat) (err : Option Bool)
  /-- SCRUB_LINE's errors met by a request before scrub reaches them (R466): 0 corrected before use, 1 uncorrectable and not consumed, 2
  uncorrectable, for the request to consume. -/
  | memoryError (unit die wh loc found : Nat)
  /-- TILE_FETCH (R305). A forced fetch starts, promoting the tile or applying its log in place. -/
  | tileFetch (svc tid idx : Nat)
  /-- FETCH_COMPLETE (R306). With no untagged entry left, the tile becomes resident and the drawer frame goes to set 8. -/
  | fetchComplete (svc tid idx : Nat)
  /-- ESCROW_APPLY (R307). One escrow entry is applied at its home slice and freed. -/
  | escrowApply (die e : Nat)
  /-- DEFERRED_APPEND (R309). An append waiting on a full store is performed when an entry frees or the tile is resident. -/
  | deferredAppend (die : Nat)
  /-- HW_FRAME_PUT (R301). A hardware put waiting at a full ring enters when room frees. -/
  | hwFramePut (set z : Nat)
  /-- DRAWER_SLOT_SEND (R319). A drawer request goes out in the first slot its class may use. -/
  | drawerSlotSend (link slot : Nat)
  /-- DRAWER_READ_RETURN (R317). Read data return in the inbound slot four frames later. -/
  | drawerReadReturn (link : Nat)
  /-- DRAWER_WRITE_COMPLETE (R317). A drawer write completion returns four frames later. -/
  | drawerWriteComplete (link : Nat)
  /-- DL_ENABLE (R320). Setting dl.ctl.en takes the link from down to training. -/
  | dlEnable (link : Nat)
  /-- DL_DISABLE (R320). Clearing dl.ctl.en takes the link down. -/
  | dlDisable (link : Nat)
  /-- DL_RETRAIN (R323). A write of 1 to dl.ctl.rt puts an up link into retraining. -/
  | dlRetrain (link : Nat) (who : Agent)
  /-- LANES_LOCKED (R320). All 16 lanes lock and the link goes up. -/
  | lanesLocked (link spi spo : Nat)
  /-- LOCK_LOSS (R320). A ring losing lock, drift or an inconsistent lane map puts the link into retraining. -/
  | lockLoss (link : Nat)
  /-- TRAINING_TIMEOUT (R320). 60 µs without lock on 16 lanes fails the link. -/
  | trainingTimeout (link : Nat)
  /-- TUNING_TIMEOUT (R325). After 30 µs of inconsistent service tuning, ownership returns to the bursar. -/
  | tuningTimeout (link : Nat)
  /-- PH_OWN_WRITE (R325). Hands link tuning to a service or back to the bursar, subject to consent. -/
  | phOwnWrite (link : Nat) (val : BitVec 64) (who : Agent)
  /-- ALLOWANCE_PERIOD (R448). At each 1 ms boundary accounts refill and waiting requests are retested. -/
  | allowancePeriod (overCeiling : Bool)
  /-- LEAVE_GRANT (R450). A waiting request for leave is granted, debiting its cost and committing its current. -/
  | leaveGrant (die : Nat)
  /-- LEAVE_AGEING (R451). A head waiting 4,096 cycles for current stops other grants on the die. -/
  | leaveAgeing (die : Nat)
  /-- LEAVE_SETTLE (R453). A completed operation settles measured energy against its cost. -/
  | leaveSettle (die id measured : Nat)
  /-- ACTIVITY_PERIOD (R459). A 1,024-cycle activity period begins and internal budgets refill. -/
  | activityPeriod (die : Nat)
  /-- DIE_SRAM_WRITE (R461). Requests economy or normal service, moving the SRAM rail in order. -/
  | dieSramWrite (die : Nat) (val : BitVec 64) (who : Agent)
  /-- ECC_MODE_CHANGE_DONE (R282). The slices finish re-encoding and the rail may move. -/
  | eccModeChangeDone (die : Nat)
  /-- CLU_OP_WRITE (R462). Requests a cluster operating point change. -/
  | cluOpWrite (die k : Nat) (val : BitVec 64) (who : Agent)
  /-- OP_POINT_CHANGE (R462). At the retirement boundaries the voltage and clock of a cluster change. -/
  | opPointChange (die k : Nat)
  /-- SVC_CTL_WRITE (R33). Changes a service's enable, class, priority ceiling or mode. -/
  | svcCtlWrite (n : Nat) (val : BitVec 64) (who : Agent)
  /-- SVC_TINV_WRITE (R256). Drops every cached copy of a descriptor or tile-map entry throughout the package. -/
  | svcTinvWrite (n : Nat) (val : BitVec 64) (who : Agent)
  /-- NF_PUT (R300). Adds a frame at the tail of a pool ring. -/
  | nfPut (set z : Nat) (val : BitVec 64) (who : Agent)
  /-- NF_DROP (R300). Removes frames from the head of a pool ring. -/
  | nfDrop (set z : Nat) (val : BitVec 64) (who : Agent)
  /-- NF_BASE_WRITE (R300). Sets a pool ring's storage and empties it. -/
  | nfBaseWrite (set z : Nat) (val : BitVec 64) (who : Agent)
  /-- HOST_MEM_READ (R479). A host CXL.mem read of the window is served at the home slice. -/
  | hostMemRead (off n : Nat)
  /-- HOST_MEM_WRITE (R479). A host CXL.mem write is performed at the home slice. -/
  | hostMemWrite (off n : Nat) (val : BitVec 256)
  /-- HOST_SNOOP (R478). A host snoop invalidates a class-10 line before it is answered; with it may come the 64 bytes that the host then
  stores there, in its own memory. -/
  | hostSnoop (pa : Nat) (val : Option (BitVec 512))
  /-- PEER_LEASE_REQUEST (R484). A peer receives a translation lease request and grants handles or refuses. With
  it come the words of the requester's descriptor, with which the local one has to agree (R483). -/
  | peerLeaseRequest (pkg svc tid : Nat) (tiles : List Nat) (write : Bool) (like : List (BitVec 64))
  /-- PEER_LEASE_REPLY (R484). Granted handles arrive and the local tile map takes class-9 frame words. -/
  | peerLeaseReply (task ri : Nat) (handles : Option (List Nat))
  /-- HANDLE_RECALL (R485). A peer recalls a handle before moving its frame (phase 0), holders pausing then resuming (1); the holder of a
  handle of this package acknowledges its recall (2). -/
  | handleRecall (handle phase : Nat)
  /-- PEER_ACCESS (R486). An access to a class-9 tile is performed at the peer's home slice. -/
  | peerAccess (a : PeerAcc)
  /-- FABRIC_TIMEOUT (R487). A fabric access without reply or hold notice within fab.tmo.us fails. -/
  | fabricTimeout (id : Nat)
  /-- CREM_SECTOR_ARRIVE (R491). A CREM sector arrives at an inbound entry and is written, held or refused; it comes from the fabric, or has
  been held here. -/
  | cremSectorArrive (m src off : Nat) (val : BitVec 256) (held : Bool)
  /-- CREM_ACK (R492). An acknowledgement or refusal of a CREM sector reaches the source. -/
  | cremAck (c ch : Nat) (ok : Bool)
  /-- HOLD_NOTICE (R491). A target holding a sector for a saved group sends a hold notice each interval. -/
  | holdNotice (c ch : Nat)
  /-- COLLECTIVE_RESULT (R494). The combined all-reduce result returns and is written back into the tile. -/
  | collectiveResult (c ch : Nat) (vals : Option (List (BitVec 256)))
  /-- RXW_WRITE (R490). Binds or unbinds an inbound entry to the group's window region. -/
  | rxwWrite (c t : Nat) (val : BitVec 64)
  /-- FGI_WRITE (R489). Configures an inbound entry, unbinding it when disabled or reassigned. -/
  | fgiWrite (m : Nat) (val : BitVec 64) (who : Agent)
  /-- NTF_WRITE (R456). Makes the writer the service's notification thread. -/
  | ntfWrite (c t : Nat) (val : BitVec 64)
  /-- BMX_CLR (R503). Clears every bank-matrix counter of a core. -/
  | bmxClr (c : Nat) (who : Agent)
  /-- ESC_RDX_WRITE (R509). Selects an escrow entry for reading through the escrow view. -/
  | escRdxWrite (die : Nat) (val : BitVec 64) (who : Agent)
  /-- DEVICE_RESET (R510). Package reset enters boot and the boot ROM verifies the firmware image. -/
  | deviceReset
  /-- FIRMWARE_VERIFY (R511). Verification accepts the image into load or sends the package to recovery. -/
  | firmwareVerify (ok : Bool) (ver : BitVec 16)
  /-- LOAD_COMPLETE (R510). The bursar finishes loading fuses, training links and writing fab.id, and the package is ready. -/
  | loadComplete
  /-- BRS_STAT_UPD (R513). Starts verification and installation of the image at brs.img. -/
  | brsStatUpd
  /-- BRS_TUNE_WRITE (R515). Grants or withdraws consent to service tuning of links. -/
  | brsTuneWrite (val : BitVec 64) (who : Agent)
  /-- ATT_CTL_GO (R517). Starts an attestation signature over the nonce and digests. -/
  | attCtlGo
  /-- ATT_SIGN_DONE (R517). The bursar writes the signature and sets att.ctl.ok. -/
  | attSignDone
  /-- DBG_STOP (R516). Asks the named thread to stop for the debug interface. -/
  | dbgStop (c t : Nat)
  /-- DBG_RELEASE (R516). Releases a stopped thread. -/
  | dbgRelease (c t : Nat)
  /-- DBG_SET_TRC_DBG (R516). Sets trc.dbg of the named thread. -/
  | dbgSetTrcDbg (c t : Nat)
  /-- DBG_CLEAR_TRC_DBG (R516). Clears trc.dbg of the named thread. -/
  | dbgClearTrcDbg (c t : Nat)
  /-- REGISTER_WRITE (R6). A write to a register without behaviour of its own sets its fields under their access codes. -/
  | registerWrite (off : Nat) (val : BitVec 64) (who : Agent)
  /-- REGISTER_READ (R6). A read of a device register whose RC fields clear in the same access, as esc.stat.hw, dl.stat.rtn, err.cnt and fgi.ref do. -/
  | registerRead (off : Nat) (who : Agent)
  /-- HOME_SLICE_WRITE (R233). A write-through store or L1 write-back reaches its home slice and is applied there, fixing its place in coherence order and making it visible. -/
  | homeSliceWrite
  /-- REMOTE_REQUEST_ARRIVE (R203). A posted remote scratchpad store or a remote Y-word operation reaches the named core and is performed at its bank or barrier object. -/
  | remoteRequestArrive (n : Nat)
  /-- SCHEDULER_REPLY (R267). The scheduler's reply to LEXT arrives, writing the result code, possibly adding a range, and releasing the held front. -/
  | schedulerReply (c t : Nat)
  /-- SRAM_RAIL_SETTLED (R461). The die's SRAM rail reaches its new set point, so that re-encoding to normal service may begin, or economy and die.sram.mv take their new values. -/
  | sramRailSettled (die : Nat)
  /-- LINK_REPLAY (R487). A fabric port's link layer detects a CRC failure and replays a flit, writing a class-5 error record. -/
  | linkReplay (port : Nat)
  /-- HOST_STORE_ACK (R478). The host acknowledges a device store to a class-10 tile, which performs the store at every scope and frees waiting releases at .sys. -/
  | hostStoreAck
  /-- PEER_LEASE_RELEASE (R484). A peer receives the release of translation-lease handles and decrements each tile's tm.lc. -/
  | peerLeaseRelease (handle : Nat)
  deriving DecidableEq, Repr

/-- The row of the opcode table. -/
def Event.row : Event → Instr
  | .vResultLand _ _ => .vResultLand
  | .copyCommandStart _ _ => .copyCommandStart
  | .sectorLands _ _ => .sectorLands
  | .copyCommandComplete _ _ => .copyCommandComplete
  | .takeTrap _ _ _ _ => .takeTrap
  | .waitTimeout _ _ => .waitTimeout
  | .vStallTimeout _ _ => .vStallTimeout
  | .escrowWaitTimeout _ _ => .escrowWaitTimeout
  | .linkstall _ _ => .linkstall
  | .sleepExpiry _ _ => .sleepExpiry
  | .loadDataArrive _ _ _ => .loadDataArrive
  | .inheritMessage _ _ _ _ => .inheritMessage
  | .atomicApply => .atomicApply
  | .slicePeriod _ => .slicePeriod
  | .urgentPromotion _ _ => .urgentPromotion
  | .tellerGrant _ => .tellerGrant
  | .stripRundownEnd _ _ => .stripRundownEnd
  | .stripScrubComplete _ _ => .stripScrubComplete
  | .fragmentSaveComplete _ _ => .fragmentSaveComplete
  | .nestComplete _ _ => .nestComplete
  | .lnqTailWrite _ _ _ _ => .lnqTailWrite
  | .gangAccept _ => .gangAccept
  | .recordFinish _ _ => .recordFinish
  | .leaseMapped _ => .leaseMapped
  | .gangStart _ => .gangStart
  | .clearingComplete _ => .clearingComplete
  | .preemptGang _ => .preemptGang
  | .gangSaveComplete _ => .gangSaveComplete
  | .gangRestore _ => .gangRestore
  | .checkerMismatch _ _ _ => .checkerMismatch
  | .residueMismatch _ _ _ => .residueMismatch
  | .taskDiscard _ => .taskDiscard
  | .scrubLine _ _ _ => .scrubLine
  | .memoryError _ _ _ _ _ => .scrubLine
  | .tileFetch _ _ _ => .tileFetch
  | .fetchComplete _ _ _ => .fetchComplete
  | .escrowApply _ _ => .escrowApply
  | .deferredAppend _ => .deferredAppend
  | .hwFramePut _ _ => .hwFramePut
  | .drawerSlotSend _ _ => .drawerSlotSend
  | .drawerReadReturn _ => .drawerReadReturn
  | .drawerWriteComplete _ => .drawerWriteComplete
  | .dlEnable _ => .dlEnable
  | .dlDisable _ => .dlDisable
  | .dlRetrain _ _ => .dlRetrain
  | .lanesLocked _ _ _ => .lanesLocked
  | .lockLoss _ => .lockLoss
  | .trainingTimeout _ => .trainingTimeout
  | .tuningTimeout _ => .tuningTimeout
  | .phOwnWrite _ _ _ => .phOwnWrite
  | .allowancePeriod _ => .allowancePeriod
  | .leaveGrant _ => .leaveGrant
  | .leaveAgeing _ => .leaveAgeing
  | .leaveSettle _ _ _ => .leaveSettle
  | .activityPeriod _ => .activityPeriod
  | .dieSramWrite _ _ _ => .dieSramWrite
  | .eccModeChangeDone _ => .eccModeChangeDone
  | .cluOpWrite _ _ _ _ => .cluOpWrite
  | .opPointChange _ _ => .opPointChange
  | .svcCtlWrite _ _ _ => .svcCtlWrite
  | .svcTinvWrite _ _ _ => .svcTinvWrite
  | .nfPut _ _ _ _ => .nfPut
  | .nfDrop _ _ _ _ => .nfDrop
  | .nfBaseWrite _ _ _ _ => .nfBaseWrite
  | .hostMemRead _ _ => .hostMemRead
  | .hostMemWrite _ _ _ => .hostMemWrite
  | .hostSnoop _ _ => .hostSnoop
  | .peerLeaseRequest _ _ _ _ _ _ => .peerLeaseRequest
  | .peerLeaseReply _ _ _ => .peerLeaseReply
  | .handleRecall _ _ => .handleRecall
  | .peerAccess _ => .peerAccess
  | .fabricTimeout _ => .fabricTimeout
  | .cremSectorArrive _ _ _ _ _ => .cremSectorArrive
  | .cremAck _ _ _ => .cremAck
  | .holdNotice _ _ => .holdNotice
  | .collectiveResult _ _ _ => .collectiveResult
  | .rxwWrite _ _ _ => .rxwWrite
  | .fgiWrite _ _ _ => .fgiWrite
  | .ntfWrite _ _ _ => .ntfWrite
  | .bmxClr _ _ => .bmxClr
  | .escRdxWrite _ _ _ => .escRdxWrite
  | .deviceReset => .deviceReset
  | .firmwareVerify _ _ => .firmwareVerify
  | .loadComplete => .loadComplete
  | .brsStatUpd => .brsStatUpd
  | .brsTuneWrite _ _ => .brsTuneWrite
  | .attCtlGo => .attCtlGo
  | .attSignDone => .attSignDone
  | .dbgStop _ _ => .dbgStop
  | .dbgRelease _ _ => .dbgRelease
  | .dbgSetTrcDbg _ _ => .dbgSetTrcDbg
  | .dbgClearTrcDbg _ _ => .dbgClearTrcDbg
  | .registerWrite _ _ _ => .registerWrite
  | .registerRead _ _ => .registerRead
  | .homeSliceWrite => .homeSliceWrite
  | .remoteRequestArrive _ => .remoteRequestArrive
  | .schedulerReply _ _ => .schedulerReply
  | .sramRailSettled _ => .sramRailSettled
  | .linkReplay _ => .linkReplay
  | .hostStoreAck => .hostStoreAck
  | .peerLeaseRelease _ => .peerLeaseRelease

end Sys2Proof.Machine
end

