-- ==== Sys2Proof/Machine/State.lean ====
section
/-!
DEFINITION. The state of one package: the threads, the cores with their scratchpads, tile tables, barrier objects and
copy channels, the dies with their fields, tellers and escrow stores, the memories, the device registers, the scheduler
with its launches and tasks, the drawer links, the fabric, and the work that units owe (the agenda). Plain data, sparse
tables with a default where the device has many like things. INVENTORY.md lists each piece with its rule.
-/

namespace Sys2Proof.Machine

/-- Byte memory: (address, byte) pairs, addresses strictly rising, none listed with the byte an unlisted address reads
as, which is 0 (log entry 4, DESIGN CHOICE; in the scratchpad by 07 R180). -/
abbrev Memory := List Host.Cell

/-! ### Threads -/

/-- The virtual channel of a request on a mesh: the service class, and the tier, urgent or normal (11 R294). -/
structure Vc where
  cls : Nat
  urgent : Bool
  deriving DecidableEq, Repr

/-- One level of hardware-loop state (05 R135-R141). -/
structure Loop where
  /-- Address of the loop word (21 Table 21.1, kind 2). -/
  addr : Word
  /-- First and last body word addresses. -/
  first : Word
  last : Word
  /-- Passes to run: `count`, or K for LOOPS. -/
  count : Nat
  /-- Index of the current pass. -/
  j : Nat
  /-- 1: a LOOPS level, with its source iterations, stage count and stage map. -/
  pipelined : Bool
  n : Nat
  stages : Nat
  map : Word
  deriving DecidableEq, Repr

/-- The three values that a CNEST holds for the next C word of a channel (13 R332). -/
structure Nest where
  counts : Word
  src : Word
  dst : Word
  deriving DecidableEq, Repr

/-- A steered word in a command queue, with what the splitter captured (02 R36, R39; 03 R76; 18 R458; 21 R499). -/
structure QEntry where
  ins : Instr
  addr : Word
  size : Nat
  seq : Nat
  frm : BitVec 2
  corr : BitVec 32
  pace : BitVec 16
  /-- The effective class of its thread was 3, for the requests that an engine sends for it (11 R294). -/
  urgent : Bool
  /-- Captured S values: the four of d's endpoint (or one), the four of a's (or one), and b's. -/
  capD : List Word
  capA : List Word
  capB : Word
  nest : Option Nest
  /-- The lease under which the word was steered (15 R373), 0 for none. -/
  lease : Nat
  /-- The steering thread: package core, slot, task. -/
  c : Nat
  t : Nat
  task : Nat
  deriving DecidableEq, Repr

/-- An entry of a data queue: reserved, and filled once its data have arrived (04 R101). -/
structure QE (α : Type) where
  val : α
  full : Bool
  /-- For an entry filled by a V word: the core cycle at which it fills (04 R111). -/
  fillAt : Nat
  /-- Number of the word that reserved it, by which a trap discards younger pushes (16 R404), and of a V word its address and correlation
  number (19 R465). -/
  seq : Nat
  addr : Word := 0
  corr : BitVec 32 := 0
  deriving DecidableEq, Repr

/-- Where a V result lands (16 R408). -/
inductive LandDst where
  | v (n : Nat)
  | m (n : Nat)
  | flags
  deriving DecidableEq, Repr

/-- A V result in flight: the bits it writes and the tick at which it lands (04 R111, R114). -/
structure Landing where
  dst : LandDst
  val : Vec
  mask : Vec
  due : Nat
  /-- The V word: its number, address and correlation number (19 R465). -/
  seq : Nat := 0
  addr : Word := 0
  corr : BitVec 32 := 0
  deriving DecidableEq, Repr

/-- A logged change of the front (05 R146). -/
inductive HistKind where
  /-- A register was written; it carried a poison mark or none. -/
  | sreg (r : Nat) (old : Word) (mark : Bool)
  | popVsq (val : Word)
  | popAsq (val : Word)
  /-- A level was opened; one was popped; the innermost one left changed. -/
  | loopOpen
  | loopPop (old : Loop)
  | loopSet (old : Loop)
  | msel (old : Nat)
  | mode (old : Nat)
  | nest (ch : Nat) (old : Option Nest)
  deriving DecidableEq, Repr

/-- A history entry with the sequence number of the word that made it. -/
structure Hist where
  seq : Nat
  kind : HistKind
  deriving DecidableEq, Repr

/-- What a trap sets aside in the bank of the level entered, and its in-flight results (16 R408, R409). -/
structure Bank where
  loops : List Loop
  tick : Nat
  vset : List QEntry
  nests : Tab Nest
  inflight : List Landing
  vwait : Bool
  deriving DecidableEq, Repr

/-- An empty bank. -/
def Bank.empty : Bank := { loops := [], tick := 0, vset := [], nests := [], inflight := [], vwait := false }

/-- The four registers of a trap level (16 R411). -/
structure TrapRegs where
  cause : BitVec 6
  /-- The cause, `epc` and `val` with which the level was entered (16 R415, R423). -/
  orig : BitVec 6 × Word × Word
  epc : Word
  val : Word
  stat : Word
  deriving DecidableEq, Repr

/-- The register files of a thread (04 Table 4.1); numbers that are not listed read zero. -/
structure Files where
  s : Tab Word
  a : Tab Word
  k : Tab (Tab (BitVec 32))
  v : Tab Vec
  m : Tab Word
  /-- Registers that carry a poison mark (19 Table 19.1, unit 9): s at 0, a at 32, k at 64. -/
  marks : List Nat := []
  deriving DecidableEq, Repr

/-- The data queues of a thread (04 R101), oldest first. -/
structure Queues where
  lq0 : List (QE Vec)
  lq1 : List (QE Vec)
  sq : List (QE Vec)
  vaq : List (QE Vec)
  svq : List (QE Word)
  vsq : List (QE Word)
  saq : List (QE Word)
  asq : List (QE Word)
  deriving DecidableEq, Repr

/-- Why and since when a stage of a thread waits (04 R105, 08 R221, R222; 12 R309, R322). -/
inductive WaitWhy where
  /-- A blocking wait, with the `trap.val` of its TIMEOUT. -/
  | block (val : Word)
  /-- A stall of the head V word on a data queue, with its `trap.val` (04 R105). -/
  | vstall (val : Word)
  /-- Behind an escrow append to a full store (12 R309). -/
  | escrow (val : Word)
  /-- On a drawer link in retraining or the fabric (12 R322, 20 R487). -/
  | link (val : Word)
  deriving DecidableEq, Repr

/-- Why a word does not take effect at its issue. -/
inductive Stop where
  /-- Its condition is not met: it stays where it is. A reason stands for a wait that a limit ends. -/
  | wait (why : Option WaitWhy)
  /-- It waits until older results have landed, and the thread is given drain ticks (04 R113). -/
  | drain
  /-- It takes a trap (16 R413). -/
  | trap (cause : BitVec 6) (val : Word)
  /-- It meets data with a poison mark, in a unit of 19 Table 19.1 on a die and core, at a location, with the fault value of
  16 R415: its task is discarded (19 R467, R472). -/
  | consume (unit die core loc : Nat) (val : Word)
  deriving DecidableEq, Repr

/-- The wait of a stage's word, counted from when the word first waited (08 R222): why it waits, or none while it waits for what no
limit ends. -/
structure Wait where
  why : Option WaitWhy
  since : Nat
  /-- The limit in force when the wait began (08 R222). -/
  limit : Nat
  deriving DecidableEq, Repr

/-- Per-thread CSRs that are plain fields (16 R425 lists their addresses). -/
structure Csrs where
  frm : BitVec 2
  fflags : BitVec 6
  srnd : Word
  waitLimit : BitVec 32
  cerr : Word
  spawnDepth : Nat
  spawnMax : BitVec 4
  ntf : Word
  paceV : BitVec 16
  paceA : BitVec 16
  paceM : BitVec 16
  paceC : BitVec 16
  leave : BitVec 32
  trc : BitVec 7
  trcLost : BitVec 32
  /-- Records dropped since the last kind-9 record (21 R500). -/
  lost9 : Nat
  corr : BitVec 32
  wpt : Tab Word
  recd : Word
  deriving DecidableEq, Repr

/-- An entry of a table that a release carries (09 R248): writer index and count, the group of the releasing thread, and whether the
release is wider than `.grp` (09 R227). -/
structure KEnt where
  w : Nat
  n : Nat
  grp : Nat
  wide : Bool
  deriving DecidableEq, Repr

/-- The race detector's state of a thread (09 R248, R252). -/
structure Race where
  en : Bool
  cmpl : Bool
  rcnt : Nat
  /-- Acquired-from table: writer index, count; at most 8. -/
  acq : List (Nat × Nat)
  /-- What synchronising reads have met that were no acquires of it, for a later FENCE with acquire (09 R229). -/
  seen : List KEnt
  /-- The number of the word that the return from a RACE exempts (16 R423). -/
  exempt : Option Nat
  deriving DecidableEq, Repr

/-- Trap state of a thread (16 R407-R412). -/
structure TrapState where
  level : Nat
  r1 : TrapRegs
  r2 : TrapRegs
  vec1 : Word
  vec2 : Word
  bank1 : Bank
  bank2 : Bank
  deriving DecidableEq, Repr

/-- How a wait of the word at the head of an access queue has ended, before the word goes on (08 R212, R215, R220). -/
inductive Woke where
  /-- The phase that a BWAIT awaits has completed. -/
  | past
  /-- BINIT has freed the BWAIT: it acquires nothing. -/
  | freed
  /-- The object of the BWAIT has been poisoned. -/
  | poison
  /-- The operation of a tagged word has been performed at its bank: the value read, none where the word carries a poison mark. -/
  | served (v : Option Word)
  deriving DecidableEq, Repr

/-- Issue state of a thread (04 R106, R112, R120; 18 R458; 16 R426). -/
structure Issue where
  /-- Last issue on the front, V and A stages: 1 + the cycle; 0 when the thread has not issued on the stage. -/
  lastF : Nat
  lastV : Nat
  lastA : Nat
  /-- The last V word's issue and the last access word's, likewise: the pacing gaps count from these (18 R458). -/
  paced : Nat × Nat
  /-- Core cycle at which a SLEEP ends. -/
  sleepEnd : Option Nat
  waitF : Option Wait
  waitV : Option Wait
  waitA : Option Wait
  /-- Stopped for the debug interface; the stop asked for, 0 none, else 1 + its kind: 0 HALT, 1 BREAK, 2 a request of the
  interface (21 R505, Table 21.1). -/
  stopped : Bool
  stopReq : Nat
  /-- The number of the word that asked for the stop (21 R497). -/
  stopSeq : Nat
  /-- The front is held until a scheduler reply to LEXT (10 R267). -/
  lext : Option (Nat × Word × Word)
  /-- A VWAIT has been steered: the front steers nothing younger until it has issued and results have landed (06 R177). -/
  vwait : Bool
  /-- The request of a remote Y word, by its number: whether it has reached the core named (07 R203). -/
  far : Option (Nat × Bool)
  /-- The tiles, by tensor and index, that a word, by its number, has forced the fetch of (12 R305). -/
  fet : Option (Nat × List (Nat × Nat))
  /-- The channel in which the requests of a word, by its number, wait on the mesh, at a slice or for a drawer slot (01 R33, 11 R294). -/
  sent : Option (Nat × Vc)
  /-- The wait of a word, by its number, has ended (08 R215, R220). -/
  woke : Option (Nat × Woke)
  /-- The widest scope of the thread's FENCEs with release, none before the first (09 R229). -/
  relAt : Option Nat
  /-- The word, by its number, whose drawer reads have been asked for (12 R317). -/
  drw : Option Nat
  /-- Sectors that have arrived from peers for a word, by its number (20 R486). -/
  inp : Option (Nat × List (Nat × BitVec 256))
  /-- A grant has reached the FLEASE or DRAW at which the front waits: the strip mask, or the amount (14 R367, 18 R454). -/
  got : Option Nat
  /-- The front's request with `try`: 0 none, 1 at the teller, 2 for leave, 3 passed over by a grant to another (14 R367, 18 R454). -/
  once : Nat
  /-- The front stands within a fetched group, with words of it left (02 R35, 04 R107). -/
  group : Bool
  /-- The front waits at a word that drain ticks serve (04 R113). -/
  drain : Bool
  /-- The thread is being pre-empted at its front position: its access words run on until then (16 R417). -/
  runOn : Bool
  /-- A write of a device register has been refused: the value of the PRIVILEGED that is owed (16 Table 16.3). -/
  refused : Option Word
  deriving DecidableEq, Repr

/-- A thread in a slot of a core (01 R16, 04 R98). -/
structure Thread where
  c : Nat
  t : Nat
  /-- Its task, the group's index in the gang and the service. -/
  task : Nat
  group : Nat
  svc : Nat
  wid : Word
  widw : Word
  pc : Word
  /-- The L word fetched at `pc`, when the next fetch merges with it (02 R49). -/
  lpre : Option (BitVec 29)
  /-- The number of the thread's next word, counted from its start: its low 16 bits are the sequence number of 02 R36. Log entry 74,
  DEDUCED. -/
  seq : Nat
  f : Files
  q : Queues
  loops : List Loop
  xq : List QEntry
  aq : List QEntry
  hist : List Hist
  land : List Landing
  tick : Nat
  trap : TrapState
  csr : Csrs
  race : Race
  issue : Issue
  /-- Own class, and the classes inherited at objects (04 R108, R109). -/
  own : Nat
  inh : Tab Nat
  /-- Objects at which it is registered: on its own core, and on others in list order (08 R209). -/
  regs : List Nat
  remote : List Nat
  /-- The phase returned by the thread's last arrival at an object (08 R216). -/
  arrived : Tab Nat
  msel : Nat
  /-- The splitter's record of the lease mode (05 R146). -/
  lmode : Nat
  nests : Tab Nest
  /-- The inline stack of SPAWN (17 R445). -/
  inl : List Word
  deriving DecidableEq, Repr

/-! ### Cores -/

/-- Tile states (07 R186); for operand slots too, with `free` (15 R376). -/
inductive TileSt where
  | empty | filling | ready | draining
  deriving DecidableEq, Repr

/-- A registered tile-table entry (07 R185). -/
structure Tile where
  base : Nat
  size : Nat
  ty : BitVec 4
  swz : BitVec 4
  st : TileSt
  /-- The entry carries a poison mark (19 Table 19.1, unit 9). -/
  mark : Bool := false
  deriving DecidableEq, Repr

/-- A barrier object (08 R206); `waiters` holds, for each waiting thread, its key and effective class. -/
structure Bar where
  phase : BitVec 12
  poison : Bool
  reload : Nat
  pend : Nat
  bytes : Int
  waiters : Tab Nat
  /-- Its words carry a poison mark (19 Table 19.1, unit 0). -/
  mark : Bool := false
  deriving DecidableEq, Repr

/-- The object of a core that nothing has set: counts 0 (08 R206, R208). -/
def Bar.init : Bar := { phase := 0, poison := false, reload := 0, pend := 0, bytes := 0, waiters := [] }

/-- Where an engine's sector goes. -/
inductive Target where
  /-- Tensor memory: service, tensor, tile index, byte offset as stored in the frame. -/
  | tensor (svc tid idx off : Nat)
  /-- Scratchpad bytes at a physical offset of a core. -/
  | sp (c off : Nat)
  /-- Operand slot: die, strip, slot, sector; sideband with it. -/
  | slot (die strip n sect : Nat)
  /-- Metadata entry of a strip. -/
  | metaQ (die strip : Nat)
  /-- A peer's window: grant number, byte offset (20 R491). -/
  | peer (grant off : Nat)
  /-- A tile of CPRO: its fetch has ended (12 R315). -/
  | fetched (svc tid idx : Nat)
  /-- A byte count only: a skipped run of CGTH (13 R343). -/
  | none
  deriving DecidableEq, Repr

/-- Where an element that an engine writes comes from. -/
inductive SrcAt where
  /-- Zero, beyond an extent (13 R331). -/
  | zero
  /-- A value, with the sideband of its block (13 R345; 15 R396). -/
  | val (v side : Nat)
  /-- A tensor: identifier, tile, logical byte offset in the tile. -/
  | tensor (tid idx off : Nat)
  /-- Scratchpad bytes: core, physical offset, and physical offset of the sideband of its block. -/
  | sp (c off : Nat) (side : Option Nat)
  deriving DecidableEq, Repr

/-- A source element; of a 4-bit one, which half of its byte holds it. -/
structure SrcEl where
  src : SrcAt
  hi : Bool
  deriving DecidableEq, Repr

/-- Part of a unit that an engine writes: byte offset in the unit, and elements in ascending place, up to 16 bytes of them. -/
structure Part where
  off : Nat
  els : List SrcEl
  /-- Elements that are written, from the first (13 R331). -/
  n : Nat
  deriving DecidableEq, Repr

/-- A unit that an engine writes, a sector but for metadata entries: its target, its parts, and what its landing counts at which
object (13 R334, R347). `side` gives, for a tile with a side tile, the physical offsets of the sideband of its parts. -/
structure Sector where
  tgt : Target
  parts : List Part
  side : List Nat
  count : Nat
  obj : Option (Nat × Nat)
  deriving DecidableEq, Repr

/-- A nest running on a fragment: how many levels, the index vector (level 0 first), the next body word, whether all
iterations are done, the completion object, and drains still landing (15 R383, R385). -/
structure NestRun where
  levels : Nat
  idx : List Nat
  word : Nat
  finished : Bool
  obj : Option (Nat × Nat)
  leaveId : Nat
  e : QEntry
  deriving DecidableEq, Repr

/-- A command in progress on a copy channel, or a drain of a fragment (13 R327, R334; 15 R396). -/
structure Run where
  e : QEntry
  /-- Service, task and group of the steering thread. -/
  svc : Nat
  grp : Nat
  /-- Units still to land, in write order, and sectors that have landed. -/
  left : List Sector
  done : Nat
  /-- Conversion code of 13 Table 13.2 and saturation; bits of a source and of a destination element; operation code of 11
  Table 11.3 for a reduction. -/
  conv : Nat
  sat : Bool
  sBits : Nat
  dBits : Nat
  red : Option Nat
  /-- The fault that stops it once the sectors before it have landed (13 R335). -/
  fault : Option (BitVec 6)
  /-- Tiles to flip at the end: core, tile entry, state on success, state after a fault. -/
  flips : List (Nat × Nat × TileSt × TileSt)
  /-- Slot to flip at the end: die, strip, slot, tag. -/
  slot : Option (Nat × Nat × Nat × BitVec 4)
  /-- Objects to poison after a fault. -/
  objs : List (Nat × Nat)
  /-- Leave granted for it, to be settled at its end (18 R453). -/
  leaveId : Nat
  /-- For a drain: the half that it drains (15 R396). -/
  half : Nat
  /-- For the next unit: the tiles whose fetch it has forced, whether the drawer blocks of its source and of its
  target have been asked for, sectors that have arrived,
  whether it has been sent to a peer or the host, and the channel in which its requests wait (01 R33, 11 R294). -/
  fet : List (Nat × Nat)
  drw : Bool
  drt : Bool
  inp : List (Nat × BitVec 256)
  sent : Bool
  vc : Option Vc
  /-- Units that have landed, of those planned (13 R335). -/
  units : Nat
  /-- For a drain: the iteration of the nest in which it began (15 R383, R396). -/
  nest : Option NestRun
  /-- A contribution to a collective: its number, and the units of the result, whose elements stand for bit offsets in it (20 R494). -/
  coll : Option Nat
  back : List Sector
  deriving DecidableEq, Repr

/-- A copy channel (13 R326, R327). -/
structure Chan where
  q : List QEntry
  run : Option Run
  /-- Cycle of its last start, for `pace.c` (18 R458). -/
  last : Nat
  /-- Leave state of the head: 0 none asked, otherwise the request's number; granted or not. -/
  leave : Nat
  granted : Bool
  deriving DecidableEq, Repr

/-- An idle channel. -/
def Chan.init : Chan := { q := [], run := none, last := 0, leave := 0, granted := false }

/-- A stamp of the race detector (09 R247). -/
structure Stamp where
  tag : Nat
  phase : Nat
  writer : Nat
  count : Nat
  deriving DecidableEq, Repr

/-- On whose behalf a request goes to the drawer or the fabric. -/
inductive Owner where
  | thread (c t : Nat)
  | chan (c ch : Nat)
  | strip (die n : Nat)
  | fetch (svc tid idx : Nat)
  | none
  deriving DecidableEq, Repr

/-- A sector held in an L1 (09 R236): fill scope of its line, the scope of its last write while dirty with the bytes
written, the task that filled it, and the stamp that it took at the fill or from the core's own stores (09 R250).
Log entry 11, DESIGN CHOICE. -/
structure L1Sect where
  data : BitVec 256
  fill : Nat
  dirty : Option Nat
  wmask : BitVec 32
  /-- Block sideband of a sector of a type-12 tensor (03 R69). -/
  side : Option (BitVec 32)
  task : Nat
  stamp : Option Stamp
  deriving DecidableEq, Repr

/-- A table kept with a synchronisation location, under a gang tag (09 R248); that of a tensor location takes an entry of the stamp store
of a slice, numbered 32 × die + slice. -/
structure Kept where
  tag : Nat
  home : Nat
  ents : List KEnt
  /-- The phase of the barrier object whose arrivals it merges; 0 for any other location. -/
  phase : Nat := 0
  deriving DecidableEq, Repr

/-- An operation that waits at a tagged word (08 R220): the word's offset, the thread with the number of its word, the tag that it waits for
and the one that it leaves, what it writes, and its scope. -/
structure TagWait where
  off : Nat
  c : Nat
  t : Nat
  seq : Nat
  want : Bool
  leaves : Bool
  val : Option Word
  scope : Nat
  deriving DecidableEq, Repr

/-- A core (01 R15): scratchpad bytes, tags (listed: full), the operations that wait at tagged words, tile table, barrier
objects, copy channels, L1, instruction cache by groups of four words (02 R35, R55), the detector's core-side tables, the bank matrix with
the banks at work, and the trace staging queue. -/
structure Core where
  sp : Memory
  tags : List Nat
  /-- Oldest first (08 R220). -/
  tagq : List TagWait
  tiles : Tab Tile
  bars : Tab Bar
  chans : Tab Chan
  l1 : Tab L1Sect
  icache : Tab (BitVec 128)
  kept : Tab Kept
  bmx : Tab Nat
  /-- Banks that serve an access for some cycles yet: the cycle at which each is free (07 R184). -/
  busy : Tab Nat
  stage : List (Word × Word × Word × Word)
  deriving DecidableEq, Repr

/-- A core that nothing has touched since reset. -/
def Core.init : Core :=
  { sp := [], tags := [], tagq := [], tiles := [], bars := [], chans := [], l1 := [], icache := [], kept := [], bmx := [], busy := [], stage := [] }

/-! ### Fields -/

/-- States of a strip (14 Table 14.2). -/
inductive StripSt where
  | free | held | saving | returning | scrubbing
  deriving DecidableEq, Repr

/-- An operand slot (15 R375, R376); `st` is none when the slot is free. -/
structure Slot where
  st : Option TileSt
  ty : BitVec 4
  data : Memory
  sb : Memory
  /-- Sectors that carry a poison mark (19 R466). -/
  marks : List Nat
  deriving DecidableEq, Repr

/-- A free slot. -/
def Slot.init : Slot := { st := none, ty := 0, data := [], sb := [], marks := [] }

/-- A weight buffer (15 R378); `ty` is none for "none". -/
structure Weights where
  ty : Option (BitVec 4)
  pair : Bool
  lo : Memory
  loSb : Memory
  hi : Memory
  hiSb : Memory
  deriving DecidableEq, Repr

/-- An empty weight buffer. -/
def Weights.empty : Weights := { ty := Option.none, pair := false, lo := [], loSb := [], hi := [], hiSb := [] }

/-- Tag of an accumulator half (15 R379). -/
inductive AccTag where
  | none | f32 | i32
  deriving DecidableEq, Repr

/-- An accumulator half: 256 × 256 elements of 32 bits by row × 256 + column, those not listed zero (15 R379). -/
structure Acc where
  tag : AccTag
  e : Tab (BitVec 32)
  undrained : Bool
  /-- Elements that carry a poison mark (19 R466). -/
  marks : List Nat
  deriving DecidableEq, Repr

/-- A half at grant. -/
def Acc.init : Acc := { tag := .none, e := [], undrained := false, marks := [] }

/-- One level of a nest table: the two captured words of MNEST (15 R381). -/
structure Level where
  a : Word
  b : Word
  deriving DecidableEq, Repr

/-- A strip of a field (14 R357, 15 R370). -/
structure Strip where
  st : StripSt
  /-- The lease that holds it: task and group; and the lease's number. -/
  task : Nat
  group : Nat
  lease : Nat
  slots : Tab Slot
  front : Weights
  back : Weights
  pending : Bool
  mq : List Vec
  acc : Tab Acc
  shadow : Tab Level
  active : Tab Level
  body : List QEntry
  abody : List QEntry
  /-- M words still to be recorded. -/
  recording : Nat
  run : Option NestRun
  drain : Option Run
  /-- A reduction owed once the running drain has landed (15 R397): the word's S[a] value and the amax pattern. -/
  amax : Option (Word × BitVec 32)
  q : List QEntry
  origin : Nat
  /-- Mode of the lease (14 R359). -/
  mode : Nat
  fault : Bool
  /-- Completion reference in force (15 R383). -/
  compl : Option (Nat × Nat)
  last : Nat
  leave : Nat
  granted : Bool
  deriving DecidableEq, Repr

/-- A free strip. -/
def Strip.init : Strip :=
  { st := .free, task := 0, group := 0, lease := 0, slots := [], front := .empty, back := .empty, pending := false,
    mq := [], acc := [], shadow := [], active := [], body := [], abody := [], recording := 0, run := Option.none,
    drain := Option.none, amax := Option.none, q := [], origin := 0, mode := 0, fault := false, compl := Option.none, last := 0,
    leave := 0, granted := false }

/-! ### Dies -/

/-- A request at the teller (14 R351): the group, shape, and whether the scheduler made it for a start or a resume. -/
structure TReq where
  task : Nat
  group : Nat
  shape : Nat
  start : Bool
  /-- The slot of the thread whose FLEASE made it. -/
  t : Nat
  /-- It enters ahead of the requests that wait: for a resume (14 R356). -/
  ahead : Bool := false
  deriving DecidableEq, Repr

/-- An escrow entry (12 R303). -/
structure Esc where
  next : Nat
  sect : Nat
  op : Nat
  ty : Nat
  seq : Nat
  mask : BitVec 32
  tag : Nat
  data : BitVec 256
  /-- The tile whose log holds it: service, tensor, tile index. -/
  svc : Nat
  tid : Nat
  idx : Nat
  deriving DecidableEq, Repr

/-- Key of a tile of a tensor of a service. -/
def tileKey (svc tid idx : Nat) : Nat := (4096 * svc + tid) * 2 ^ 32 + idx

/-- An append that waits at a full store (12 R309). -/
structure Deferred where
  svc : Nat
  tid : Nat
  idx : Nat
  sect : Nat
  op : Nat
  ty : Nat
  mask : BitVec 32
  data : BitVec 256
  tag : Nat
  /-- The appending thread and the number of its word, for the words that must wait for it, and the word's address. -/
  epc : Word
  c : Nat
  t : Nat
  task : Nat
  seq : Nat
  /-- It is of a synchronising access (09 R225). -/
  sync : Bool
  /-- The class under which it was sent (01 R33), and its word's correlation number (21 R499). -/
  cls : Nat
  corr : BitVec 32
  deriving DecidableEq, Repr

/-- Who waits for leave (18 Table 18.1). -/
inductive LeaveFor where
  | strip (s : Nat)
  | chan (c ch : Nat)
  | start (task : Nat)
  | draw (c t : Nat)
  deriving DecidableEq, Repr

/-- A request for leave (18 R449-R451): cost in µJ, estimated duration in 64ths of a cycle of a clock in MHz. -/
structure LeaveReq where
  id : Nat
  cost : Nat
  dur : Nat
  mhz : Nat
  current : Bool
  since : Nat
  who : LeaveFor
  /-- Steering thread, whose reserve may fund it. -/
  c : Nat
  t : Nat
  /-- Since when it stands at the head and lacks allowance (false), or current alone (true) (18 R451, R456). -/
  short : Option (Bool × Nat)
  /-- Its wait of a whole period has been counted (18 R456). -/
  noticed : Bool
  deriving DecidableEq, Repr

/-- A granted operation still running, with its rate r and cost (18 R450, R453). -/
structure Granted where
  id : Nat
  svc : Nat
  r : Nat
  cost : Nat
  deriving DecidableEq, Repr

/-- A line of 64 bytes in a slice of the shared cache (11 R276): its slice and way; of the sectors present, the lower by 0 and the upper by
1, the sideband, none for an unminted one (03 R92); and those that are to be written back. Their newest data is what `mem` holds. -/
structure Line where
  slice : Nat
  way : Nat
  sects : Tab (Option (BitVec 32))
  dirty : List Nat
  /-- The sectors whose sideband carries a poison mark (19 R467). -/
  bad : List Nat
  deriving DecidableEq, Repr

/-- A die (01 R12). -/
structure Die where
  strips : Tab Strip
  /-- Teller queues 0 to 3, oldest first, requests waiting to enter each, and the remaining allowances (14 R351, R352). -/
  tq : Tab (List TReq)
  enter : Tab (List TReq)
  allow : Tab Nat
  esc : Tab Esc
  escHw : Nat
  /-- Append counts of logs, by `tileKey` (12 R304). -/
  escN : Tab Nat
  defer : List Deferred
  /-- Leave queues by service, the last service granted, the granted operations, the ageing request (18 R451). -/
  leaveQ : Tab (List LeaveReq)
  leaveLast : Nat
  granted : List Granted
  ageing : Nat
  /-- Steps by which the effective limit is halved (18 R452). -/
  halved : Nat
  /-- Admitted requests of this slice period by slice × 16 + class, the allotments in force by class, and the number of the period
  (11 R279, R280). -/
  slice : Tab Nat
  allot : Tab Nat
  slicePd : Nat
  /-- The shared cache, by physical address / 64 (11 R276). -/
  cache : Tab Line
  /-- What is left of the allowances of the mesh's request channels, by 16 × tier + class, urgent first (11 R297). -/
  vc : Tab Nat
  /-- Placement allowances by 64 × class + service, those not listed at the weight of reset (17 R438). -/
  place : Tab Nat
  /-- `sc.ecc.pend`, `sc.ecc.econ`; `die.sram.mv`, `.pend` (11 R283, 18 R461). -/
  eccPend : Bool
  econ : Bool
  /-- The cycle at which the slices began to change mode (11 R282). -/
  eccSince : Nat
  sramMv : Nat
  sramPend : Bool
  /-- Work of the activity period: escrow entries applied, lines scrubbed, trace sectors (18 R459). -/
  usedEsc : Nat
  usedScr : Nat
  usedTr : Nat
  actPd : Nat
  /-- The line that scrub reads next, numbered through the memories of the die (19 R471). -/
  scrub : Nat
  /-- Cluster operating point changes that wait: cluster ↦ point (18 R462). -/
  opWant : Tab Nat
  opPt : Tab Nat
  deriving DecidableEq, Repr

/-- A die after reset. -/
def Die.init : Die :=
  { strips := [], tq := [], enter := [], allow := [], esc := [], escHw := 0, escN := [], defer := [], leaveQ := [],
    leaveLast := 63, granted := [], ageing := 0, halved := 0, slice := [], allot := [], slicePd := 0, cache := [], vc := [], place := [],
    eccPend := false, econ := false, eccSince := 0, sramMv := 780, sramPend := false, usedEsc := 0, usedScr := 0, usedTr := 0, actPd := 0, scrub := 0, opWant := [], opPt := [] }

/-! ### Tasks -/

/-- A range of a task: tensor, mode, reduce operation code, open, box (10 R260, 17 R430). -/
structure Range where
  tid : Nat
  mode : Nat
  op : Nat
  isOpen : Bool
  lo : List Nat
  hi : List Nat
  deriving DecidableEq, Repr

/-- A tile that a range of a task holds: its held frame word, the ranges holding it, its shadow frame and whether
the task has written it (10 R256, R260, R264). -/
structure Held where
  tid : Nat
  idx : Nat
  frame : Word
  count : Nat
  shadow : Option Nat
  written : Bool
  /-- Peer handle, for a class-9 tile (20 R484). -/
  handle : Option Nat
  deriving DecidableEq, Repr

/-- States of a task (17 Table 17.3). -/
inductive TaskSt where
  | waiting | ready | mapped | reserved | running | saving | saved | clearing | discarding | released
  deriving DecidableEq, Repr

/-- A group of a running or saved gang (01 R17, 07 R178), with the lease it holds (14 R369, 15 R387) and its binding
of an inbound entry (20 R490). -/
structure Group where
  task : Nat
  j : Nat
  c : Nat
  base : Nat
  size : Nat
  tbase : Nat
  tcnt : Nat
  /-- Threads that have started and not ended. -/
  live : Nat
  lease : Nat
  mask : BitVec 8
  shape : BitVec 2
  lq : BitVec 2
  mode : BitVec 2
  flt : BitVec 8
  lost : BitVec 8
  pend : Bool
  mferr : Word
  rxw : Word
  ended : Bool
  deriving DecidableEq, Repr

/-- What the save of a gang holds for one group beyond its threads: window bytes, tags, objects, tiles and poison marks, by offsets in
the window and numbers in the allotment (16 R418). -/
structure SavedGroup where
  g : Group
  sp : Memory
  tags : List Nat
  marks : List Nat
  bars : Tab Bar
  tiles : Tab Tile
  deriving DecidableEq, Repr

/-- A saved gang (16 R418): its threads and groups; the strips of its leases by group, in ascending order; the queued C words with group
and channel; and the leases granted again, by group (14 R356, R364). -/
structure Saved where
  threads : List Thread
  groups : List SavedGroup
  strips : Tab (List Strip)
  chans : List (Nat × Nat × QEntry)
  again : Tab Nat
  /-- The cycle at which its threads stopped (08 R222, 04 R120). -/
  begun : Nat
  deriving DecidableEq, Repr

/-- A save that holds nothing yet. -/
def Saved.empty : Saved := { threads := [], groups := [], strips := [], chans := [], again := [], begun := 0 }

/-- A task: one gang of a launch (01 R19, 17 R436). -/
structure Task where
  id : Nat
  svc : Nat
  queue : Nat
  launch : Nat
  gang : Nat
  /-- Acceptance number, run count, class. -/
  seq : BitVec 32
  run : Nat
  cls : Nat
  st : TaskSt
  /-- The record's header words. -/
  hdr : List Word
  ranges : List Range
  held : List Held
  /-- Ranges that LEXT has added (10 R267). -/
  extra : Nat
  /-- The tasks on which it depended when it was accepted (17 R434). -/
  deps : List Nat
  /-- The ranges for which the lease maker has asked a peer (20 R484). -/
  asked : List Nat := []
  die : Nat
  /-- Reserved or held cores, by group; leave asked and granted; grant of the lease. -/
  cores : List Nat
  leaveOk : Bool
  /-- The number of the request for the leave of its start, 0 for none. -/
  leave : Nat
  leaseOk : BitVec 8
  saved : Option Saved
  /-- What ends it before its time: 0 nothing, 1 a thread killed by a trap (16 R414), 2 containment (19 R472), 3 an
  abort of its launch (17 R442). -/
  doom : Nat
  /-- The word at which the discard arose: the thread behind it, its address and its fault value (16 R415). -/
  culprit : Option (Nat × Nat × Word × Word)
  /-- The gang tag of the race detector, and the phase it follows (09 R247, R246). -/
  tag : Nat
  deriving DecidableEq, Repr

/-- A launch record that the scheduler has begun to accept (17 R428). -/
structure Launch where
  id : Nat
  svc : Nat
  queue : Nat
  /-- Index of the record in its queue, and its slot's address. -/
  index : Nat
  addr : Nat
  hdr : List Word
  entries : List (List Word)
  total : Nat
  next : Nat
  status : Nat
  reason : Nat
  deriving DecidableEq, Repr

/-- A launch queue's state beyond its registers (17 R427, R444). -/
structure LnqSt where
  head : Nat
  acc : Nat
  raised : Bool
  deriving DecidableEq, Repr

/-- A service's state beyond its registers: `escrow.limit` (12 R308), `svc.khead` (16 R415), next acceptance number and
round-robin queue (17 R433), balance and denial (18 R447, R455), notice count and whether a waiting notice has been
written in this period (18 R456), a saved thread's latest notice. -/
structure Svc where
  escLimit : Nat
  khead : BitVec 32
  nextSeq : BitVec 32
  lastQ : Nat
  bal : Int
  /-- `alw.ref` and `alw.cap` in force since the last period boundary (18 R448). -/
  refNow : Word
  capNow : Word
  deny : Bool
  notices : BitVec 16
  waitNotice : Bool
  latest : Option Word
  /-- Save slots in use, by the task that each holds (17 R441). -/
  saves : List Nat
  deriving DecidableEq, Repr

/-- A service after reset: `escrow.limit` 64 (12 R308). -/
def Svc.init : Svc :=
  { escLimit := 64, khead := 0, nextSeq := 0, lastQ := 15, bal := 0,
    refNow := 0x8000000000000000, capNow := 0, deny := false, notices := 0, waitNotice := false,
    latest := none, saves := [] }

/-! ### Links, fabric, units in between -/

/-- States of a drawer link (12 Table 12.4), in the code order of `dl.stat.st`. -/
inductive LinkSt where
  | down | training | up | retraining | failed
  deriving DecidableEq, Repr

/-- A request waiting for a drawer slot, or sent (12 R317, R319). -/
structure DReq where
  cls : Nat
  die : Nat
  write : Bool
  pa : Nat
  who : Owner
  /-- The slot in which it was sent, counted from package reset; the answer is due four frames later. -/
  slot : Nat
  deriving DecidableEq, Repr

/-- A drawer link. -/
structure Link where
  st : LinkSt
  rtn : BitVec 16
  spi : Nat
  spo : Nat
  /-- The first slot that has not passed, counted from package reset. -/
  slot : Nat
  /-- The slot tables in force, outbound and then inbound, and the frame since which they are (12 R318). -/
  tabs : List Word
  tabFrame : Nat
  /-- The last consistent lane maps of the bursar, by ring (12 R325). -/
  lanes : List Word
  wait : List DReq
  sent : List DReq
  /-- The cycle at which training or retraining began (12 R320, R325). -/
  since : Nat
  deriving DecidableEq, Repr

/-- A link after reset: down. -/
def Link.init : Link := { st := .down, rtn := 0, spi := 0, spo := 0, slot := 0, tabs := [], tabFrame := 0, lanes := [], wait := [], sent := [], since := 0 }

/-- What a mesh message does where it arrives. -/
inductive MsgKind where
  /-- A posted remote scratchpad store: the bytes of `n` from a physical offset of a core (07 R203). -/
  | store (c off n val : Nat)
  /-- The request of a remote Y word, by its number (07 R203, 08 R205, R220). -/
  | yword (seq : Nat)
  deriving DecidableEq, Repr

/-- A message on a die's mesh (11 R294), with the step it makes when it arrives, numbered in the order of sending. -/
structure Msg where
  n : Nat
  die : Nat
  cls : Nat
  /-- It was sent in the urgent tier; it competes there, having waited (11 R294, R297). -/
  urgent : Bool
  fast : Bool
  since : Nat
  /-- The sending thread, and the core to which it goes. -/
  c : Nat
  t : Nat
  dest : Nat
  what : MsgKind
  deriving DecidableEq, Repr

/-- What a posted release leaves at its location when it is performed (09 R248): the location's key, and the table; merged for a
read-modify-write. -/
structure Leaves where
  key : Nat
  merge : Bool
  kept : Kept
  deriving DecidableEq, Repr

/-- The log to which a write or reduction on its way is appended: the sector of a tile, and the tag (12 R302). -/
structure AppendTo where
  svc : Nat
  tid : Nat
  idx : Nat
  sect : Nat
  tag : Nat
  deriving DecidableEq, Repr

/-- A load, an atomic or a transfer of an engine that waits where its owner stands, to cross a mesh (11 R294, R297): its owner and the number
of the owner's word, and what the home slice has given once it has crossed, none for a sector that carries a poison mark. -/
structure WaitReq where
  n : Nat
  who : Owner
  seq : Nat
  /-- The core, or for a strip core 0 of its die, from which it goes. -/
  c : Nat
  vc : Vc
  fast : Bool
  since : Nat
  pa : Nat
  /-- The slice is to hold the sector. -/
  fill : Bool
  got : Option (Option (BitVec 256))
  deriving DecidableEq, Repr

/-- A write-through or the write-back of a line on its way to its home slice (09 R233, R237), a request of the mesh numbered as a
message. -/
structure StoreReq where
  n : Nat
  urgent : Bool
  fast : Bool
  since : Nat
  /-- The tile, by `tileKey`, in whose own frame it is to be performed (12 R307). -/
  tile : Option Nat
  rel : Option Leaves
  pa : Nat
  data : BitVec 256
  mask : BitVec 32
  c : Nat
  t : Nat
  cls : Nat
  host : Bool
  /-- It is of a synchronising access (09 R225). -/
  sync : Bool
  /-- Block sideband of a sector of a type-12 tensor (03 R69). -/
  side : Option (BitVec 32)
  /-- It writes back a line of the core; its data carry a poison mark (19 R467). -/
  wb : Bool
  bad : Bool
  /-- Its task, the number of its word and the word's correlation number (21 R499). -/
  task : Nat
  seq : Nat
  corr : BitVec 32
  /-- It is appended to escrow. -/
  app : Option AppendTo
  /-- An engine's store to the host, whose run waits for the acknowledgement (20 R478). -/
  eng : Option Owner
  deriving DecidableEq, Repr

/-- A posted reduction of one sector on its way to its home unit (11 R285, R291, R292): operation and type by the codes of 12
R303, the bytes of its lanes. -/
structure HomeReq where
  n : Nat
  urgent : Bool
  fast : Bool
  since : Nat
  tile : Option Nat
  rel : Option Leaves
  /-- The address of its word, and the fault value of an uncorrectable error that it meets (10 R259, 19 R467). -/
  epc : Word
  val : Word
  pa : Nat
  op : Nat
  ty : Nat
  mask : BitVec 32
  data : BitVec 256
  c : Nat
  t : Nat
  cls : Nat
  task : Nat
  seq : Nat
  corr : BitVec 32
  app : Option AppendTo
  deriving DecidableEq, Repr

/-- Objects that a killed thread has still to drop: each drop is a release, and waits until the thread's posted accesses, and its core's
write-backs, that came before the kill have been performed (08 R210, R214; 09 R228). -/
structure LateDrop where
  c : Nat
  t : Nat
  task : Nat
  objs : List (Nat × Nat)
  /-- What each release leaves for the race detector, if it does (09 R248). -/
  leaves : Option (Nat × List KEnt)
  scope : Nat
  /-- Numbers of the requests and of the fabric accesses that came before: below these. -/
  req : Nat
  fab : Nat
  deriving DecidableEq, Repr

/-- A fabric access in flight (20 R486, R487). Kinds: 0 load, 1 store, 2 atomic that returns a value, 3 reduction, 4 sector of
CREM, 5 contribution to a collective. -/
structure FabReq where
  id : Nat
  pkg : Nat
  kind : Nat
  /-- Class-9 address of a tile; for kinds 4 and 5 the entry or collective number × 2^32 + byte offset. -/
  addr : Nat
  op : Nat
  data : BitVec 256
  mask : BitVec 32
  who : Owner
  since : Nat
  /-- It is a store of a synchronising access (09 R225). -/
  sync : Bool
  /-- The correlation number of the word or command behind it (21 R499). -/
  corr : BitVec 32
  /-- For a load of a thread whose core keeps the line: its fill scope, and the task (09 R236, 20 R482). -/
  fill : Option (Nat × Nat)
  deriving DecidableEq, Repr

/-- A translation lease handle of this package granted to a peer (20 R484, R485). -/
structure Handle where
  pkg : Nat
  svc : Nat
  tid : Nat
  idx : Nat
  /-- The tile's held frame word (10 R256). -/
  frame : Word
  /-- Its recall: 0 none, 1 asked of the holder, 2 acknowledged (20 R485). -/
  st : Nat
  deriving DecidableEq, Repr

/-- A message of the lease maker, or of an inbound entry, to a peer (20 R484, R485, R491). -/
inductive PeerMsg where
  /-- A translation lease is asked for, for a range of a task: the peer's service and tensor, tiles, whether the range writes, and the words of
  the local descriptor. -/
  | ask (pkg task range svc tid : Nat) (tiles : List Nat) (write : Bool) (like : List Word)
  /-- A lease is granted, with its handles, or refused. -/
  | grant (pkg : Nat) (handles : List Nat)
  | refuse (pkg : Nat)
  /-- A handle goes back to the peer that gave it. -/
  | release (pkg handle : Nat)
  /-- A handle of this package is recalled from its holder; the recall ends. -/
  | recall (pkg handle : Nat)
  | resume (pkg handle : Nat)
  /-- A handle of a peer, by bits [47:21] of its class-9 addresses, is no longer used. -/
  | recallAck (handle : Nat)
  /-- A sector for an inbound entry is held. -/
  | hold (src entry : Nat)
  deriving DecidableEq, Repr

/-- A request of a peer for a translation lease, waiting for free handles (20 R484). -/
structure LeaseAsk where
  pkg : Nat
  svc : Nat
  tid : Nat
  tiles : List Nat
  write : Bool
  /-- The words of the peer's own descriptor (20 R483). -/
  like : List Word
  deriving DecidableEq, Repr

/-- A CREM sector held for a saved group (20 R491). -/
structure HeldSector where
  m : Nat
  src : Nat
  off : Nat
  data : BitVec 256
  /-- The cycle of its last hold notice (20 R491). -/
  since : Nat
  deriving DecidableEq, Repr

/-- A fetch in progress (12 R305, R306): whether it promotes, and its step. -/
structure Fetch where
  svc : Nat
  tid : Nat
  idx : Nat
  /-- It has begun: what had been sent to the tile's frame before has arrived (12 R299). -/
  begun : Bool
  promote : Bool
  /-- New near frame and the drawer frame left behind. -/
  near : Nat
  drawer : Nat
  deriving DecidableEq, Repr

/-- A hardware put waiting for room in a pool ring (12 R301), with the task whose clearing or discard made it, 0 for none. -/
structure HwPut where
  set : Nat
  z : Nat
  frame : Nat
  task : Nat
  deriving DecidableEq, Repr

/-- Bring-up, update and attestation (22 R510-R517). -/
structure Bursar where
  /-- `brs.stat.st`: 0 boot, 1 load, 2 ready, 3 recovery. -/
  st : Nat
  ver : BitVec 16
  /-- The minimum to which images that have run have raised the fused one. -/
  svn : BitVec 16
  updating : Bool
  installed : Option (BitVec 16)
  nonce : Tab Word
  /-- The nonce that the running signature covers. -/
  signing : Tab Word
  sig : BitVec 512
  busy : Bool
  ok : Bool
  pkg : BitVec 10
  deriving DecidableEq, Repr

/-- The agent whose move it is: the thread and the word that `exec` runs, with what the splitter captured. It is the
model's own field: the device has many agents, a step has one. -/
structure Cur where
  c : Nat
  t : Nat
  /-- The word stands at the front; otherwise it left the head of a queue. -/
  front : Bool
  e : QEntry
  /-- For a device step: the step, with the unit and the values it is about. -/
  ev : Option Event
  /-- For an M word that left a fragment's queue, or stands in a nest's body: die, driving strip, and whether the nest runs it. -/
  unit : Option (Nat × Nat × Bool)
  /-- The word waits: its stage was not ready in this step (04 R106). -/
  stalled : Bool
  deriving DecidableEq, Repr

/-- Why the machine stops. -/
inductive Fault where
  /-- A word was to be executed for a thread that is not there. Raised by `exec` of a word when `State.cur` names no
  running thread; `step` never does that. SAFE: the device has no such event. -/
  | noThread
  /-- A device step was to be made that `State.cur` does not name. Raised by `exec` of a row without a word when
  `State.cur.ev` holds no step of that row; `step` never does that. SAFE: the device has no such event. -/
  | noEvent
  deriving DecidableEq, Repr

/-- Why a step has no meaning. -/
inductive Refusal where
  /-- The arm of the instruction has no meaning yet. SAFE. -/
  | notModelled (mnemonic : String)
  deriving DecidableEq, Repr

/-- The package. -/
structure State where
  /-- Core cycles since reset (00 R1), and the counter that the free values are applied to (the model's own). -/
  now : Nat
  freeCount : Nat
  cur : Cur
  /-- Work that units owe and inputs that have reached the device, in order: the next step takes the first. -/
  agenda : List Event
  threads : List Thread
  cores : Tab Core
  groups : List Group
  dies : Tab Die
  svcs : Tab Svc
  tasks : List Task
  launches : List Launch
  lnq : Tab LnqSt
  /-- The service and queue of the gang for which acceptance waits for room in the range table (17 R433). -/
  waitAcc : Option (Nat × Nat)
  nextTask : Nat
  nextLaunch : Nat
  nextLease : Nat
  nextLeave : Nat
  /-- Physical memory of location classes 0 to 8 and 10, by 52-bit address (10 Table 10.2). -/
  mem : Memory
  /-- Sectors of memory that carry a poison mark, by address / 32 (19 R466, R467); scratchpad words that carry one, by
  core × 2^21 + offset. -/
  poison : List Nat
  spPoison : List Nat
  /-- Device registers written since reset, by offset in location class 11. -/
  regs : Tab Word
  /-- Copies of descriptors that the lease maker and the cores hold, by service × 4096 + tensor (10 R256; log entry 38, DESIGN CHOICE). -/
  dcache : Tab (List Word)
  links : Tab Link
  nextMsg : Nat
  mesh : List Msg
  storeQ : List StoreReq
  homeQ : List HomeReq
  waits : List WaitReq
  drops : List LateDrop
  fab : List FabReq
  nextFab : Nat
  handles : Tab Handle
  /-- Requests of peers that wait for handles, and accesses of peers that wait at their tiles, in order of arrival; handles of peers that
  are recalled, as bits [47:21] of their class-9 addresses, and those of them for which the acknowledgement is still owed (20 R484-R486). -/
  leaseAsks : List LeaseAsk
  peerQ : List PeerAcc
  /-- Writes of `svc.tinv` that wait for recalls: service and value (10 R256, 20 R485). -/
  tinvQ : List (Nat × Word)
  paused : List Nat
  ackOwed : List Nat
  /-- Messages for peers, oldest first (the host interface's view). -/
  peerOut : List PeerMsg
  /-- The tasks whose requests for pre-emption have arrived during a save, in order (16 R419). -/
  preQ : List Nat
  heldSectors : List HeldSector
  fetches : List Fetch
  hwPuts : List HwPut
  pools : Tab (Nat × Nat)
  stamps : Tab Stamp
  /-- Tables kept with synchronisation locations in tensor memory, by physical address (09 R248). -/
  keptMem : Tab Kept
  hostLines : List Nat
  /-- Number of the allowance period in force (18 R448). -/
  alwPd : Nat
  brs : Bursar
  /-- MSI-X messages sent, oldest first; the answer to the last register or host read (the host interface's view). -/
  msix : List Nat
  answer : BitVec 256
  deriving DecidableEq, Repr

/-- The canonical form of a byte memory: addresses strictly rising, no byte listed that an unlisted address reads as. -/
def Memory.wf : Memory → Bool
  | [] => true
  | [(_, b)] => b != 0
  | (a, b) :: (a', b') :: r => b != 0 && decide (a < a') && Memory.wf ((a', b') :: r)

/-- A queue entry that stands for no word (the model's own, for `Cur` at reset). -/
def QEntry.blank : QEntry :=
  { ins := .limm 0, addr := 0, size := 4, seq := 0, frm := 0, corr := 0, pace := 0, urgent := false, capD := [], capA := [], capB := 0,
    nest := Option.none, lease := 0, c := 0, t := 0, task := 0 }

/-- The package right after reset (01 R14, 22 R510): every slot empty, `brs.stat.st` boot, nothing written. Log entry 7, DESIGN CHOICE. -/
def State.reset : State :=
  { now := 0, freeCount := 0,
    cur := { c := 0, t := 0, front := true, e := QEntry.blank, ev := none, unit := Option.none, stalled := false },
    agenda := [], threads := [],
    cores := [], groups := [], dies := [], svcs := [], tasks := [], launches := [], lnq := [], waitAcc := Option.none, nextTask := 1,
    nextLaunch := 1, nextLease := 1, nextLeave := 1, mem := [], poison := [], spPoison := [], regs := [], dcache := [], links := [],
    nextMsg := 0, mesh := [], storeQ := [], homeQ := [], waits := [], drops := [], fab := [], nextFab := 1, handles := [], leaseAsks := [], peerQ := [], tinvQ := [],
    paused := [], ackOwed := [], peerOut := [], preQ := [], heldSectors := [], fetches := [], hwPuts := [],
    pools := [], stamps := [], keptMem := [], hostLines := [], alwPd := 0,
    brs := { st := 0, ver := 0, svn := 0, updating := false, installed := Option.none, nonce := [], signing := [], sig := 0,
             busy := false, ok := false, pkg := 0 },
    msix := [], answer := 0 }

end Sys2Proof.Machine
end

