-- ==== Sys2Proof/Machine/Mem.lean ====
section
/-!
DEFINITION. Byte memory and the accessors of State: reads and writes of one byte and of little-endian runs (00 R3), and
the lookups and updates of threads, cores, dies, services, tasks and groups. Every other file reads and writes through
them.
-/

namespace Sys2Proof.Machine

/-! ### Byte memory -/

/-- One byte; an unlisted address reads as 0 (log entry 4, DESIGN CHOICE). -/
def Memory.get : Memory → Nat → Byte
  | [], _ => 0
  | (x, y) :: r, a => if a = x then y else Memory.get r a

/-- Writes one byte and keeps the canonical form. -/
def Memory.put : Memory → Nat → Byte → Memory
  | [], a, b => if b = 0 then [] else [(a, b)]
  | (x, y) :: r, a, b =>
    if a < x then (if b = 0 then (x, y) :: r else (a, b) :: (x, y) :: r)
    else if a = x then (if b = 0 then r else (a, b) :: r)
    else (x, y) :: Memory.put r a b

/-- The natural value of `n` bytes from `a`, the lowest address least significant (00 R3). -/
def Memory.getN (m : Memory) (a : Nat) : Nat → Nat
  | 0 => 0
  | n + 1 => (m.get a).toNat + 256 * Memory.getN m (a + 1) n

/-- Writes the low `n` bytes of a natural value from `a`. -/
def Memory.putN (m : Memory) (a : Nat) : Nat → Nat → Memory
  | 0, _ => m
  | n + 1, v => Memory.putN (m.put a (BitVec.ofNat 8 v)) (a + 1) n (v / 256)

/-- Writes those of `n` bytes from `a` whose bit of `mask` is 1. -/
def Memory.putMask (m : Memory) (a : Nat) : Nat → Nat → Nat → Memory
  | 0, _, _ => m
  | n + 1, v, mask =>
    Memory.putMask (if mask % 2 = 1 then m.put a (BitVec.ofNat 8 v) else m) (a + 1) n (v / 256) (mask / 2)

/-- A 64-bit word. -/
def Memory.word (m : Memory) (a : Nat) : Word := BitVec.ofNat 64 (m.getN a 8)

/-- Writes a 64-bit word. -/
def Memory.putWord (m : Memory) (a : Nat) (w : Word) : Memory := m.putN a 8 w.toNat

/-- `n` consecutive 64-bit words. -/
def Memory.words (m : Memory) (a : Nat) : Nat → List Word
  | 0 => []
  | n + 1 => m.word a :: Memory.words m (a + 8) n

/-- Sets `n` bytes from `a` to zero. -/
def Memory.clear (m : Memory) (a n : Nat) : Memory := m.filter (fun p => p.1 < a || a + n ≤ p.1)

/-- The `n` bytes from `a`, as a memory that starts at 0. -/
def Memory.slice (m : Memory) (a n : Nat) : Memory :=
  (m.filter (fun p => a ≤ p.1 && p.1 < a + n)).map (fun p => (p.1 - a, p.2))

/-- Writes every byte of `x` at its address plus `a`. -/
def Memory.blit (m : Memory) (a : Nat) : Memory → Memory
  | [] => m
  | (k, b) :: r => Memory.blit (m.put (a + k) b) a r

/-! ### Bits of natural numbers and words -/

/-- Bits [hi:lo] of a word, as a natural value. -/
def fld (w : Word) (hi lo : Nat) : Nat := w.toNat / 2 ^ lo % 2 ^ (hi + 1 - lo)

/-- A bit of a word. -/
def bit (w : Word) (i : Nat) : Bool := w.getLsbD i

/-- The word of a natural value. -/
def wd (n : Nat) : Word := BitVec.ofNat 64 n

/-- The 16-bit sequence number of a thread's word (02 R36): its number wraps modulo 65,536 (log entry 74, DEDUCED). -/
def seq16 (n : Nat) : Nat := n % 2 ^ 16

/-- Bit `b` as a natural number. -/
def b2n (b : Bool) : Nat := if b then 1 else 0

/-! ### Accessors of State -/

/-- The running thread in slot `t` of package core `c`. -/
def State.thread? (s : State) (c t : Nat) : Option Thread :=
  s.threads.find? (fun th => th.c == c && th.t == t)

/-- Puts a thread back in its slot. -/
def State.setThread (s : State) (th : Thread) : State :=
  { s with threads := s.threads.map (fun x => if x.c == th.c && x.t == th.t then th else x) }

/-- Updates a thread, if the slot holds one. -/
def State.modThread (s : State) (c t : Nat) (f : Thread → Thread) : State :=
  { s with threads := s.threads.map (fun x => if x.c == c && x.t == t then f x else x) }

/-- Frees a slot. -/
def State.dropThread (s : State) (c t : Nat) : State :=
  { s with threads := s.threads.filter (fun x => !(x.c == c && x.t == t)) }

def State.core (s : State) (c : Nat) : Core := s.cores.get Core.init c
def State.setCore (s : State) (c : Nat) (k : Core) : State := { s with cores := s.cores.set c k }
def State.modCore (s : State) (c : Nat) (f : Core → Core) : State := s.setCore c (f (s.core c))
def State.die (s : State) (d : Nat) : Die := s.dies.get Die.init d
def State.setDie (s : State) (d : Nat) (x : Die) : State := { s with dies := s.dies.set d x }
def State.modDie (s : State) (d : Nat) (f : Die → Die) : State := s.setDie d (f (s.die d))
def State.svc (s : State) (n : Nat) : Svc := s.svcs.get Svc.init n
def State.setSvc (s : State) (n : Nat) (x : Svc) : State := { s with svcs := s.svcs.set n x }
def State.modSvc (s : State) (n : Nat) (f : Svc → Svc) : State := s.setSvc n (f (s.svc n))
def State.task? (s : State) (id : Nat) : Option Task := s.tasks.find? (fun t => t.id == id)
def State.modTask (s : State) (id : Nat) (f : Task → Task) : State :=
  { s with tasks := s.tasks.map (fun t => if t.id == id then f t else t) }
def State.group? (s : State) (task j : Nat) : Option Group := s.groups.find? (fun g => g.task == task && g.j == j)
def State.modGroup (s : State) (task j : Nat) (f : Group → Group) : State :=
  { s with groups := s.groups.map (fun g => if g.task == task && g.j == j then f g else g) }
def State.link (s : State) (l : Nat) : Link := s.links.get Link.init l
def State.setLink (s : State) (l : Nat) (x : Link) : State := { s with links := s.links.set l x }
def State.modLink (s : State) (l : Nat) (f : Link → Link) : State := s.setLink l (f (s.link l))
def Die.strip (d : Die) (n : Nat) : Strip := d.strips.get Strip.init n
def Die.setStrip (d : Die) (n : Nat) (x : Strip) : Die := { d with strips := d.strips.set n x }
def State.strip (s : State) (d n : Nat) : Strip := (s.die d).strip n
def State.setStrip (s : State) (d n : Nat) (x : Strip) : State := s.modDie d (·.setStrip n x)
def State.modStrip (s : State) (d n : Nat) (f : Strip → Strip) : State := s.setStrip d n (f (s.strip d n))
def Core.bar (c : Core) (o : Nat) : Bar := c.bars.get Bar.init o
def Core.chan (c : Core) (n : Nat) : Chan := c.chans.get Chan.init n
def State.chan (s : State) (c ch : Nat) : Chan := (s.core c).chan ch
def State.setChan (s : State) (c ch : Nat) (x : Chan) : State :=
  s.modCore c (fun k => { k with chans := k.chans.set ch x })
def State.modChan (s : State) (c ch : Nat) (f : Chan → Chan) : State := s.setChan c ch (f (s.chan c ch))

/-- Adds work to the end of the agenda. -/
def State.later (s : State) (is : List Event) : State := { s with agenda := s.agenda ++ is }

/-- A free value's next index (the log entries of Config). -/
def State.bump (s : State) : State := { s with freeCount := s.freeCount + 1 }

/-- The die of a package core (01 R13). -/
def dieOf (c : Nat) : Nat := c / 32

/-- The cluster of a package core, 0 to 3 on its die (01 R14). -/
def clusterOf (c : Nat) : Nat := c % 32 / 8

end Sys2Proof.Machine
end

