-- ==== Sys2Proof/Machine/Ports.lean ====
section
/-!
DEFINITION. The front of a thread: queue ports of the s file (02 R46, 05 R122), the history of run-ahead changes
(05 R146-R148), the hardware loops (05 R135-R144) and the order of sequence numbers (02 R36, 16 R406).
-/

namespace Sys2Proof.Machine

/-! ### Sequence numbers -/

/-- Number `x` is older than number `y` (16 R406; log entry 74, DEDUCED). -/
def older (x y : Nat) : Bool := decide (x < y)

/-- A word with number `q` is at the horizon: no older A or Y word waits in the access queue (05 R146; an A or Y word
leaves the queue when it has passed its last trap point, 16 R405). -/
def Thread.atHorizon (th : Thread) (q : Nat) : Bool :=
  match th.aq with
  | [] => true
  | e :: _ => !(older e.seq q)

/-! ### Queue entries -/

/-- The words between the horizon and the front number no fewer than 64 + 32 + 32 + 64 + 4 × 32 (16 R406), or 64 history entries are held
(05 R147): the front steers nothing. Log entry 74, DEDUCED. -/
def Thread.frontFull (th : Thread) : Bool :=
  decide (64 ≤ th.hist.length) || (match th.aq with
    | [] => false
    | e :: _ => decide (e.seq + 320 ≤ th.seq))

/-- The head of a data queue can be popped (04 R102). -/
def headReady {α : Type} (now : Nat) : List (QE α) → Bool
  | [] => false
  | e :: _ => e.full && decide (e.fillAt ≤ now)

/-- The head of a data queue can be popped by word `q`: no younger word has reserved it (16 R404, R405). Log entry 75, DEDUCED. -/
def headReadyFor {α : Type} (now q : Nat) (l : List (QE α)) : Bool :=
  headReady now l && (match l with
    | [] => false
    | e :: _ => !older q e.seq)

/-- A push that every word now counts as an older word's (log entry 75, DEDUCED). -/
def QE.past {α : Type} (e : QE α) : QE α := { e with seq := 0 }

/-- The head's value; only read where `headReady` holds. -/
def headVal {α : Type} (d : α) : List (QE α) → α
  | [] => d
  | e :: _ => e.val

/-- Room for one more entry (04 Table 4.2). -/
def room {α : Type} (depth : Nat) (q : List (QE α)) : Bool := decide (q.length < depth)

/-- An entry that is filled at once. -/
def QE.now {α : Type} (v : α) (q : Nat) : QE α := { val := v, full := true, fillAt := 0, seq := q }

/-! ### The history -/

/-- Records a change that must be undone if an A or Y word traps that has been steered; with none left nothing is recorded (05 R146,
R147). The loop-back of such a word itself is recorded too (05 R139). -/
def Thread.log (th : Thread) (k : HistKind) : Thread :=
  if th.aq.isEmpty then th else { th with hist := th.hist ++ [{ seq := th.seq, kind := k }] }

/-- Frees the entries that no steered A or Y word can undo any longer (05 R147). -/
def Thread.prune (th : Thread) : Thread :=
  { th with hist := match th.aq with
    | [] => []
    | e :: _ => th.hist.filter (fun h => !(older h.seq e.seq)) }

/-- Undoes one change (05 R148). -/
def Thread.undo1 (th : Thread) (h : Hist) : Thread :=
  match h.kind with
  | .sreg r old m => { th with f := { th.f with s := th.f.s.set r old, marks := if m then r :: th.f.marks else th.f.marks } }
  | .popVsq v => { th with q := { th.q with vsq := QE.now v h.seq :: th.q.vsq } }
  | .popAsq v => { th with q := { th.q with asq := QE.now v h.seq :: th.q.asq } }
  | .loopOpen => { th with loops := th.loops.tail }
  | .loopPop l => { th with loops := l :: th.loops }
  | .loopSet l => { th with loops := l :: th.loops.tail }
  | .msel old => { th with msel := old }
  | .mode old => { th with lmode := old }
  | .nest ch (some n) => { th with nests := th.nests.set ch n }
  | .nest ch .none => { th with nests := th.nests.del ch }

/-- Undoes every change of word `q`, which made none but a loop-back, and of younger words, the youngest first (05 R139, R148). -/
def Thread.undo (th : Thread) (q : Nat) : Thread :=
  let young := th.hist.filter (fun h => !(older h.seq q))
  { young.reverse.foldl Thread.undo1 th with hist := th.hist.filter (fun h => older h.seq q) }

/-! ### The s file -/

/-- The place number of a register in an error record (19 Table 19.2): the slot in [10:8] and the register in [7:0], `s` from 0, `a` from 32, `k`
from 64. Log entry 84, DESIGN CHOICE. -/
def regLoc (t r : Nat) : Nat := 256 * t + r

/-- No register that a word reads carries a poison mark; one that does is consumed (19 R466, R467). -/
def Thread.clean (th : Thread) (rs : List Nat) : Except Stop Unit :=
  match rs.find? (fun r => th.f.marks.contains r) with
  | some r => .error (.consume 9 (dieOf th.c) (th.c % 32) (regLoc th.t r) (wd (regLoc th.t r)))
  | none => .ok ()

/-- A write of a register ends its poison mark: the data are replaced (19 R467). -/
def Files.fresh (f : Files) (r : Nat) : Files := { f with marks := f.marks.filter (· ≠ r) }

/-- The value that a source field reads: s0 zero, a pop port its head, else the register (05 R122). -/
def Thread.sVal (th : Thread) (r : BitVec 5) : Word :=
  if r = 0 then 0 else if r = 28 then headVal 0 th.q.vsq else if r = 29 then headVal 0 th.q.asq
  else th.f.s.get 0 r.toNat

/-- Every pop port that the source fields name can pop, else the port that cannot, `vsq` and then `asq` (05 R122, 04 R103); and no register
that they name is marked (19 R467). Log entry 76, DESIGN CHOICE. -/
def Thread.sReady (th : Thread) (now : Nat) (rs : List (BitVec 5)) : Except Stop Unit :=
  if rs.contains 28 && !(headReady now th.q.vsq) then .error (.wait (some (.block 28)))
  else if rs.contains 29 && !(headReady now th.q.asq) then .error (.wait (some (.block 29)))
  else th.clean (rs.map (·.toNat))

/-- Pops each port that the source fields name, once (04 R103). -/
def Thread.sPop (th : Thread) (rs : List (BitVec 5)) : Thread :=
  let th1 := if rs.contains 28 then
      { th.log (.popVsq (headVal 0 th.q.vsq)) with q := { th.q with vsq := th.q.vsq.tail } } else th
  if rs.contains 29 then
    { th1.log (.popAsq (headVal 0 th1.q.asq)) with q := { th1.q with asq := th1.q.asq.tail } } else th1

/-- A destination field that names a push port has room, else the port (05 R122). -/
def Thread.sRoom (th : Thread) (d : BitVec 5) : Except Stop Unit :=
  if d = 30 && !(room 16 th.q.saq) then .error (.wait (some (.block 30)))
  else if d = 31 && !(room 16 th.q.svq) then .error (.wait (some (.block 31)))
  else .ok ()

/-- Writes an s destination: s0 discards, s30 and s31 push, else the register (05 R122). -/
def Thread.sPut (th : Thread) (d : BitVec 5) (x : Word) : Thread :=
  if d = 0 then th
  else if d = 30 then { th with q := { th.q with saq := th.q.saq ++ [QE.now x th.seq] } }
  else if d = 31 then { th with q := { th.q with svq := th.q.svq ++ [QE.now x th.seq] } }
  else { th.log (.sreg d.toNat (th.f.s.get 0 d.toNat) (th.f.marks.contains d.toNat)) with
    f := { th.f.fresh d.toNat with s := th.f.s.set d.toNat x } }

/-! ### Hardware loops -/

/-- The loop-back test at the word whose address is `a` (05 R137). -/
def loopBack (a : Word) : List Loop → Word → List Loop × Word
  | [], pc => ([], pc)
  | l :: r, pc =>
    if l.last = a then
      if l.j + 1 < l.count then ({ l with j := l.j + 1 } :: r, l.first) else loopBack a r pc
    else (l :: r, pc)

/-- A taken transfer from address `a` to `t` pops the levels that it leaves (05 R138). -/
def leaveLoops (a t : Word) : List Loop → List Loop
  | [] => []
  | l :: r =>
    if l.first ≤ a && a ≤ l.last && !(l.first ≤ t && t ≤ l.last) then leaveLoops a t r else l :: r

/-- The history entries of a change of the loop state, one for each level opened, popped or changed (05 R146). -/
def loopHist (old new : List Loop) : List HistKind :=
  if old.length < new.length then [.loopOpen]
  else
    let k := old.length - new.length
    (old.take k).map .loopPop ++ (match old.drop k, new with
      | o :: _, n :: _ => if o = n then [] else [.loopSet o]
      | _, _ => [])

/-- Changes the loop state, with its history entries (05 R146). -/
def Thread.setLoops (th : Thread) (ls : List Loop) : Thread :=
  { (loopHist th.loops ls).foldl Thread.log th with loops := ls }

/-- The word at address `a` is active in the innermost level, if that is a LOOPS level (05 R141). -/
def Loop.active (l : Loop) (a : Word) : Bool :=
  if l.pipelined && l.first ≤ a && a ≤ l.last then
    let i := (a - l.first).toNat / 4
    let st := l.map.toNat / 2 ^ (2 * i) % 4
    decide (st ≤ l.j) && decide (l.j - st < l.n)
  else true

/-- Moves past a word: to `tgt`, or to the word after it with the loop-back test (05 R133, R137). The word takes its
sequence number (02 R36), and the stage has issued in this cycle (04 R106). A transfer ends the group of four words that the front
fetched, as the last of them does (02 R35, 04 R107); so do YIELD, which marks the front as having issued, and SLEEP (04 R118, R120). -/
def Thread.advance (th : Thread) (e : QEntry) (tgt : Option Word) (now : Nat) : Thread :=
  let th1 : Thread := match tgt with
    | some p => { th with pc := p }
    | none =>
      let r := loopBack (e.addr + wd e.size - 4) th.loops (e.addr + wd e.size)
      { th.setLoops r.1 with pc := r.2 }
  { th1 with seq := th.seq + 1, lpre := none,
             issue := { th1.issue with lastF := now + 1, waitF := none, drain := false,
                                       group := tgt.isNone && th1.pc == e.addr + wd e.size && th1.pc &&& 15#64 != 0 &&
                                         th.issue.lastF != now + 1 && th.issue.sleepEnd.isNone } }

/-- The wait is one on a link or the fabric. -/
def WaitWhy.isLink : WaitWhy → Bool
  | .link _ => true
  | _ => false

/-- Takes note that a stage's word waits: its count began when it first waited, for whatever reason it waits now (08 R222); that of a wait on
a link when the access first waited on the link (12 R322). -/
def Wait.note (old : Option Wait) (why : Option WaitWhy) (now : Nat) (limit : Nat) : Option Wait :=
  match why, old with
  | some w, some o =>
    if w.isLink && !o.why.any WaitWhy.isLink then some { why := some w, since := now, limit := limit } else some { o with why := some w }
  | none, some o => some { o with why := if o.why.any WaitWhy.isLink then o.why else none }
  | none, none => none
  | some w, none => some { why := some w, since := now, limit := limit }

/-- The bits of the word at hand, with its L word in [63:32] (02 R52). -/
def QEntry.wordVal (e : QEntry) : Word :=
  match e.ins.preOf with
  | some p => (0x7#3 ++ p) ++ e.ins.encodeWord
  | none => 0x0#32 ++ e.ins.encodeWord

/-- The address of the word after the instruction (05 R134). -/
def QEntry.after (e : QEntry) : Word := e.addr + wd e.size

/-! ### Immediates -/

/-- The immediate of a word, sign-extended, merged with its L word's 29 bits where it has one (02 R49). -/
def immS {n : Nat} (i : BitVec n) (pre : Option (BitVec 29)) : Word :=
  match pre with
  | none => i.signExtend 64
  | some p => (p ++ i).signExtend 64

/-- The immediate of a word, zero-extended (02 R49). -/
def immZ {n : Nat} (i : BitVec n) (pre : Option (BitVec 29)) : Word :=
  match pre with
  | none => i.setWidth 64
  | some p => (p ++ i).setWidth 64

end Sys2Proof.Machine
end

