-- ==== Sys2Proof/Machine/Bars.lean ====
section
/-!
DEFINITION. Scratchpad references and barrier objects: windows (07 R178-R183), object references (08 R205), the update
and completion of an object (08 R207), registration (08 R209), priority inheritance (04 R108, R109).
-/

namespace Sys2Proof.Machine

/-! ### Groups and references -/

/-- The group of a thread. -/
def State.groupOf? (s : State) (th : Thread) : Option Group := s.group? th.task th.group

/-- The group of a task on a core (07 R181: at most one). -/
def State.groupOn? (s : State) (task c : Nat) : Option Group := s.groups.find? (fun g => g.task == task && g.c == c)

/-- The group whose window a reference of the form of R181 names, for a thread of `task` and `group` on core `c`; none
where a field breaks its rule (07 R181). -/
def State.refGroup (s : State) (task j c : Nat) (x : Word) : Option Group :=
  if fld x 63 30 ≠ 0 then none
  else if bit x 29 then
    if fld x 28 26 ≠ dieOf c then none else s.groupOn? task (32 * dieOf c + fld x 25 21)
  else if fld x 28 21 ≠ 0 then none
  else s.group? task j

/-- Bytes of a group's window (07 R179). -/
def Group.bytes (g : Group) : Nat := 65536 * g.size

/-- The byte at window offset `o` lies in the barrier region (07 R183). -/
def Group.inBarriers (g : Group) (o : Nat) : Bool := decide (0x1FC000 ≤ 65536 * g.base + o)

/-- The object that a reference names: core and core object (08 R205). The value of its BOUNDS is `r`, or `r` with the
index where the index lies beyond the window. Log entry 26, DEDUCED. -/
def State.objRef (s : State) (task j c : Nat) (r : Word) (idx : Nat) : Except Stop (Nat × Nat) :=
  if fld r 63 30 ≠ 0 || fld r 20 10 ≠ 0 then .error (.trap 0x11 r)
  else match s.refGroup task j c r with
    | none => .error (.trap 0x11 r)
    | some g =>
      let b := fld r 9 0 + idx
      if 32 * g.size ≤ b then .error (.trap 0x11 (r + wd idx)) else .ok (g.c, 32 * g.base + b)

/-- The key of an object in registration lists and tables: core × 1,024 + core object. -/
def obKey (o : Nat × Nat) : Nat := 1024 * o.1 + o.2

/-! ### Objects -/

/-- Highest class among the waiters (08 R206, `bar.wcls`). -/
def Bar.wcls (b : Bar) : Nat := b.waiters.foldl (fun m p => max m p.2) 0

/-- The test after an update (08 R207). -/
def Bar.test (b : Bar) : Bar :=
  let b1 := if b.bytes < 0 then { b with poison := true } else b
  if b1.pend = 0 && b1.bytes = 0 then { b1 with phase := b1.phase + 1, pend := b1.reload, waiters := [] } else b1

/-- One awaited arrival less; below zero it stays at zero and poisons (08 R207). -/
def Bar.arrive1 (b : Bar) : Bar := if b.pend = 0 then { b with poison := true } else { b with pend := b.pend - 1 }

/-- An arrival (08 R213, BARV). -/
def Bar.arrive (b : Bar) : Bar := b.arrive1.test

/-- An arrival that leaves for good (08 R213, BARD). -/
def Bar.drop (b : Bar) : Bar :=
  let b1 := b.arrive1
  (if b1.reload = 0 then { b1 with poison := true } else { b1 with reload := b1.reload - 1 }).test

/-- `n` more bytes are awaited, with or without an arrival (08 R213, BEXP); the sum wraps in 64 bits. Log entry 81, DESIGN CHOICE. -/
def Bar.expect (b : Bar) (n : Int) (arv : Bool) : Bar :=
  let b1 := { b with bytes := (b.bytes + n).bmod (2 ^ 64) }
  (if arv then b1.arrive1 else b1).test

/-- An engine delivers `n` bytes (08 R217). -/
def Bar.deliver (b : Bar) (n : Nat) : Bar := { b with bytes := (b.bytes - n).bmod (2 ^ 64) }.test

/-- A faulting engine or a kill poisons the object (08 R210, 13 R335). -/
def Bar.setPoison (b : Bar) : Bar := { b with poison := true }

/-- Set up for a count, all waiters released (08 R212). -/
def Bar.initTo (b : Bar) (c : Nat) : Bar :=
  { phase := b.phase + 1, poison := false, reload := c, pend := c, bytes := 0, waiters := [] }

/-- The offset of an object of a core in its scratchpad (08 R204). -/
def objAddr (o : Nat) : Nat := 0x1FC000 + 16 * o

/-- Word 0 of an object (08 R206). -/
def Bar.word0 (b : Bar) : Word :=
  wd (b.phase.toNat * 2 ^ 52 + b.wcls * 2 ^ 50 + b2n b.poison * 2 ^ 48 + b.reload * 2 ^ 24 + b.pend)

/-- Registrants of an object on other cores, who are told its class by a control message (04 R109). -/
def State.announce (s : State) (o : Nat × Nat) (cls : Nat) : List Event :=
  (s.threads.filter (fun th => th.remote.contains (obKey o))).map (fun th => .inheritMessage th.c th.t (obKey o) cls)

/-- Header word `i` of a task's launch record (17 Table 17.1). -/
def Task.h (k : Task) (i : Nat) : Word := k.hdr.getD i 0

/-- The record enables the race detector (09 R246). -/
def Task.raced (k : Task) : Bool := bit (k.h 0) 17

/-- The gang-phase object of a task: local object pobj of group 0 (09 R246). -/
def State.phaseObj? (s : State) (k : Task) : Option (Nat × Nat) :=
  (s.group? k.id 0).map (fun g => (g.c, 32 * g.base + fld (k.h 8) 41 32))

/-- A gang phase change: every table of the gang is emptied, those that releases on their way carry among them, every release count returns
to zero and every completeness bit is set (09 R248); its stamps go, those that L1 lines took with them (09 R247). -/
def State.phaseReset (s : State) (o : Nat × Nat) : State :=
  (s.tasks.filter (fun k => k.raced && s.phaseObj? k == some o)).foldl (fun s' k =>
    let drop (m : Tab Kept) : Tab Kept := m.filter (fun p => p.2.tag ≠ k.tag)
    { s' with
      threads := s'.threads.map (fun th =>
        if th.task == k.id then { th with race := { th.race with cmpl := true, rcnt := 0, acq := [], seen := [] } } else th)
      keptMem := drop s'.keptMem
      storeQ := s'.storeQ.map (fun q => { q with rel := q.rel.filter (·.kept.tag ≠ k.tag) })
      homeQ := s'.homeQ.map (fun q => { q with rel := q.rel.filter (·.kept.tag ≠ k.tag) })
      stamps := s'.stamps.filter (fun p => p.2.tag ≠ k.tag)
      cores := s'.cores.map (fun p => (p.1, { p.2 with
        kept := drop p.2.kept, l1 := p.2.l1.map (fun q => (q.1, { q.2 with stamp := q.2.stamp.filter (·.tag ≠ k.tag) })) })) }) s

/-- The wait of the word at the head of a thread's access queue has ended; it ends once. -/
def Thread.wake (th : Thread) (w : Woke) : Thread :=
  match th.aq, th.issue.woke with
  | e :: _, none => { th with issue := { th.issue with woke := some (e.seq, w) } }
  | _, _ => th

/-- How the wait of the word at hand has ended, if it has. -/
def State.wokeOf (s : State) (th : Thread) : Option Woke :=
  (th.issue.woke.filter (fun p => p.1 == s.cur.e.seq)).map (·.2)

/-- The waiters of an object that an update releases, and as what: with a poisoning every one takes POISON, a completed phase among them
(08 R210, R215); a new phase releases those that the object no longer lists. -/
def Bar.released (b b' : Bar) (w : Woke) : List (Nat × Woke) :=
  if b'.poison && !b.poison then b.waiters.map (fun p => (p.1, .poison))
  else if b'.phase = b.phase then []
  else (b.waiters.filter (fun p => (b'.waiters.find p.1).isNone)).map (fun p => (p.1, w))

/-- One update of an object, which releases waiters as `w`. When the class that it gives changes, registrants on other cores are told; when
its phase changes, the gangs whose phase object it is take a new phase. -/
def State.updBarAs (s : State) (o : Nat × Nat) (f : Bar → Bar) (w : Woke) : State :=
  let b := (s.core o.1).bar o.2
  let b' := f b
  let s1 := s.modCore o.1 (fun k => { k with bars := k.bars.set o.2 b' })
  let s2 := if b'.phase = b.phase then s1 else s1.phaseReset o
  let s3 := (b.released b' w).foldl (fun z p => z.modThread (p.1 / 8) (p.1 % 8) (·.wake p.2)) s2
  if b'.wcls = b.wcls then s3 else s3.later (s.announce o b'.wcls)

/-- One update of an object, whose completion ends the waits for its phase. -/
def State.updBar (s : State) (o : Nat × Nat) (f : Bar → Bar) : State := s.updBarAs o f .past

/-- Thread `t` of core `c` waits on an object no longer (08 R215). -/
def Bar.leave (b : Bar) (c t : Nat) : Bar := { b with waiters := b.waiters.del (8 * c + t) }

/-- Thread `t` of core `c` waits on an object with a class, which stays at its highest until the phase completes (04 R109, 08 R215). -/
def Bar.await (b : Bar) (c t cls : Nat) : Bar :=
  { b with waiters := b.waiters.set (8 * c + t) (max cls (b.waiters.get 0 (8 * c + t))) }

/-- The thread waits at no tagged word any longer (08 R221). -/
def State.leaveWords (s : State) (c t : Nat) : State :=
  { s with cores := s.cores.map (fun p => (p.1, { p.2 with tagq := p.2.tagq.filter (fun q => !(q.c == c && q.t == t)) })) }

/-- The requests of an owner that wait to cross a mesh are withdrawn: its word or its command has ended. -/
def State.dropWaits (s : State) (who : Owner) : State := { s with waits := s.waits.filter (·.who != who) }

/-- The thread leaves every object and tagged word at which it waits, and its requests with it (08 R215, R221: by a trap, a kill or a
pre-emption). -/
def State.leaveAll (s : State) (c t : Nat) : State :=
  ((s.cores.foldl (fun s' p => p.2.bars.foldl (fun s'' q =>
    if (q.2.waiters.find (8 * c + t)).isSome then s''.updBar (p.1, q.1) (·.leave c t) else s'') s') s).leaveWords c t).dropWaits (.thread c t)

/-! ### Classes -/

/-- The priority ceiling of a service, `svc.ctl.prio` (01 R32). -/
def State.ceiling (s : State) (svc : Nat) : Nat := fld (s.regs.get 0 (0x1000 + 8 * svc)) 11 10

/-- The highest class that a thread has inherited (04 R109): from waiters at objects of its own core, and from those
whose message has arrived. -/
def State.inherited (s : State) (th : Thread) : Nat :=
  max (th.regs.foldl (fun m o => max m ((s.core th.c).bar o).wcls) 0) (th.inh.foldl (fun m p => max m p.2) 0)

/-- The effective class of a thread (04 R108). -/
def State.eff (s : State) (th : Thread) : Nat := min (s.ceiling th.svc) (max th.own (s.inherited th))

/-- Adds a number to a rising list. -/
def insertUp (n : Nat) : List Nat → List Nat
  | [] => [n]
  | x :: r => if n < x then n :: x :: r else x :: insertUp n r

/-- Registers a thread at an object: in the bitmap for its own core, else in the remote list of 16 (08 R209). None where
the list is full. -/
def Thread.register (th : Thread) (o : Nat × Nat) : Option Thread :=
  if o.1 = th.c then
    if th.regs.contains o.2 then some th else some { th with regs := insertUp o.2 th.regs }
  else if th.remote.contains (obKey o) then some th
  else if th.remote.length < 16 then some { th with remote := th.remote ++ [obKey o] } else none

/-- Removes a registration, and what the object gave (08 R209, R213). -/
def Thread.unregister (th : Thread) (o : Nat × Nat) : Thread :=
  { th with regs := if o.1 = th.c then th.regs.filter (· ≠ o.2) else th.regs,
            remote := th.remote.filter (· ≠ obKey o), inh := th.inh.del (obKey o) }

/-- The objects at which a thread is registered: own core in ascending order, then others in list order (08 R210). -/
def Thread.registered (th : Thread) : List (Nat × Nat) :=
  th.regs.map (fun o => (th.c, o)) ++ th.remote.map (fun k => (k / 1024, k % 1024))

end Sys2Proof.Machine
end

