-- ==== Sys2Proof/Machine/Regs.lean ====
section
/-!
DEFINITION. The device-register space, location class 11 (10 Table 10.2): the registers by offset, their reset values,
the bits that a write may change and the values that a read gives. A write that does more than store is a step of its own.
-/

namespace Sys2Proof.Machine

/-- The registers of the device-register space. Indices: n a service, d a die, c a package core or a class, k a set or a
cluster, z a size class, L a link. -/
inductive Reg where
  | svcCtl (n : Nat) | svcDtab (n : Nat) | svcTinv (n : Nat) | clsWays (c : Nat) | clsBw (c : Nat) | scEcc (d : Nat)
  | tlWt (d : Nat) | tlStat (d : Nat) | svcFrag (n : Nat) | svcKlog (n : Nat) | alwRef (n : Nat) | alwCap (n : Nat)
  | alwBal (n : Nat) | dieCur (d : Nat) | dieCurst (d : Nat) | actBud (d : Nat) | dieSram (d : Nat) | cluOp (k : Nat)
  | enTab (i : Nat) | errBase | errHead | errCnt (i : Nat) | fabId | fabTmo | hpHdm | hpIrq | brsStat | brsPriv
  | brsTune | fabPen | brsImg | pkgTime | dwWin (w : Nat) | attCtl | attNonce (i : Nat) | attSig (i : Nat) | dbgReq
  | svcKhead (n : Nat) | svcSave (n : Nat) | svcWt (n : Nat) | svcFab (n : Nat)
  | fmtBase (k n : Nat) | fmtLimit (k n : Nat) | fmtCtl (k n : Nat)
  | escStat (d : Nat) | escRdx (d : Nat) | escRd (d i : Nat)
  | nfBase (k z : Nat) | nfPut (k z : Nat) | nfStat (k z : Nat) | nfDrop (k z : Nat)
  | attPub (i : Nat) | attClen | attCert (i : Nat) | fgi (m : Nat)
  | dlCtl (l : Nat) | dlStat (l : Nat) | slotOut (l i : Nat) | slotIn (l i : Nat) | ring (l i : Nat) | phOwn (l : Nat)
  | trcBase (c : Nat) | trcHead (c : Nat) | recBase (c : Nat) | recHead (c : Nat) | recRd (c : Nat)
  | lnqBase (n q : Nat) | lnqCtl (n q : Nat) | lnqTail (n q : Nat) | lnqStat (n q : Nat)
  | bmx (c i : Nat) | bmxClr (c : Nat)
  deriving DecidableEq, Repr

/-- The registers at offsets below 0x4000. -/
def decodeRegLow (o : Nat) : Option Reg :=
  if 0x1000 ≤ o && o < 0x1200 then some (.svcCtl ((o - 0x1000) / 8))
  else if 0x1200 ≤ o && o < 0x1400 then some (.svcDtab ((o - 0x1200) / 8))
  else if 0x1400 ≤ o && o < 0x1600 then some (.svcTinv ((o - 0x1400) / 8))
  else if 0x1600 ≤ o && o < 0x1680 then some (.clsWays ((o - 0x1600) / 8))
  else if 0x1680 ≤ o && o < 0x1700 then some (.clsBw ((o - 0x1680) / 8))
  else if 0x1700 ≤ o && o < 0x1740 then some (.scEcc ((o - 0x1700) / 8))
  else if 0x1740 ≤ o && o < 0x1780 then some (.tlWt ((o - 0x1740) / 8))
  else if 0x1780 ≤ o && o < 0x17C0 then some (.tlStat ((o - 0x1780) / 8))
  else if 0x1800 ≤ o && o < 0x1A00 then some (.svcFrag ((o - 0x1800) / 8))
  else if 0x1A00 ≤ o && o < 0x1C00 then some (.svcKlog ((o - 0x1A00) / 8))
  else if 0x1C00 ≤ o && o < 0x2400 then
    match (o - 0x1C00) % 0x20 / 8 with
    | 0 => some (.alwRef ((o - 0x1C00) / 0x20))
    | 1 => some (.alwCap ((o - 0x1C00) / 0x20))
    | 2 => some (.alwBal ((o - 0x1C00) / 0x20))
    | _ => none
  else if 0x2400 ≤ o && o < 0x2600 then
    match (o - 0x2400) % 0x40 / 8 with
    | 0 => some (.dieCur ((o - 0x2400) / 0x40))
    | 1 => some (.dieCurst ((o - 0x2400) / 0x40))
    | 2 => some (.actBud ((o - 0x2400) / 0x40))
    | 3 => some (.dieSram ((o - 0x2400) / 0x40))
    | _ => none
  else if 0x2600 ≤ o && o < 0x2700 then some (.cluOp ((o - 0x2600) / 8))
  else if 0x2800 ≤ o && o < 0x2880 then some (.enTab ((o - 0x2800) / 8))
  else if o = 0x2A00 then some .errBase
  else if o = 0x2A08 then some .errHead
  else if 0x2A10 ≤ o && o < 0x2A40 then some (.errCnt ((o - 0x2A10) / 8))
  else if o = 0x2C00 then some .fabId
  else if o = 0x2C08 then some .fabTmo
  else if o = 0x2D00 then some .hpHdm
  else if o = 0x2D08 then some .hpIrq
  else if o = 0x2F00 then some .brsStat
  else if o = 0x2F08 then some .brsPriv
  else if o = 0x2F10 then some .brsTune
  else if o = 0x2F18 then some .fabPen
  else if o = 0x2F20 then some .brsImg
  else if o = 0x2F30 then some .pkgTime
  else if 0x2F40 ≤ o && o < 0x2F60 then some (.dwWin ((o - 0x2F40) / 8))
  else if o = 0x2F80 then some .attCtl
  else if 0x2F88 ≤ o && o < 0x2FA8 then some (.attNonce ((o - 0x2F88) / 8))
  else if 0x2FA8 ≤ o && o < 0x2FE8 then some (.attSig ((o - 0x2FA8) / 8))
  else if o = 0x2FE8 then some .dbgReq
  else if 0x3000 ≤ o && o < 0x3200 then some (.svcKhead ((o - 0x3000) / 8))
  else if 0x3200 ≤ o && o < 0x3400 then some (.svcSave ((o - 0x3200) / 8))
  else if 0x3400 ≤ o && o < 0x3600 then some (.svcWt ((o - 0x3400) / 8))
  else if 0x3600 ≤ o && o < 0x3800 then some (.svcFab ((o - 0x3600) / 8))
  else none

/-- The registers of a drawer link, by offset within its 4 KiB (12 R318, R323-R325). -/
def decodeRegLink (l o : Nat) : Option Reg :=
  if o = 0 then some (.dlCtl l)
  else if o = 8 then some (.dlStat l)
  else if 0x100 ≤ o && o < 0x200 then some (.slotOut l ((o - 0x100) / 8))
  else if 0x200 ≤ o && o < 0x300 then some (.slotIn l ((o - 0x200) / 8))
  else if 0x400 ≤ o && o < 0x490 then some (.ring l ((o - 0x400) / 8))
  else if 0x500 ≤ o && o < 0x590 then some (.ring l (18 + (o - 0x500) / 8))
  else if o = 0x600 then some (.phOwn l)
  else none

/-- The register at an offset of location class 11, if any: a multiple of 8 that some chapter assigns. -/
def decodeReg (o : Nat) : Option Reg :=
  if o % 8 ≠ 0 then none
  else if o < 0x4000 then decodeRegLow o
  else if 0x20000 ≤ o && o < 0x29000 then
    let k := (o - 0x20000) / 0x1000
    let r := (o - 0x20000) % 0x1000
    if 0x200 ≤ r then none
    else match r % 0x20 / 8 with
      | 0 => some (.fmtBase k (r / 0x20))
      | 1 => some (.fmtLimit k (r / 0x20))
      | 2 => some (.fmtCtl k (r / 0x20))
      | _ => none
  else if 0x30000 ≤ o && o < 0x30800 then
    let d := (o - 0x30000) / 0x100
    let r := (o - 0x30000) % 0x100
    if r = 0 then some (.escStat d) else if r = 8 then some (.escRdx d)
    else if 0x10 ≤ r && r < 0x40 then some (.escRd d ((r - 0x10) / 8)) else none
  else if 0x31000 ≤ o && o < 0x32200 then
    let k := (o - 0x31000) / 0x200
    let r := (o - 0x31000) % 0x200
    if 0x140 ≤ r then none
    else match r % 0x20 / 8 with
      | 0 => some (.nfBase k (r / 0x20))
      | 1 => some (.nfPut k (r / 0x20))
      | 2 => some (.nfStat k (r / 0x20))
      | _ => some (.nfDrop k (r / 0x20))
  else if 0x33000 ≤ o && o < 0x33040 then some (.attPub ((o - 0x33000) / 8))
  else if o = 0x33040 then some .attClen
  else if 0x33048 ≤ o && o < 0x34000 then some (.attCert ((o - 0x33048) / 8))
  else if 0x38000 ≤ o && o < 0x40000 then some (.fgi ((o - 0x38000) / 8))
  else if 0x40000 ≤ o && o < 0x50000 then decodeRegLink ((o - 0x40000) / 0x1000) ((o - 0x40000) % 0x1000)
  else if 0x50000 ≤ o && o < 0x52000 then
    match (o - 0x50000) % 0x20 / 8 with
    | 0 => some (.trcBase ((o - 0x50000) / 0x20))
    | 1 => some (.trcHead ((o - 0x50000) / 0x20))
    | _ => none
  else if 0x54000 ≤ o && o < 0x56000 then
    match (o - 0x54000) % 0x20 / 8 with
    | 0 => some (.recBase ((o - 0x54000) / 0x20))
    | 1 => some (.recHead ((o - 0x54000) / 0x20))
    | 2 => some (.recRd ((o - 0x54000) / 0x20))
    | _ => none
  else if 0x60000 ≤ o && o < 0x80000 then
    let n := (o - 0x60000) / 0x800
    let q := (o - 0x60000) % 0x800 / 0x80
    match (o - 0x60000) % 0x80 / 8 with
    | 0 => some (.lnqBase n q)
    | 1 => some (.lnqCtl n q)
    | 2 => some (.lnqTail n q)
    | 3 => some (.lnqStat n q)
    | _ => none
  else if 0x100000 ≤ o && o < 0x180000 then
    let c := (o - 0x100000) / 0x800
    let r := (o - 0x100000) % 0x800
    if r < 0x700 then some (.bmx c (r / 8)) else if r = 0x780 then some (.bmxClr c) else none
  else none

/-- The offset of a register that stores what is written to it. -/
def Reg.off : Reg → Nat
  | .svcCtl n => 0x1000 + 8 * n
  | .svcDtab n => 0x1200 + 8 * n
  | .clsWays c => 0x1600 + 8 * c
  | .clsBw c => 0x1680 + 8 * c
  | .tlWt d => 0x1740 + 8 * d
  | .svcFrag n => 0x1800 + 8 * n
  | .svcKlog n => 0x1A00 + 8 * n
  | .alwRef n => 0x1C00 + 0x20 * n
  | .alwCap n => 0x1C08 + 0x20 * n
  | .dieCur d => 0x2400 + 0x40 * d
  | .actBud d => 0x2410 + 0x40 * d
  | .dieSram d => 0x2418 + 0x40 * d
  | .cluOp k => 0x2600 + 8 * k
  | .errBase => 0x2A00
  | .errHead => 0x2A08
  | .errCnt i => 0x2A10 + 8 * i
  | .fabTmo => 0x2C08
  | .hpHdm => 0x2D00
  | .hpIrq => 0x2D08
  | .brsPriv => 0x2F08
  | .brsTune => 0x2F10
  | .fabPen => 0x2F18
  | .brsImg => 0x2F20
  | .svcSave n => 0x3200 + 8 * n
  | .svcWt n => 0x3400 + 8 * n
  | .svcFab n => 0x3600 + 8 * n
  | .fmtBase k n => 0x20000 + 0x1000 * k + 0x20 * n
  | .fmtLimit k n => 0x20008 + 0x1000 * k + 0x20 * n
  | .fmtCtl k n => 0x20010 + 0x1000 * k + 0x20 * n
  | .escRdx d => 0x30008 + 0x100 * d
  | .nfBase k z => 0x31000 + 0x200 * k + 0x20 * z
  | .nfStat k z => 0x31010 + 0x200 * k + 0x20 * z
  | .fgi m => 0x38000 + 8 * m
  | .dlCtl l => 0x40000 + 0x1000 * l
  | .slotOut l i => 0x40100 + 0x1000 * l + 8 * i
  | .slotIn l i => 0x40200 + 0x1000 * l + 8 * i
  | .ring l i => if i < 18 then 0x40400 + 0x1000 * l + 8 * i else 0x40500 + 0x1000 * l + 8 * (i - 18)
  | .phOwn l => 0x40600 + 0x1000 * l
  | .trcBase c => 0x50000 + 0x20 * c
  | .trcHead c => 0x50008 + 0x20 * c
  | .recBase c => 0x54000 + 0x20 * c
  | .recHead c => 0x54008 + 0x20 * c
  | .recRd c => 0x54010 + 0x20 * c
  | .lnqBase n q => 0x60000 + 0x800 * n + 0x80 * q
  | .lnqCtl n q => 0x60008 + 0x800 * n + 0x80 * q
  | .lnqTail n q => 0x60010 + 0x800 * n + 0x80 * q
  | _ => 0

/-- The stored bits of a register at reset; zero where its table gives zero, or gives none (log entry 5, DESIGN CHOICE). -/
def Reg.reset : Reg → Word
  | .clsWays _ => 0xFFFF
  | .clsBw _ => 0x10000
  | .tlWt _ => 0x1111
  | .svcFrag _ => 256
  | .alwRef _ => 0x8000000000000000
  | .dieCur d => (Config.curLim d).setWidth 64
  | .actBud d => (Config.refMin d).setWidth 64 <<< 40 ||| wd (64 * 2 ^ 30 + 128 * 2 ^ 20 + 256 * 2 ^ 10 + 32)
  | .cluOp _ => 2
  | .fabTmo => 1000
  | .svcWt _ => 1
  | _ => 0

/-- The stored bits of a register. -/
def State.reg (s : State) (r : Reg) : Word :=
  match s.regs.find r.off with
  | some v => v
  | none => r.reset

/-- Stores the bits of a register. -/
def State.setReg (s : State) (r : Reg) (v : Word) : State := { s with regs := s.regs.set r.off v }

/-- The bits of a register that a write stores. -/
def Reg.mask : Reg → Word
  | .svcCtl _ => 0xCCF1
  | .svcDtab _ => 0xFFFFFFFFFF001
  | .clsWays _ => 0xFFFF
  | .clsBw _ => 0xF03FF
  | .tlWt _ => 0xFFFF
  | .svcFrag _ => 0x1FF
  | .svcKlog _ => 0xFFFFFFFFFF01F
  | .alwRef _ => 0x80000000FFFFFFFF
  | .alwCap _ => 0xFFFFFFFFFFFFFFFF
  | .dieCur _ => 0xFFFF
  | .actBud _ => 0x3FFFFFFFFFFFF
  | .errBase => 0xFFFFFFFFFF01F
  | .fabTmo => 0xFFFFF
  | .hpHdm => 0xFFFFFC00000FF
  | .hpIrq => 0x700
  | .brsPriv => 0xFFFFFFFFFFFFFFFF
  | .brsTune => 0xFFFF
  | .fabPen => 0xFFF
  | .brsImg => 0xFFFFFFFFFF000
  | .svcSave _ => 0xFFFFFFFFFFFFF
  | .svcWt _ => 0xF
  | .svcFab _ => 0xFFFFFFFFF0003
  | .fmtBase _ _ => 0xFFFFFFFFFF000
  | .fmtLimit _ _ => 0xFFFFFFFFFF000
  | .fmtCtl _ _ => 0xF00FFFFFFFFFFFF0
  | .nfBase _ _ => 0xFFFFFFFFFF01F
  | .fgi _ => 0x803F83FF00000000
  | .slotOut _ _ => 0xFFFFFFFFFFFFFFFF
  | .slotIn _ _ => 0xFFFFFFFFFFFFFFFF
  | .ring _ _ => 0x1F0FFF0000
  | .phOwn _ => 0xBF
  | .trcBase _ => 0xFFFFFFFFFF01F
  | .recBase _ => 0xFFFFFFFFFF01F
  | .recRd _ => 0xFFFFFFFF
  | .lnqBase _ _ => 0xFFFFFFFFFF00F
  | .lnqCtl _ _ => 0xF0000000FFFF0000
  | .lnqTail _ _ => 0xFFFF
  | _ => 0

/-- A log2 field [4:0] that stores at most `m`. -/
def capLg (m : Nat) (v : Word) : Word := if m < fld v 4 0 then v &&& ~~~0x1F#64 ||| wd m else v

/-- What a plain write stores: the writable bits, with the manual's substitutions for values out of range. A write of `brs.img` that names a
class other than 0 to 7 and 10 stores nothing (22 R513; log entry 64, DESIGN CHOICE). -/
def Reg.stored (r : Reg) (old v : Word) : Word :=
  let x := v &&& r.mask ||| old &&& ~~~r.mask
  match r with
  | .svcFrag _ => if fld x 8 0 = 0 then 1 else if 256 < fld x 8 0 then 256 else x
  | .svcKlog _ => capLg 20 x
  | .errBase => capLg 20 x
  | .trcBase _ => capLg 20 x
  | .recBase _ => capLg 20 x
  | .nfBase _ _ => capLg 23 x
  | .actBud d =>
    if fld x 49 40 < (Config.refMin d).toNat then
      x &&& 0xFFFFFFFFFF#64 ||| (Config.refMin d).setWidth 64 <<< 40 else x
  | .fabPen => x &&& (Config.penFuse).setWidth 64
  | .brsImg => if fld x 51 48 < 8 || fld x 51 48 = 10 then x else old
  | .fmtCtl _ _ => if 2 ≤ fld v 63 60 then x &&& 0x0FFFFFFFFFFFFFFF#64 ||| old &&& 0xF000000000000000#64 else x
  | .hpHdm =>
    if fld x 51 48 < 8 && fld x 7 0 ≤ 32 && fld x 47 30 + fld x 7 0 ≤ 32 then x else x &&& ~~~0xFF#64
  | .hpIrq => x &&& ~~~(v &&& 7#64)
  | .ring _ _ =>
    if (Config.htmaxFuse).toNat < fld x 27 16 then
      x &&& ~~~0xFFF0000#64 ||| (Config.htmaxFuse).setWidth 64 <<< 16 else x
  | _ => x

/-! ### Fields that other units use -/

/-- `svc.ctl` of a service (01 R32): mode, priority ceiling, class, enable. -/
def State.svcMode (s : State) (n : Nat) : Nat := fld (s.reg (.svcCtl n)) 15 14
def State.svcCls (s : State) (n : Nat) : Nat := fld (s.reg (.svcCtl n)) 7 4
def State.svcEn (s : State) (n : Nat) : Bool := bit (s.reg (.svcCtl n)) 0

/-- A service is privileged (22 R513). -/
def State.privileged (s : State) (n : Nat) : Bool := bit (s.reg .brsPriv) n

/-- `reduce.max` of a service (14 R365). -/
def State.rmax (s : State) (n : Nat) : Nat := fld (s.reg (.svcFrag n)) 8 0

/-- The package reference time in ns: 20 ns in 17 cycles of the main clock (22 R514, 00 R1; log entry 6, DEDUCED). -/
def State.timeNs (s : State) : Nat := s.now * 20 / 17

/-- Clock of a cluster in MHz (01 R14, 18 R462). -/
def State.mhz (s : State) (d k : Nat) : Nat :=
  match (s.die d).opPt.get 2 k with
  | 0 => 500
  | 1 => 700
  | _ => 850

/-- The effective current limit of a die (18 R452). -/
def State.effLimit (s : State) (d : Nat) : Nat :=
  let l := fld (s.reg (.dieCur d)) 15 0
  max (l / 2 ^ (s.die d).halved) (l / 16)

/-- Sum of the rates of the granted operations of a die (18 R450). -/
def State.committed (s : State) (d : Nat) : Nat := (s.die d).granted.foldl (fun m g => m + g.r) 0

/-- The depth of a launch queue, modulo 2^16 (17 R427). -/
def State.lnqHead (s : State) (n q : Nat) : LnqSt := s.lnq.get { head := 0, acc := 0, raised := false } (16 * n + q)
def State.setLnq (s : State) (n q : Nat) (x : LnqSt) : State := { s with lnq := s.lnq.set (16 * n + q) x }
def State.lnqTailN (s : State) (n q : Nat) : Nat := fld (s.reg (.lnqTail n q)) 15 0
def State.lnqDepth (s : State) (n q : Nat) : Nat := (s.lnqTailN n q + 65536 - (s.lnqHead n q).head) % 65536

/-- Head index and count of a near-frame pool (12 R300). -/
def State.pool (s : State) (k z : Nat) : Nat × Nat := s.pools.get (0, 0) (16 * k + z)

/-- The six words of an escrow entry through the escrow view (21 R509, 12 R303). -/
def Esc.view (e : Esc) : Nat → Word
  | 0 => wd (e.next * 2 ^ 46 + e.sect * 2 ^ 30 + e.op * 2 ^ 26 + e.ty * 2 ^ 22 + e.seq % 65536)
  | 1 => wd (e.mask.toNat * 2 ^ 32 + e.tag)
  | i => (e.data >>> (64 * (i - 2))).setWidth 64

/-- Code of a link state in `dl.stat.st` (12 R323). -/
def LinkSt.code : LinkSt → Nat
  | .down => 0
  | .training => 1
  | .up => 2
  | .retraining => 3
  | .failed => 4

/-- The strips of a die in some states, as a mask: `tl.stat.free` is 0xFF at reset (14 R355). -/
def Die.stripMask (d : Die) (p : StripSt → Bool) : Nat :=
  ((List.range 8).filter (fun n => p (d.strip n).st)).foldl (fun m n => m + 2 ^ n) 0

/-- The logic rail of a cluster (4 × die + k) at a point, in mV: fused, within 0.55 and 0.90 V (18 R460), and for point 2, at which the
clusters stand at reset, within 0.18 V of the SRAM rail at reset. Log entry 2, DESIGN CHOICE. -/
def railMv (k p : Nat) : Nat := max (if p = 2 then 600 else 550) (min 900 (Config.logicMv k p).toNat)

/-- `sc.ecc.thr`: fused between the two set points of the SRAM rail, 660 and 780 mV (11 R283, 18 R461). Log entry 2, DESIGN CHOICE. -/
def eccMv (d : Nat) : Nat := max 660 (min 779 (Config.eccThr d).toNat)

/-- `att.clen`: at most 4,024 (22 R517). Log entry 2, DESIGN CHOICE. -/
def certLen : Nat := min 4024 (Config.attLen).toNat

/-- Eight bytes of the certificate; those at or beyond its length read zero (22 R517). -/
def certWord (i : Nat) : Word := Config.attCert i &&& wd (2 ^ (8 * (certLen - 8 * i)) - 1)

/-- The value that a read of a register gives. `die.curst.c` stands at 65,535 where more is committed (18 R450, R452; log entry 64, DESIGN
CHOICE). -/
def State.regVal (s : State) (r : Reg) : Word :=
  match r with
  | .svcTinv _ | .nfPut _ _ | .nfDrop _ _ | .dbgReq | .escRdx _ | .bmxClr _ => 0
  | .scEcc d => wd (eccMv d * 2 ^ 16 + 2 * b2n (s.die d).eccPend + b2n (s.die d).econ)
  | .tlStat d =>
    let x := s.die d
    wd ((x.tq.get [] 3).length * 2 ^ 56 + (x.tq.get [] 2).length * 2 ^ 48 + (x.tq.get [] 1).length * 2 ^ 40 +
      (x.tq.get [] 0).length * 2 ^ 32 + x.stripMask (fun t => t == .returning || t == .scrubbing) * 2 ^ 16 +
      x.stripMask (fun t => t == .held || t == .saving) * 2 ^ 8 + x.stripMask (· == .free))
  | .alwBal n => wd (b2n (s.svc n).deny * 2 ^ 63) ||| (BitVec.ofInt 48 (s.svc n).bal).setWidth 64
  | .dieCurst d => wd (s.effLimit d * 2 ^ 32 + min 0xFFFF (s.committed d))
  | .dieSram d => wd ((s.die d).sramMv * 2 ^ 16 + 2 * b2n (s.die d).sramPend) ||| s.reg r &&& 1#64
  | .cluOp k =>
    let d := s.die (k / 4)
    wd (b2n (d.opWant.find (k % 4)).isSome * 2 ^ 63 + (d.opWant.find (k % 4)).getD (d.opPt.get 2 (k % 4)) +
      railMv k (d.opPt.get 2 (k % 4)) * 2 ^ 16)
  | .enTab i => if i < 11 then (Config.enTab i).setWidth 64 else 0
  | .fabId => s.brs.pkg.setWidth 64
  | .brsStat =>
    wd ((max s.brs.svn.toNat (Config.svnFuse).toNat) * 2 ^ 48 + s.brs.ver.toNat * 2 ^ 32 + s.brs.st) ||| (Config.htmaxFuse).setWidth 64 <<< 20
  | .fabPen => s.reg r ||| (Config.penFuse).setWidth 64 <<< 16
  | .pkgTime => wd s.timeNs
  | .dwWin w => Config.dwWin w &&& 0x800003FFFFFFFFFF#64
  | .attCtl => wd (2 * b2n s.brs.busy + 4 * b2n s.brs.ok)
  | .attNonce i => s.brs.nonce.get 0 i
  | .attSig i => (s.brs.sig >>> (64 * i)).setWidth 64
  | .svcKhead n => (s.svc n).khead.setWidth 64
  | .escStat d => wd ((s.die d).escHw * 2 ^ 32 + (s.die d).esc.length)
  | .escRd d i =>
    match (s.die d).esc.find (fld (s.reg (.escRdx d)) 17 0) with
    | some e => e.view i
    | none => 0
  | .nfStat k z =>
    let p := s.pool k z
    s.reg r ||| wd (b2n (s.hwPuts.any (fun h => h.set == k && h.z == z)) * 2 ^ 61 + p.1 * 2 ^ 24 + p.2)
  | .attPub i => Config.attPub i
  | .attClen => wd certLen
  | .attCert i => certWord i
  | .dlCtl l => s.reg (.dlCtl l) &&& 1#64
  | .dlStat l =>
    let k := s.link l
    wd (k.rtn.toNat * 2 ^ 16 + k.spo * 2 ^ 10 + k.spi * 2 ^ 8 + k.st.code)
  | .ring l i => s.reg r ||| (Config.ringAdc (36 * l + i) s.freeCount).setWidth 64
  | .lnqStat n q =>
    let x := s.lnqHead n q
    wd (x.head * 2 ^ 48 + x.acc * 2 ^ 32 + s.lnqDepth n q * 2 ^ 16 + b2n x.raised * 2 ^ 15)
  | .bmx c i =>
    let m := (s.core c).bmx
    wd (m.get 0 (2 * i + 1) * 2 ^ 32 + m.get 0 (2 * i))
  | _ => s.reg r

/-- What a read clears (19 R470, 12 R310, R323, 20 R489); a read of a ring register meets a fresh reading. -/
def State.regReadEffect (s : State) (r : Reg) : State :=
  match r with
  | .errCnt _ => s.setReg r 0
  | .escStat d => s.modDie d (fun x => { x with escHw := 0 })
  | .dlStat l => s.modLink l (fun k => { k with rtn := 0 })
  | .fgi _ => s.setReg r (s.reg r &&& ~~~0xFFFF0000#64)
  | .ring _ _ => s.bump
  | _ => s

end Sys2Proof.Machine
end

