-- ==== Sys2Proof/Machine/Observe.lean ====
section
/-!
DEFINITION. What the device records of its own running: trace records (21 R495-R502), the recording log (21 R506,
R507), error records (19 R469, R470) and the host's message vectors (20 R480).
-/

namespace Sys2Proof.Machine

/-- A unit of the package has written `n` bytes of memory from an address on: sectors written whole hold good data, and lines that the host
caches are back-invalidated (19 R467, 20 R479). -/
def State.wrote (s : State) (a n : Nat) (m : Memory) : State :=
  { s with
    mem := m
    poison := s.poison.filter (fun p => !(decide (a ≤ 32 * p) && decide (32 * p + 32 ≤ a + n)))
    hostLines := s.hostLines.filter (fun l => !(decide (64 * l < a + n) && decide (a < 64 * l + 64))) }

/-- Writes a record of four words at an index of a ring of 2^lg records of 32 bytes. -/
def State.ringPut (s : State) (base lg n : Nat) (w0 w1 w2 w3 : Word) : State :=
  let a := base + 32 * (n % 2 ^ lg)
  s.wrote a 32 ((((s.mem.putWord a w0).putWord (a + 8) w1).putWord (a + 16) w2).putWord (a + 24) w3)

/-- An event of MSI-X vector `v` (20 R480). -/
def State.irq (s : State) (v : Nat) : State :=
  let r := s.reg .hpIrq
  if bit r v then s
  else
    let s1 := s.setReg .hpIrq (r ||| wd (2 ^ v))
    if bit r (8 + v) then { s1 with msix := s1.msix ++ [v] } else s1

/-- An error report (19 R469, R470): the counter of its class, and a record in the ring where one is set up. -/
def State.errReport (s : State) (cls unit die core loc : Nat) (corr : BitVec 32) (seq svc : Nat) : State :=
  let n := (s.reg (.errCnt cls)).toNat
  let s1 := s.setReg (.errCnt cls) (wd (min (n + 1) (2 ^ 32 - 1)))
  let b := s1.reg .errBase
  let lg := fld b 4 0
  if lg = 0 then s1
  else
    let h := (s1.reg .errHead).toNat
    let s2 := s1.ringPut (fld b 51 12 * 4096) lg h
      (wd (cls * 2 ^ 60 + unit * 2 ^ 56 + die * 2 ^ 53 + core * 2 ^ 48 + loc % 2 ^ 48))
      (wd (corr.toNat * 2 ^ 32 + seq)) (wd (svc * 2 ^ 58)) (wd s1.timeNs)
    (s2.setReg .errHead (wd ((h + 1) % 2 ^ 32))).irq 0

/-! ### Trace -/

/-- Writes one trace record into the ring of a core, if it has one (21 R495). -/
def State.traceOut (s : State) (c : Nat) (w : Word × Word × Word × Word) : State :=
  let b := s.reg (.trcBase c)
  if fld b 4 0 = 0 then s
  else
  let h := (s.reg (.trcHead c)).toNat
  let s1 := s.ringPut (fld b 51 12 * 4096) (fld b 4 0) h w.1 w.2.1 w.2.2.1 w.2.2.2
  (s1.setReg (.trcHead c) (wd ((h + 1) % 2 ^ 32))).modDie (dieOf c) (fun d => { d with usedTr := d.usedTr + 1 })

/-- Budget of trace sectors of a die, `act.bud.tr` (18 R459). -/
def State.budTr (s : State) (d : Nat) : Nat := fld (s.reg (.actBud d)) 29 20

/-- A record reaches the ring, or waits in the staging queue of 64, or is dropped (21 R500). Gives whether it was
accepted. -/
def State.traceOffer (s : State) (c : Nat) (w : Word × Word × Word × Word) : State × Bool :=
  let k := s.core c
  if k.stage.isEmpty && (s.die (dieOf c)).usedTr < s.budTr (dieOf c) then (s.traceOut c w, true)
  else if k.stage.length < 64 then (s.setCore c { k with stage := k.stage ++ [w] }, true)
  else (s, false)

/-- Word 0 of a record (21 R497). -/
def traceW0 (kind t : Nat) (seq : Nat) (now : Nat) : Word :=
  wd (kind * 2 ^ 59 + t * 2 ^ 56 + seq16 seq * 2 ^ 40 + now % 2 ^ 40)

/-- A trace record of a thread, whose bits in `trc` the caller has tested (21 R498, R500). -/
def State.trace (s : State) (c t kind : Nat) (seq : Nat) (corr : BitVec 32) (w1 : Nat) (w2 w3 : Word) : State :=
  if fld (s.reg (.trcBase c)) 4 0 = 0 then s
  else
    let lost := match s.thread? c t with
      | some th => th.csr.lost9
      | none => 0
    let s1 := if lost = 0 then (s, true)
      else s.traceOffer c (traceW0 9 t seq s.now, wd (corr.toNat * 2 ^ 32 + lost % 2 ^ 32), 0, 0)
    let s2 := if s1.2 then
        (s1.1.modThread c t (fun th => { th with csr := { th.csr with lost9 := 0 } })).traceOffer c
          (traceW0 kind t seq s.now, wd (corr.toNat * 2 ^ 32 + w1), w2, w3)
      else s1
    if s2.2 then s2.1
    else s2.1.modThread c t (fun th => { th with csr := { th.csr with
      lost9 := th.csr.lost9 + 1,
      trcLost := if th.csr.trcLost = 0xFFFFFFFF then th.csr.trcLost else th.csr.trcLost + 1 } })

/-- A thread traces a kind of record: `trc.en` and the kind's bit (21 R496). -/
def Thread.traces (th : Thread) (b : Nat) : Bool := th.csr.trc.getLsbD 0 && th.csr.trc.getLsbD b

/-- Row of a requester in the bank matrix: cycles lost, the bank of the greatest count and that count (21 Table 21.1,
R503). -/
def bmxRow (m : Tab Nat) (r : Nat) : Nat × Nat × Nat :=
  (List.range 32).foldl (fun x b =>
    let n := m.get 0 (32 * r + b)
    (x.1 + n, if x.2.2 < n then (b, n) else x.2)) (0, 0, 0)

/-- The kind-7 records of a snapshot (21 R502). -/
def State.traceMatrix (s : State) (c t : Nat) (seq : Nat) (corr : BitVec 32) : State :=
  (List.range 14).foldl (fun s' r =>
    let x := bmxRow (s.core c).bmx r
    if x.1 = 0 then s' else s'.trace c t 7 seq corr r (wd x.1) (wd (x.2.2 * 2 ^ 32 + x.2.1))) s

/-- The records of the loop levels that a word left (21 R502): `old` are the levels before it, `new` after it. -/
def State.traceLoops (s : State) (th : Thread) (seq : Nat) (old new : List Loop) : State :=
  if th.traces 1 && decide (new.length < old.length) then
    ((old.take (old.length - new.length)).zipIdx).foldl (fun s' p =>
      let s1 := s'.trace th.c th.t 2 seq th.csr.corr
        (p.2 + 4 * (if p.1.pipelined then p.1.stages - 1 else 0) + 16 * b2n p.1.pipelined) p.1.addr (wd (p.1.j + 1))
      if th.csr.trc.getLsbD 2 then s1.traceMatrix th.c th.t seq th.csr.corr else s1) s
  else s

/-! ### The recording log -/

/-- Records the outcome of a word (21 R506, R507): waits where the ring is full in stall mode. -/
def State.record (s : State) (c t : Nat) (seq : Nat) (corr : BitVec 32) (v : Word) : Except Stop State :=
  match s.thread? c t with
  | none => .ok s
  | some th =>
    let mode := fld th.csr.recd 1 0
    if mode = 0 then .ok s
    else
      let b := s.reg (.recBase c)
      let lg := fld b 4 0
      let h := (s.reg (.recHead c)).toNat
      let used := (h + 2 ^ 32 - (s.reg (.recRd c)).toNat) % 2 ^ 32
      if lg = 0 then .ok s
      else if 2 ^ lg ≤ used then
        if mode = 1 then .error (.wait none)
        else .ok (s.modThread c t (fun x => { x with csr := { x.csr with
          recd := if bit x.csr.recd 47 then x.csr.recd
            else x.csr.recd &&& 3#64 ||| wd (seq16 seq * 2 ^ 48 + 2 ^ 47) } }))
      else
        let s1 := s.ringPut (fld b 51 12 * 4096) lg h (wd (t * 2 ^ 56 + seq16 seq * 2 ^ 40)) v th.wid
          (corr.setWidth 64)
        .ok (s1.setReg (.recHead c) (wd ((h + 1) % 2 ^ 32)))

end Sys2Proof.Machine
end

