-- ==== Sys2Proof/Machine/Coherence.lean ====
section
/-!
DEFINITION. Coherence: the homes of addresses (11 R274), the sideband of sectors (03 R89-R92) and the shared cache that holds it (11
R276-R279), the L1 of a core with its scope records (09 R236-R238), and the race detector (09 R246-R252).
-/

namespace Sys2Proof.Machine

/-! ### Homes -/

/-- The XOR of the bits `i`, `i + st`, … of a natural value below bit 48; `n` bounds their number. -/
def xorBits (v : Nat) (st : Nat) : Nat → Nat → Nat
  | 0, _ => 0
  | n + 1, i => if 48 ≤ i then 0 else (v / 2 ^ i % 2 + xorBits v st n (i + st)) % 2

/-- The home die of a physical address of classes 0 to 8 (11 R274). -/
def homeDie (pa : Nat) : Nat :=
  if pa / 2 ^ 48 ≤ 7 then pa / 2 ^ 48
  else xorBits pa 3 16 12 + 2 * xorBits pa 3 16 13 + 4 * xorBits pa 3 16 14

/-- The home slice on that die (11 R274). -/
def homeSlice (pa : Nat) : Nat :=
  (List.range 5).foldl (fun n i => n + 2 ^ i * xorBits pa 5 16 (7 + i)) 0

/-! ### Poison marks -/

/-- A sector carries a poison mark. -/
def State.marked (s : State) (sec : Nat) : Bool := s.poison.contains sec

/-- Marks a sector. -/
def State.mark (s : State) (sec : Nat) : State := if s.marked sec then s else { s with poison := insertUp sec s.poison }

/-! ### The shared cache -/

/-- The active format range entries of a set, lowest first: base, limit and scale region (03 R91). -/
def State.fmtRanges (s : State) (k : Nat) : List (Nat × Nat × Nat) :=
  (List.range 16).filterMap (fun n =>
    let b := fld (s.reg (.fmtBase k n)) 51 12 * 4096
    let l := fld (s.reg (.fmtLimit k n)) 51 12 * 4096
    let c := s.reg (.fmtCtl k n)
    let sb := fld c 51 4 * 16
    if fld c 63 60 = 1 && decide (b < l) && b / 2 ^ 48 = k && l / 2 ^ 48 = k && sb / 2 ^ 48 = k then some (b, l, sb) else none)

/-- The format range entry that governs a sector (03 R91): the address of its sideband. A sector of a scale region is never minted. -/
def State.sideAddr? (s : State) (pa : Nat) : Option Nat :=
  let k := pa / 2 ^ 48
  if 8 < k then none
  else
    let rs := s.fmtRanges k
    if rs.any (fun r => decide (r.2.2 < pa + 32) && decide (pa < r.2.2 + (r.2.1 - r.1) / 8)) then none
    else (rs.find? (fun r => decide (r.1 ≤ pa) && decide (pa < r.2.1))).map (fun r => r.2.2 + 2 * ((pa - r.1) / 16))

/-- The line of the shared cache that holds a sector, and its sideband there. -/
def State.lineOf? (s : State) (sec : Nat) : Option (Line × Option (BitVec 32)) :=
  if 8 < 32 * sec / 2 ^ 48 then none
  else ((s.die (homeDie (32 * sec))).cache.find (sec / 2)).bind (fun l => (l.sects.find (sec % 2)).map (fun b => (l, b)))

/-- A sector is present in its home slice (12 R302). -/
def State.cached (s : State) (sec : Nat) : Bool := (s.lineOf? sec).isSome

/-- The sideband of a sector as memory holds it: none for an unminted one (03 R92). -/
def State.sideMem (s : State) (pa : Nat) : Option (BitVec 32) :=
  (s.sideAddr? (pa / 32 * 32)).map (fun a => BitVec.ofNat 32 (s.mem.getN a 4))

/-- Writes the sideband of a sector to its scale region; that of an unminted one is discarded (03 R92). -/
def State.sideStore (s : State) (pa : Nat) (v : BitVec 32) : State :=
  match s.sideAddr? (pa / 32 * 32) with
  | some a => { s with mem := s.mem.putN a 4 v.toNat }
  | none => s

/-- The sideband of a sector: a cached one keeps that with which it was filled (03 R92, R94); none for an unminted sector. -/
def State.sideGet (s : State) (pa : Nat) : Option (BitVec 32) :=
  match s.lineOf? (pa / 32) with
  | some x => x.2
  | none => s.sideMem pa

/-- The sector of the scale region that holds the sideband of a sector carries a poison mark. -/
def State.scaleMarked (s : State) (pa : Nat) : Bool := (s.sideAddr? (pa / 32 * 32)).any (fun a => s.marked (a / 32))

/-- The sideband of a sector carries a poison mark: that with which a cached one was filled, else that of its scale region (19 R467). -/
def State.sideMarked (s : State) (pa : Nat) : Bool :=
  match s.lineOf? (pa / 32) with
  | some x => x.1.bad.contains (pa / 32 % 2)
  | none => s.scaleMarked pa

/-- Marks the sideband of a sector (19 R467). -/
def State.sideSpoil (s : State) (pa : Nat) : State :=
  let sec := pa / 32
  match s.lineOf? sec with
  | some x =>
    if x.2.isNone then s
    else s.modDie (homeDie pa) (fun d => { d with cache := d.cache.set (sec / 2) { x.1 with bad := sec % 2 :: x.1.bad.filter (· ≠ sec % 2) } })
  | none => match s.sideAddr? (sec * 32) with
    | some a => s.mark (a / 32)
    | none => s

/-- A sector is minted, as an access that fills it or hits it meets it (03 R93). -/
def State.minted (s : State) (pa : Nat) : Bool :=
  match s.lineOf? (pa / 32) with
  | some x => x.2.isSome
  | none => (s.sideAddr? (pa / 32 * 32)).isSome

/-- A sector that is present is to be written back. -/
def State.soil (s : State) (sec : Nat) : State :=
  match s.lineOf? sec with
  | none => s
  | some x => s.modDie (homeDie (32 * sec)) (fun d =>
    { d with cache := d.cache.set (sec / 2) { x.1 with dirty := if x.1.dirty.contains (sec % 2) then x.1.dirty else x.1.dirty ++ [sec % 2] } })

/-- Writes the sideband of a sector: in the cache where it is present, which ends a mark there, else to its scale region (03 R92, 19 R467). -/
def State.sidePut (s : State) (pa : Nat) (v : BitVec 32) : State :=
  let sec := pa / 32
  match s.lineOf? sec with
  | none => s.sideStore pa v
  | some x =>
    if x.2.isNone then s
    else (s.modDie (homeDie pa) (fun d =>
      { d with cache := d.cache.set (sec / 2)
                 { x.1 with sects := x.1.sects.set (sec % 2) (some v), bad := x.1.bad.filter (· ≠ sec % 2) } })).soil sec

/-- The sideband of a sector, with that of the blocks that a mask covers replaced (03 R92). -/
def mergeSide (old mask v : BitVec 32) : BitVec 32 :=
  let m : BitVec 32 := (if mask.setWidth 16 = 0xFFFF#16 then 0xFFFF else 0) |||
    (if (mask >>> 16).setWidth 16 = 0xFFFF#16 then 0xFFFF0000 else 0)
  old &&& ~~~m ||| v &&& m

/-- Writes the sideband of the blocks of a sector that a mask covers (03 R92); a mark of what stays, stays (19 R467). -/
def State.putSide (s : State) (pa : Nat) (mask v : BitVec 32) : State :=
  let s1 := s.sidePut pa (mergeSide ((s.sideGet pa).getD 0) mask v)
  if mask ≠ BitVec.allOnes 32 && s.sideMarked pa then s1.sideSpoil pa else s1

/-- A line leaves the cache: what is to be written back of its sideband goes to the scale region as the entries now stand, or is discarded
(03 R92, R94), a marked one with its mark (19 R467). -/
def State.evictLine (s : State) (die n : Nat) : State :=
  match (s.die die).cache.find n with
  | none => s
  | some l =>
    let s1 := s.modDie die (fun d => { d with cache := d.cache.del n })
    l.sects.foldl (fun z p => match p.2 with
      | some v =>
        let pa := 64 * n + 32 * p.1
        if !l.dirty.contains p.1 then z
        else if l.bad.contains p.1 then (z.sideStore pa v).sideSpoil pa else z.sideStore pa v
      | none => z) s1

/-- The lines of some sectors leave the cache, written back (12 R299). -/
def State.flushLines (s : State) (lo n : Nat) : State :=
  s.dies.foldl (fun z p => (p.2.cache.filter (fun q => decide (lo < 2 * q.1 + 2) && decide (2 * q.1 < lo + n))).foldl
    (fun y q => y.evictLine p.1 q.1) z) s

/-- The ways in which a class may allocate: its mask, without ways 7 and 15 in economy and from the time it is asked for (11 R278, R282). -/
def State.waysOf (s : State) (die cls : Nat) : List Nat :=
  let m := s.reg (.clsWays cls)
  let d := s.die die
  (List.range 16).filter (fun w => bit m w && !((d.econ || d.eccPend || bit (s.reg (.dieSram die)) 0) && w % 8 = 7))

/-- Lines of a way of a slice: 3 MiB in 16 ways of lines of 64 bytes. -/
def wayLines : Nat := 3072

/-- A request of a class at its home slice brings the sector into the cache, unless it is there or the class allocates nowhere (11 R276,
R278). Which permitted way takes it and which line of that way goes for it is open; with the way full one goes. Log entry 12, DESIGN
CHOICE. -/
def State.touch (s : State) (pa cls : Nat) : State :=
  if 8 < pa / 2 ^ 48 then s
  else
    let die := homeDie pa
    let sec := pa / 32
    let side := s.sideMem pa
    let bad := if s.scaleMarked pa then [sec % 2] else []
    match (s.die die).cache.find (sec / 2) with
    | some l =>
      if (l.sects.find (sec % 2)).isSome then s
      else s.modDie die (fun d => { d with cache := d.cache.set (sec / 2) { l with sects := l.sects.set (sec % 2) side, bad := l.bad ++ bad } })
    | none =>
      match s.waysOf die cls with
      | [] => s
      | w :: ws =>
        let way := (w :: ws).getD (Config.cacheWay s.freeCount % (ws.length + 1)) w
        let slice := homeSlice pa
        let l := (s.die die).cache.filter (fun p => p.2.slice = slice && p.2.way = way)
        let v := Config.victim s.freeCount % (if wayLines ≤ l.length then l.length else l.length + 1)
        let s1 := match l[v]? with
          | some p => s.evictLine die p.1
          | none => s
        let line : Line := { slice := slice, way := way, sects := [(sec % 2, side)], dirty := [], bad := bad }
        (s1.modDie die (fun d => { d with cache := d.cache.set (sec / 2) line })).bump

/-- Requests of a class that a slice admits now (11 R279): none while the cache of its die changes mode (11 R282). -/
def State.admits (s : State) (pa cls : Nat) : Bool :=
  let d := s.die (homeDie pa)
  let allot := d.allot.get 0 cls
  8 < pa / 2 ^ 48 || (!d.eccPend && allot = 0) || !d.eccPend && decide (d.slice.get 0 (16 * homeSlice pa + cls) < allot)

/-- A slice admits a request (11 R279). -/
def State.allotTake (s : State) (pa cls : Nat) : State :=
  if 8 < pa / 2 ^ 48 then s
  else s.modDie (homeDie pa) (fun d =>
    let k := 16 * homeSlice pa + cls
    { d with slice := d.slice.set k (d.slice.get 0 k + 1) })

/-- A request enters its home slice: it is counted, and its sector is brought there (11 R276, R279). -/
def State.atSlice (s : State) (pa cls : Nat) : State := (s.allotTake pa cls).touch pa cls

/-! ### Channels of a mesh -/

/-- The channel in which a thread's requests go (11 R294). -/
def State.vcOf (s : State) (th : Thread) : Vc := { cls := s.svcCls th.svc, urgent := s.eff th == 3 }

/-- The channel of a service's requests for which no thread stands (11 R294). -/
def State.svcVc (s : State) (svc : Nat) : Vc := { cls := s.svcCls svc, urgent := false }

/-- The place of a channel among the allowances of a die. -/
def Vc.key (v : Vc) : Nat := 16 * (if v.urgent then 0 else 1) + v.cls

/-- What is left of a channel's allowance at a die (11 R297): `cls.bw.wt` as it stands at reset, before the first reload. -/
def State.vcLeft (s : State) (die : Nat) (v : Vc) : Nat := (s.die die).vc.get 1 v.key

/-- The allowances of the tier of a channel are loaded, which is when a write of `cls.bw.wt` takes effect (11 R280, R297). -/
def State.vcReload (s : State) (die : Nat) (v : Vc) : State :=
  let base := v.key / 16 * 16
  s.modDie die (fun d => { d with vc := (List.range 16).foldl (fun t c => t.set (base + c) (max 1 (fld (s.reg (.clsBw c)) 19 16))) d.vc })

/-- A grant at a die lowers the channel's allowance; with `dry`, its tier's are loaded first (11 R297). -/
def State.vcGrant (s : State) (die : Nat) (v : Vc) (dry : Bool) : State :=
  let s1 := if dry then s.vcReload die v else s
  s1.modDie die (fun d => { d with vc := d.vc.set v.key (d.vc.get 1 v.key - 1) })

/-- No request waits to leave a die. -/
def State.meshIdle (s : State) (die : Nat) : Bool :=
  s.mesh.all (fun m => dieOf m.c ≠ die) && s.storeQ.all (fun q => q.host || dieOf q.c ≠ die) && s.homeQ.all (fun q => dieOf q.c ≠ die) &&
    s.waits.all (fun w => w.got.isSome || dieOf w.c ≠ die)

/-- A request from a core to the home slice of an address crosses at once: nothing else waits to leave its die, and the slice admits it
(11 R279, R297). Log entry 13, DESIGN CHOICE. -/
def State.crosses (s : State) (c pa : Nat) (v : Vc) : Bool := s.meshIdle (dieOf c) && s.admits pa v.cls

/-- A request crosses at once, and the slice admits it. -/
def State.crossTo (s : State) (c pa : Nat) (v : Vc) : State :=
  if 8 < pa / 2 ^ 48 then s else (s.vcGrant (dieOf c) v (s.vcLeft (dieOf c) v == 0)).allotTake pa v.cls

/-- The same of a request that brings its sector into the slice. -/
def State.cross (s : State) (c pa : Nat) (v : Vc) : State := (s.crossTo c pa v).touch pa v.cls

/-- A request that waits where its owner stands: whose it is, the number of the owner's word, and its sector. -/
def WaitReq.for (w : WaitReq) (who : Owner) (seq sec : Nat) : Bool := w.who == who && w.seq == seq && w.pa / 32 == sec

/-- What an owner's request finds: it has crossed, with what the slice gave where it waited, or it waits. -/
inductive Crossed where
  | over (s : State) (got : Option (Option (BitVec 256)))
  | held (s : State)

/-- A request of an owner to the home slice of an address, which brings the sector there or not: it crosses at once, or waits until a mesh
grants it (11 R279, R294, R297). -/
def State.tryGo (s : State) (fill : Bool) (who : Owner) (seq c pa : Nat) (v : Vc) : Crossed :=
  match s.waits.find? (·.for who seq (pa / 32)) with
  | some w => if w.got.isSome then .over { s with waits := s.waits.filter (·.n ≠ w.n) } w.got else .held s
  | none =>
    if 8 < pa / 2 ^ 48 then .over s none
    else if s.crosses c pa v then .over (if fill then s.cross c pa v else s.crossTo c pa v) none
    else
      .held { s with
        waits := s.waits ++ [{ n := s.nextMsg, who := who, seq := seq, c := c, vc := v, fast := false, since := s.now, pa := pa, fill := fill,
                               got := none }]
        nextMsg := s.nextMsg + 1 }

/-- A request that brings its sector to the slice, and one that does not: an append (12 R302). -/
def State.tryCross (s : State) (who : Owner) (seq c pa : Nat) (v : Vc) : Crossed := s.tryGo true who seq c pa v
def State.tryReach (s : State) (who : Owner) (seq c pa : Nat) (v : Vc) : Crossed := s.tryGo false who seq c pa v

/-- The owner has requests that wait to cross, or have crossed. -/
def State.waiting (s : State) (who : Owner) : Bool := s.waits.any (·.who == who)

/-! ### Sectors -/

/-- The 32 bytes of a sector. -/
def State.sectRead (s : State) (sec : Nat) : BitVec 256 := BitVec.ofNat 256 (s.mem.getN (32 * sec) 32)

/-- Writes the bytes of a sector under a mask. A sector written whole holds good data; a line that the host caches is
back-invalidated first (19 R467, 20 R479). -/
def State.sectWrite (s : State) (sec : Nat) (data : BitVec 256) (mask : BitVec 32) : State :=
  ({ s with
    mem := s.mem.putMask (32 * sec) 32 data.toNat mask.toNat
    poison := if mask = BitVec.allOnes 32 then s.poison.filter (· ≠ sec) else s.poison
    hostLines := s.hostLines.filter (· ≠ sec / 2) } : State).soil sec

/-! ### The L1 -/

/-- Sends the written bytes of a dirty sector to its home slice, with its sideband and, if they carry one, their poison mark, as a request
in a channel: at once where the request can cross, else it is posted (09 R237; 11 R279, R295; 19 R467). -/
def State.l1Send (s : State) (c sec : Nat) (v : Vc) (x : L1Sect) (bad : Bool) : State :=
    if s.crosses c (32 * sec) v then
      let s1 := (s.cross c (32 * sec) v).sectWrite sec x.data x.wmask
      let s2 := match x.side with
        | some v => s1.putSide (32 * sec) x.wmask v
        | none => s1
      if bad then s2.mark sec else s2
    else
      { s with
        storeQ := s.storeQ ++ [{ n := s.nextMsg, urgent := v.urgent, fast := false, since := s.now, tile := none, rel := none, pa := 32 * sec,
                                 data := x.data, mask := x.wmask, c := c, t := 8, cls := v.cls, host := false, sync := false, side := x.side,
                                 wb := true, bad := bad, task := x.task, seq := 0, corr := 0, app := none, eng := none }]
        nextMsg := s.nextMsg + 1 }

/-- Writes back a dirty sector and leaves it clean (09 R237); one that was filled with marked bytes does not stay (19 R467). -/
def State.l1WriteBack (s : State) (c sec : Nat) (v : Vc) (x : L1Sect) : State :=
  (s.l1Send c sec v x false).modCore c (fun k => { k with
    l1 := if s.marked sec && x.wmask ≠ BitVec.allOnes 32 then k.l1.del sec else k.l1.set sec { x with dirty := none, wmask := 0 } })

/-- A release at a scope wider than `.grp`, a kill, and the end or save of a group: the core writes back every dirty sector recorded narrower
(09 R237). -/
def State.releaseAt (s : State) (c scope : Nat) (v : Vc) : State :=
  (s.core c).l1.foldl (fun s' p =>
    match p.2.dirty with
    | some d => if d < scope then s'.l1WriteBack c p.1 v p.2 else s'
    | none => s') s

/-- Write-backs of a core are on their way. -/
def State.writingBack (s : State) (c : Nat) : Bool := s.storeQ.any (fun q => q.wb && q.c == c)

/-- Lines of 64 bytes among rising sectors. -/
def lineCount : Tab L1Sect → Nat
  | [] => 0
  | [_] => 1
  | p :: q :: r => (if p.1 / 2 = q.1 / 2 then 0 else 1) + lineCount (q :: r)

/-- Lines of an L1 of 128 KiB (00 R2). -/
def l1Lines : Nat := 2048

/-- A line leaves the L1, its dirty sectors written back (09 R238). -/
def State.l1Evict (s : State) (c line : Nat) (v : Vc) : State :=
  let s1 := ((s.core c).l1.filter (fun p => p.1 / 2 = line)).foldl (fun z p =>
    if p.2.dirty.isSome then z.l1WriteBack c p.1 v p.2 else z) s
  s1.modCore c (fun k => { k with l1 := k.l1.filter (fun p => p.1 / 2 ≠ line) })

/-- A sector enters the L1, or changes there. Its line has one fill scope, the narrower of those of its sectors (09 R236); a line that comes
to a full L1 takes the place of one that is open. Log entry 11, DESIGN CHOICE. -/
def State.l1Put (s : State) (c sec : Nat) (v : Vc) (x : L1Sect) : State :=
  let m := (s.core c).l1
  let other := if sec % 2 = 0 then sec + 1 else sec - 1
  let new := (m.find sec).isNone && (m.find other).isNone
  let s1 := if new && decide (l1Lines ≤ m.length) && decide (l1Lines ≤ lineCount m) then
      match m[Config.victim s.freeCount % m.length]? with
      | some p => (s.l1Evict c (p.1 / 2) v).bump
      | none => s
    else s
  s1.modCore c (fun k => { k with l1 := match k.l1.find other with
    | some y => (k.l1.set other { y with fill := min x.fill y.fill }).set sec { x with fill := min x.fill y.fill }
    | none => k.l1.set sec x })

/-- The bytes of a sector as an L1 that holds written bytes of it would refill it. -/
def State.refill (s : State) (sec : Nat) (x : L1Sect) : L1Sect :=
  let m := s.mem.putMask (32 * sec) 32 x.data.toNat x.wmask.toNat
  { x with data := BitVec.ofNat 256 (m.getN (32 * sec) 32) }

/-- An acquire at a scope wider than `.grp`: the core invalidates every clean sector whose fill scope is narrower; of a
dirty one the written bytes are kept (09 R238). -/
def State.acquireAt (s : State) (c scope : Nat) : State :=
  s.modCore c (fun k => { k with l1 := k.l1.filterMap (fun p =>
    if p.2.fill < scope then
      (match p.2.dirty with
       | some _ => some (p.1, s.refill p.1 p.2)
       | none => none)
    else some p) })

/-- A task has ended: the lines of which it filled a sector at `.dom` are recorded `.grp` again, each whole (09 R236). -/
def State.l1Demote (s : State) (task : Nat) : State :=
  { s with cores := s.cores.map (fun p => (p.1,
      let own := (p.2.l1.filter (fun q => q.2.task = task && q.2.fill = 4)).map (·.1 / 2)
      { p.2 with l1 := p.2.l1.map (fun q => (q.1, if own.contains (q.1 / 2) then { q.2 with fill := 0 } else q.2)) })) }

/-- The sideband of a sector as a core meets it: its L1 line's, else its home's (03 R69, R93). -/
def State.sideAt (s : State) (c pa : Nat) : Option (BitVec 32) :=
  match ((s.core c).l1.find (pa / 32)).bind (·.side) with
  | some v => some v
  | none => s.sideGet pa

/-- The dirty bytes of a core's own copy of a sector are written back (09 R236). -/
def State.l1Clean (s : State) (c sec : Nat) (v : Vc) : State :=
  match (s.core c).l1.find sec with
  | some x => if x.dirty.isSome then s.l1WriteBack c sec v x else s
  | none => s

/-- The core's own copy of a sector goes, its dirty bytes written back (11 R284). -/
def State.l1Yield (s : State) (c sec : Nat) (v : Vc) : State :=
  let s1 := s.l1Clean c sec v
  s1.modCore c (fun k => { k with l1 := k.l1.del sec })

/-- The L1 lines of some sectors go from every core, and their lines of the shared cache, where a frame takes new contents (12 R299). -/
def State.dropLines (s : State) (lo n : Nat) : State :=
  let s1 := s.flushLines lo n
  { s1 with cores := s1.cores.map (fun p => (p.1, { p.2 with l1 := p.2.l1.filter (fun q =>
      !(decide (lo ≤ q.1) && decide (q.1 < lo + n))) })) }

/-! ### The race detector -/

/-- The thread's task, where its record enables the detector (09 R246). -/
def State.raced? (s : State) (th : Thread) : Option Task := (s.task? th.task).filter (·.raced)

/-- The gang phase (09 R246). -/
def State.gph (s : State) (k : Task) : Nat :=
  match s.phaseObj? k with
  | some o => ((s.core o.1).bar o.2).phase.toNat
  | none => 0

/-- The writer index of a thread (09 R246). -/
def Thread.widx (th : Thread) : Nat := 8 * th.group + th.wid.toNat % 2 ^ fld th.widw 5 0

/-- The greater count of each writer index of two tables (09 R248). -/
def mergeTab (a b : List (Nat × Nat)) : List (Nat × Nat) :=
  b.foldl (fun r p =>
    if r.any (·.1 == p.1) then r.map (fun q => if q.1 = p.1 then (q.1, max q.2 p.2) else q) else r ++ [p]) a

/-- Two entries that a merge makes one: of one writer, released by one group at scopes that meet alike. -/
def KEnt.same (a b : KEnt) : Bool := a.w == b.w && a.grp == b.grp && a.wide == b.wide

/-- The greater count of each entry of two carried tables (09 R248). -/
def mergeEnts (a b : List KEnt) : List KEnt :=
  b.foldl (fun r p =>
    if r.any (·.same p) then r.map (fun q => if q.same p then { q with n := max q.n p.n } else q) else r ++ [p]) a

/-- A thread whose completeness bit is clear (09 R249). -/
def Thread.partial_ (th : Thread) : Thread := { th with race := { th.race with cmpl := false } }

/-- Clears the completeness bit of every thread of the gang with a tag, whether it runs or is saved (09 R249). -/
def State.incomplete (s : State) (tag : Nat) : State :=
  let ids := (s.tasks.filter (fun k => k.tag == tag)).map (·.id)
  { s with
    threads := s.threads.map (fun th => if ids.contains th.task then th.partial_ else th)
    tasks := s.tasks.map (fun k => if k.tag == tag then
      { k with saved := k.saved.map (fun v => { v with threads := v.threads.map Thread.partial_ }) } else k) }

/-- Where a table is kept: with a tensor location, in the stamp store of a slice, or with a core's scratchpad word or object (09 R248). -/
inductive KeptAt where
  | mem (key home : Nat)
  | word (c off : Nat)
  | obj (c o phase : Nat)
  deriving DecidableEq, Repr

/-- The key of a core-side table: words by offset, objects by number and parity of the phase. -/
def KeptAt.key : KeptAt → Nat
  | .mem k _ => k
  | .word _ off => off
  | .obj _ o p => 2 ^ 21 + 2 * o + p % 2

/-- The phase whose arrivals a table merges (09 R248). -/
def KeptAt.phase : KeptAt → Nat
  | .obj _ _ p => p
  | _ => 0

/-- The stamp store in which a table of a location lies, where it lies in one. -/
def KeptAt.home : KeptAt → Nat
  | .mem _ h => h
  | _ => 0

/-- The kept table of a location for a gang; of an object, that of the phase named. -/
def State.kept (s : State) (tag : Nat) (l : KeptAt) : List KEnt :=
  match (match l with
    | .mem k _ => s.keptMem.find k
    | .word c _ | .obj c _ _ => (s.core c).kept.find l.key) with
  | some x => if x.tag = tag && x.phase = l.phase then x.ents else []
  | none => []

/-- Evicts `n` members of a list, one after another: which ones is open (09 R249).
Log entry 21, DESIGN CHOICE. -/
def evict {α : Type} (f : Nat → Nat) (c : Nat) : Nat → List α → List α
  | 0, l => l
  | n + 1, l => evict f (c + 1) n (l.eraseIdx (f c % l.length))

/-- The stamp store of a slice, numbered 32 × die + slice. -/
def storeOf (pa : Nat) : Nat := 32 * homeDie pa + homeSlice pa

/-- The stamps and kept tables of a slice's stamp store of 65,536 entries (09 R247, R248). -/
def State.storeUsed (s : State) (home : Nat) : List (Nat × Stamp) × List (Nat × Kept) :=
  (s.stamps.filter (fun p => storeOf (32 * p.1) = home), s.keptMem.filter (fun p => p.2.home = home))

/-- A stamp store makes room for one more entry: with none free, a stamp or a table goes, and which one is open (09 R249; log entry 21,
DESIGN CHOICE). -/
def State.storeRoom (s : State) (home : Nat) : State :=
  if s.stamps.length + s.keptMem.length < 65536 then s
  else
    let u := s.storeUsed home
    if u.1.length + u.2.length < 65536 then s
    else
      let v := Config.victim s.freeCount % (u.1.length + u.2.length)
      match u.1[v]?, u.2[v - u.1.length]? with
      | some p, _ => ({ s with stamps := Tab.del s.stamps p.1 } : State).bump.incomplete p.2.tag
      | none, some p => ({ s with keptMem := Tab.del s.keptMem p.1 } : State).bump.incomplete p.2.tag
      | none, none => s

/-- A table that takes the place of another gang's evicts it (09 R249). -/
def State.supplant (s : State) (tag : Nat) (old : Option Kept) : State :=
  match old with
  | some y => if y.tag = tag then s else s.incomplete y.tag
  | none => s

/-- Keeps a table with a location. A core keeps 64, so that some table is evicted for another (09 R248, R249; log entry 21, DESIGN CHOICE). -/
def State.keep (s : State) (tag : Nat) (l : KeptAt) (es : List KEnt) : State :=
  let z := if 9 < ((es.map (·.w)).eraseDups).length then s.incomplete tag else s
  let s0 := z.supplant tag (match l with
    | .mem k _ => z.keptMem.find k
    | .word c _ | .obj c _ _ => (z.core c).kept.find l.key)
  let x : Kept := { tag := tag, home := l.home, ents := es.take 9, phase := l.phase }
  match l with
  | .mem k h =>
    let s1 := if (s0.keptMem.find k).isSome then s0 else s0.storeRoom h
    { s1 with keptMem := s1.keptMem.set k x }
  | .word c _ | .obj c _ _ =>
    let k := (s0.core c).kept
    if 64 ≤ k.length && (k.find l.key).isNone then
      let v := Config.victim s0.freeCount % k.length
      let s1 := (s0.modCore c (fun z => { z with kept := Tab.set (k.eraseIdx v) l.key x })).bump
      match k[v]? with
      | some (_, y) => s1.incomplete y.tag
      | none => s1
    else s0.modCore c (fun z => { z with kept := z.kept.set l.key x })

/-- A release of a thread: its count rises (09 R248). -/
def State.raceCount (s : State) (th : Thread) : State :=
  match s.raced? th with
  | none => s
  | some _ => s.modThread th.c th.t (fun x => { x with race := { x.race with rcnt := min 65535 (x.race.rcnt + 1) } })

/-- The scope at which a release of the thread takes effect: a FENCE with release before it widens it (09 R229). -/
def Thread.relScope (th : Thread) (scope : Nat) : Nat := max scope (th.issue.relAt.getD 0)

/-- The table that a release of a thread at a scope carries: its own with its own entry, whose count has risen (09 R248). -/
def Thread.carries (th : Thread) (scope : Nat) : List KEnt :=
  (mergeTab [(th.widx, min 65535 (th.race.rcnt + 1))] th.race.acq).map (fun p =>
    { w := p.1, n := p.2, grp := th.group, wide := decide (1 ≤ scope) })

/-- What a release of a thread leaves at a tensor location when it is performed; none without the detector (09 R248). -/
def State.leavesAt (s : State) (th : Thread) (scope : Nat) (l : KeptAt) (merge : Bool) : Option Leaves :=
  (s.raced? th).map (fun k => { key := l.key, merge := merge, kept := { tag := k.tag, home := l.home, ents := th.carries scope } })

/-- A posted release is performed: the location keeps its table (09 R248). -/
def State.putLeaves (s : State) (x : Option Leaves) : State :=
  match x with
  | none => s
  | some x =>
    let l : KeptAt := .mem x.key x.kept.home
    s.keep x.kept.tag l (if x.merge then mergeEnts (s.kept x.kept.tag l) x.kept.ents else x.kept.ents)

/-- A release of a thread at a location: its count rises, and the location keeps the carried table, merged into the kept one
for a read-modify-write and for a barrier phase (09 R248). -/
def State.raceRelease (s : State) (th : Thread) (scope : Nat) (l : KeptAt) (merge : Bool) : State :=
  match s.raced? th with
  | none => s
  | some k =>
    let es := th.carries scope
    (s.raceCount th).keep k.tag l (if merge then mergeEnts (s.kept k.tag l) es else es)

/-- A thread takes over the entries of a table with which it synchronises: at most 8; a merge that finds the table full evicts an entry and
clears the completeness bit (09 R248, R249; log entry 21, DESIGN CHOICE). -/
def State.raceTake (s : State) (th : Thread) (es : List KEnt) : State :=
  let t := mergeTab th.race.acq ((es.filter (fun p => p.w ≠ th.widx)).map (fun p => (p.w, p.n)))
  let n := t.length - 8
  let s1 := s.modThread th.c th.t (fun x => { x with race := { x.race with
    acq := evict Config.victim s.freeCount n t, cmpl := x.race.cmpl && decide (t.length ≤ 8) } })
  if n = 0 then s1 else { s1 with freeCount := s.freeCount + n }

/-- The release that an entry comes from and an acquire of a thread at a scope meet the scope test: each thread lies within the other's
scope (09 R227); the threads are of one gang. -/
def KEnt.meets (x : KEnt) (th : Thread) (scope : Nat) : Bool := x.grp == th.group || (x.wide && decide (1 ≤ scope))

/-- A synchronising read of a thread at a location, as an acquire at a scope, or as none: what meets the scope test is taken over, and the
rest is held for a later FENCE (09 R227, R229, R248). -/
def State.raceRead (s : State) (th : Thread) (scope : Option Nat) (l : KeptAt) : State :=
  match s.raced? th with
  | none => s
  | some k =>
    let es := s.kept k.tag l
    let ok (x : KEnt) : Bool := match scope with
      | some n => x.meets th n
      | none => false
    (s.raceTake th (es.filter ok)).modThread th.c th.t (fun x => { x with race := { x.race with
      seen := mergeEnts x.race.seen (es.filter (fun e => !ok e)) } })

/-- An acquire of a thread at a location and a scope (09 R248). -/
def State.raceAcquire (s : State) (th : Thread) (scope : Nat) (l : KeptAt) : State := s.raceRead th (some scope) l

/-- A FENCE with acquire at a scope makes the thread's older synchronising reads acquires at it (09 R229). -/
def State.raceFence (s : State) (th : Thread) (scope : Nat) : State :=
  match s.raced? th with
  | none => s
  | some _ => (s.raceTake th (th.race.seen.filter (fun x => x.meets th scope))).modThread th.c th.t (fun x =>
      { x with race := { x.race with seen := x.race.seen.filter (fun e => !e.meets th scope) } })

/-- A stamp stands: its gang tag and phase are the accessing gang's (09 R247). -/
def State.stands (s : State) (k : Task) (x : Option Stamp) : Option Stamp :=
  x.filter (fun x => x.tag == k.tag && x.phase == s.gph k)

/-- A stamp is covered for a thread (09 R250). -/
def Thread.covered (th : Thread) (x : Stamp) : Bool :=
  x.writer == th.widx || x.count == 65535 || th.race.acq.any (fun p => p.1 == x.writer && decide (x.count < p.2))

/-- The race test of an ordinary access to sectors with these stamps, in order (09 R250), an access that the return from a RACE
exempts apart (16 R423): its `trap.val`, if it fails. -/
def State.raceTest (s : State) (th : Thread) (stamps : List (Option Stamp)) (store : Bool) : Option Word :=
  match s.raced? th with
  | none => none
  | some k =>
    if !th.race.en || !th.race.cmpl || th.race.exempt == some s.cur.e.seq then none
    else
      (stamps.findSome? (fun x => (s.stands k x).filter (fun y => !th.covered y))).map (fun x =>
        wd (b2n store * 2 ^ 36 + x.phase * 2 ^ 24 + x.count * 2 ^ 8 + x.writer))

/-- The stamp of a thread's store (09 R247). -/
def State.stampOf (s : State) (th : Thread) : Option Stamp :=
  (s.raced? th).map (fun k => { tag := k.tag, phase := s.gph k, writer := th.widx, count := th.race.rcnt })

/-- An ordinary store stamps the sectors that it writes (09 R247). -/
def State.stampSectors (s : State) (th : Thread) (secs : List Nat) : State :=
  match s.stampOf th with
  | none => s
  | some x =>
    secs.foldl (fun s' sec =>
      let s1 := if (s'.stamps.find sec).isSome then s' else s'.storeRoom (storeOf (32 * sec))
      { s1 with stamps := s1.stamps.set sec x }) s

end Sys2Proof.Machine
end

