-- ==== Sys2Proof/Machine/Operands.lean ====
section
/-!
DEFINITION. Operand fields: which ports a V word names (06 R154, R157; 02 Table 2.7), which engine a word goes to (02 R34),
and the scalar operand fields of A words (07 R193).
-/

namespace Sys2Proof.Machine

/-- The engine of a word (02 Table 2.1); a device step has none. -/
inductive Engine where
  | s | v | a | m | c | y | k | l | none
  deriving DecidableEq, Repr

/-- The vector source fields of a V word (06 Table 6.3). -/
def vSrcs : Instr → List (BitVec 5)
  | .vadd _ a b _ _ _ | .vsub _ a b _ _ _ | .vmul _ a b _ _ _ | .vmulh _ a b _ _ | .vfma _ a b _ _ | .vfms _ a b _ _
  | .vfnm _ a b _ _ | .vmin _ a b _ _ | .vmax _ a b _ _ | .vdiv _ a b _ _ | .vand _ a b _ _ | .vor _ a b _ _
  | .vxor _ a b _ _ | .vshl _ a b _ _ | .vshr _ a b _ _ | .vsra _ a b _ _ | .vcmpeq _ a b _ _ _ | .vcmplt _ a b _ _ _
  | .vcmple _ a b _ _ _ | .vcmpun _ a b _ _ _ | .vsel _ a b _ _ | .vdqblk _ a b _ _ | .vperm _ a b _ _ _
  | .vrot _ a b _ _ | .vzip _ a b _ _ _ | .vunzip _ a b _ _ _ | .vbcst _ a b _ _ | .vdot4 _ a b _ _ _
  | .vdot2 _ a b _ _ _ => [a, b]
  | .vabs _ a _ _ _ | .vneg _ a _ _ _ | .vsqrt _ a _ _ | .vrcp _ a _ _ _ | .vrsq _ a _ _ _ | .vexp2 _ a _ _ _
  | .vlog2 _ a _ _ _ | .vnot _ a _ _ | .vcvt _ a _ _ _ _ _ | .vqblk _ a _ _ | .vred _ a _ _ _ | .vscan _ a _ _ _
  | .vtos a _ | .vtoa a | .vmov _ a _ _ | .vclass _ a _ _ | .vclz _ a _ _ | .vpopc _ a _ _ => [a]
  | _ => []

/-- The vector destination field of a V word (06 Table 6.3). -/
def vDest : Instr → Option (BitVec 5)
  | .vadd d _ _ _ _ _ | .vsub d _ _ _ _ _ | .vmul d _ _ _ _ _ | .vmulh d _ _ _ _ | .vfma d _ _ _ _ | .vfms d _ _ _ _
  | .vfnm d _ _ _ _ | .vmin d _ _ _ _ | .vmax d _ _ _ _ | .vdiv d _ _ _ _ | .vand d _ _ _ _ | .vor d _ _ _ _
  | .vxor d _ _ _ _ | .vshl d _ _ _ _ | .vshr d _ _ _ _ | .vsra d _ _ _ _ | .vsel d _ _ _ _ | .vdqblk d _ _ _ _
  | .vperm d _ _ _ _ _ | .vrot d _ _ _ _ | .vzip d _ _ _ _ _ | .vunzip d _ _ _ _ _ | .vbcst d _ _ _ _
  | .vdot4 d _ _ _ _ _ | .vdot2 d _ _ _ _ _ | .vabs d _ _ _ _ | .vneg d _ _ _ _ | .vsqrt d _ _ _ | .vrcp d _ _ _ _
  | .vrsq d _ _ _ _ | .vexp2 d _ _ _ _ | .vlog2 d _ _ _ _ | .vnot d _ _ _ | .vcvt d _ _ _ _ _ _ | .vqblk d _ _ _
  | .vred d _ _ _ _ | .vscan d _ _ _ _ | .viota d _ _ | .vmovi d _ _ | .mpop d _ _ | .mfirst d _ _ | .vmov d _ _ _
  | .vclass d _ _ _ | .vclz d _ _ _ | .vpopc d _ _ _ => some d
  | _ => none

/-- The queue that a V word pushes (02 R47, 04 R101). -/
def vPush (i : Instr) : Option Port :=
  match i with
  | .vtos _ _ => some .vsq
  | .vtoa _ => some .vaq
  | _ => if vDest i = some 30 then some .sq else none

/-- Every port that a V word pops can pop what an older word has pushed, else the first that cannot, `lq0`, `lq1` and then `svq`: its number
(04 R102, R103, 16 R405). Log entry 76, DESIGN CHOICE. -/
def Thread.vReady (th : Thread) (now : Nat) (e : QEntry) : Option Nat :=
  let rs := vSrcs e.ins
  if rs.contains 28 && !(headReadyFor now e.seq th.q.lq0) then some 28
  else if rs.contains 29 && !(headReadyFor now e.seq th.q.lq1) then some 29
  else if rs.contains 31 && !(headReadyFor now e.seq th.q.svq) then some 31
  else none

/-- The queue that a V word pushes has room, else the stall value of R105, which is looked at after the pops (04 Table 4.2, R105; log entry
76, DESIGN CHOICE). -/
def Thread.vRoom (th : Thread) (i : Instr) : Option Nat :=
  match vPush i with
  | some .sq => if room 16 th.q.sq then none else some 30
  | some .vsq => if room 8 th.q.vsq then none else some 0x3C
  | some .vaq => if room 4 th.q.vaq then none else some 0x5D
  | _ => none

/-- A data queue is empty, or a word younger than `q` has reserved its head. -/
def noOlder {α : Type} (q : Nat) (l : List (QE α)) : Bool :=
  match l with
  | [] => true
  | e :: _ => older q e.seq

/-- The head V word waits on a pop port whose queue holds no entry of an older word, or on a full push queue: no older word can
let it issue (16 R407 step 2). -/
def Thread.vStuck (th : Thread) (e : QEntry) : Bool :=
  let rs := vSrcs e.ins
  (rs.contains 28 && noOlder e.seq th.q.lq0) || (rs.contains 29 && noOlder e.seq th.q.lq1) ||
    (rs.contains 31 && noOlder e.seq th.q.svq) || (th.vRoom e.ins).isSome

/-- The engine of a word. -/
def engineOf (i : Instr) : Engine :=
  match i with
  | .limm _ => .l
  | _ =>
    let w := i.encodeWord
    if w = 0 then (if i = .add 0 0 0 then .s else .none)
    else match (w >>> 29).toNat with
      | 0 => .s
      | 1 => .v
      | 2 => .a
      | 3 => .m
      | 4 => .c
      | 5 => .y
      | _ => .k

end Sys2Proof.Machine
end

