-- ==== Sys2Proof/Machine/Ops.lean ====
section
/-!
DEFINITION. The shared operations of words: taking a trap (16 R404-R412), the kill of a thread (16 R414, R415), the
return from a trap (16 R423), and how a word leaves the front, the access queue or a stage that it waits on.
-/

namespace Sys2Proof.Machine

/-- What a word's issue gives: the next state, or why there is none yet. -/
abbrev Eff := Except Stop State

/-- The outcome of a step. -/
abbrev Out := Host.Outcome State Fault Refusal

/-- Continues a next state. -/
def Out.mapNext (o : Out) (f : State → State) : Out :=
  match o with
  | .next s => .next (f s)
  | .fault r => .fault r
  | .refused r => .refused r

/-- A stage of a core (04 R106). -/
inductive Stage where
  | front | v | a
  deriving DecidableEq, Repr

/-! ### Last trap points -/

/-- A word that the fabric performs for the thread is on its way, or has come back: it is past its last trap point (16 R405). -/
def State.atomicFar (s : State) (th : Thread) : Bool :=
  s.fab.any (fun f => f.who == .thread th.c th.t && f.kind == 2) ||
    (th.issue.inp.isSome && (match th.aq with
      | { ins := .amo _ _ _ _ _ _, .. } :: _ | { ins := .amoc _ _ _ _ _ _, .. } :: _ => true
      | _ => false))

/-- An access word that passed its last trap point at decode (16 Table 16.1): register arithmetic without a port, TTSTAT and TPF; and a FENCE,
which can trap only while it waits behind an append. -/
def pastAtDecode (i : Instr) : Bool :=
  match i with
  | .aadd d a b | .asub d a b | .amul d a b | .ashl d a b | .ashr d a b | .aand d a b | .aor d a b => d ≠ 30 && a ≠ 28 && b ≠ 28
  | .aaddi d a _ _ => d ≠ 30 && a ≠ 28
  | .amovi d _ _ | .amovhi d _ _ | .ttstat d _ => d ≠ 30
  | .kset _ a _ => a ≠ 28
  | .kadd .. | .kaddi .. | .kclr .. | .tpf .. | .fence .. => true
  | _ => false

/-- An access word whose last trap point is the completion of its wait (16 Table 16.1). -/
def pastAtEnd (i : Instr) : Bool :=
  match i with
  | .bwait .. | .ldf .. | .ldfe .. | .stef .. => true
  | _ => false

/-- The oldest access word of a thread is past its last trap point (16 Table 16.1): at decode, once sent to another core or waiting at a
slice, or performed by the fabric; and it is in no wait that a limit ends. -/
def State.headPast (s : State) (th : Thread) : Bool :=
  s.atomicFar th || (th.issue.waitA.all (·.why.isNone) && (match th.aq with
    | e :: _ => pastAtDecode e.ins || (th.issue.far.any (·.1 == e.seq) && !pastAtEnd e.ins) || s.waiting (.thread th.c th.t)
    | [] => false))

/-! ### Waiting -/

/-- A stage of a thread waits, with the limit of `wait.limit` (08 R222). -/
def Thread.noteWait (th : Thread) (st : Stage) (why : Option WaitWhy) (now : Nat) : Thread :=
  let lim := th.csr.waitLimit.toNat
  match st with
  | .front => { th with issue := { th.issue with waitF := Wait.note th.issue.waitF why now lim, group := false } }
  | .v => { th with issue := { th.issue with waitV := Wait.note th.issue.waitV why now lim } }
  | .a => { th with issue := { th.issue with waitA := Wait.note th.issue.waitA why now lim } }

/-- The word at hand waits: its stage is not ready in this step (04 R106). -/
def State.noteWait (s : State) (st : Stage) (th : Thread) (why : Option WaitWhy) : State :=
  { s.setThread (th.noteWait st why s.now) with cur := { s.cur with stalled := true } }

/-! ### Leases of strips: what a thread has asked -/

/-- Withdraws the teller and leave requests of a thread's own waits (14 R367, 18 R454). -/
def State.withdraw (s : State) (th : Thread) : State :=
  let mine (r : TReq) : Bool := !r.start && r.task == th.task && r.group == th.group && r.t == th.t
  let d := s.die (dieOf th.c)
  let asked := (d.tq ++ d.enter).any (fun p => p.2.any mine)
  let keep (p : Nat × List TReq) := (p.1, p.2.filter (fun r => !mine r))
  let s1 := s.setDie (dieOf th.c)
    { d with tq := d.tq.map keep, enter := d.enter.map keep,
             leaveQ := d.leaveQ.map (fun p => (p.1, p.2.filter (fun r => r.who ≠ .draw th.c th.t))) }
  let s2 := if asked then s1.modGroup th.task th.group (fun g => { g with pend := false }) else s1
  s2.modThread th.c th.t (fun x => { x with issue := { x.issue with once := 0 } })

/-- A cycle of the teller, or of the grant of leave, has passed over the requests with `try` of a kind on a die: they are withdrawn (14 R367,
18 R454). -/
def State.passOver (s : State) (die kind : Nat) : State :=
  (s.threads.filter (fun th => dieOf th.c = die && th.issue.once = kind && th.issue.got.isNone)).foldl (fun z th =>
    (z.withdraw th).modThread th.c th.t (fun x => { x with issue := { x.issue with once := 3 } })) s

/-! ### The kill log and a kill -/

/-- CSR `here` of a thread (01 R28). -/
def State.here (s : State) (th : Thread) : Nat :=
  th.svc * 2 ^ 16 + s.svcCls th.svc * 2 ^ 12 + th.c * 8 + th.t

/-- One slot of a kill-log record: cause, epc and val of the trap at level `i` (16 Table 16.4), as the trap was taken, whatever a handler
has written to its registers since (16 R413). `top` stands for the level at which the thread runs. Log entry 18, DEDUCED. -/
def Thread.killSlot (th : Thread) (top : BitVec 6 × Word × Word) (i : Nat) : BitVec 6 × Word × Word :=
  if i < th.trap.level then (if i = 0 then th.trap.r1.orig else th.trap.r2.orig)
  else if i = th.trap.level then top else (0, 0, 0)

/-- Writes a record to the kill log of the thread's service (16 R415). -/
def State.killLog (s : State) (th : Thread) (reason : Nat) (top : BitVec 6 × Word × Word) : State :=
  let b := s.reg (.svcKlog th.svc)
  let lg := fld b 4 0
  if lg = 0 then s
  else
    let v := s.svc th.svc
    let a := fld b 51 12 * 4096 + 64 * (v.khead.toNat % 2 ^ lg)
    let x0 := th.killSlot top 0
    let x1 := th.killSlot top 1
    let x2 := th.killSlot top 2
    let m := s.mem.putWord a th.wid
    let m := m.putWord (a + 8) (wd (x2.1.toNat * 2 ^ 56 + x1.1.toNat * 2 ^ 48 + x0.1.toNat * 2 ^ 40 + reason * 2 ^ 32 +
      s.here th))
    let m := (m.putWord (a + 16) x0.2.1).putWord (a + 24) x0.2.2
    let m := (m.putWord (a + 32) x1.2.1).putWord (a + 40) x1.2.2
    let m := (m.putWord (a + 48) x2.2.1).putWord (a + 56) x2.2.2
    ((s.wrote a 64 m).setSvc th.svc { v with khead := v.khead + 1 }).irq 1

/-- The entry stands for a word of this thread. -/
def QEntry.ofThread (e : QEntry) (th : Thread) : Bool := e.c == th.c && e.t == th.t && e.task == th.task

/-- A request for leave is withdrawn; where leave was granted already, its operation ends without having begun (18 R451, R453). -/
def State.dropLeave (s : State) (d id : Nat) : State :=
  if id = 0 then s
  else
    let s1 := s.modDie d (fun x => { x with leaveQ := x.leaveQ.map (fun p => (p.1, p.2.filter (fun r => r.id ≠ id))) })
    if (s1.die d).granted.any (fun g => g.id == id) then s1.later [.leaveSettle d id 0] else s1

/-- The energy of an operation that has ended is settled (18 R453; log entry 33, DESIGN CHOICE). -/
def State.settle (s : State) (die id : Nat) : State :=
  if id = 0 then s else (s.later [.leaveSettle die id (Config.meter s.freeCount)]).bump

/-- Removes the queued M and C words of a thread that satisfy `p` (16 R404, R414); a head that goes withdraws its request for
leave. -/
def State.dropQueued (s : State) (th : Thread) (p : QEntry → Bool) : State :=
  let gone (e : QEntry) : Bool := e.ofThread th && p e
  let top (q : List QEntry) : Bool := (q.head?.map gone).getD false
  let die := dieOf th.c
  let ids := ((s.core th.c).chans.filter (fun x => top x.2.q)).map (fun x => x.2.leave) ++
    ((s.die die).strips.filter (fun x => top x.2.q)).map (fun x => x.2.leave)
  let s1 := s.modCore th.c (fun k => { k with chans := k.chans.map (fun x =>
    let q := x.2.q.filter (fun e => !gone e)
    (x.1, if top x.2.q then { x.2 with q := q, leave := 0, granted := false } else { x.2 with q := q })) })
  let s2 := s1.modDie die (fun d => { d with strips := d.strips.map (fun x =>
    let q := x.2.q.filter (fun e => !gone e)
    (x.1, if top x.2.q then { x.2 with q := q, leave := 0, granted := false } else { x.2 with q := q })) })
  ids.foldl (fun z i => z.dropLeave die i) s2

/-- Credits energy to an account, to at most `alw.cap.uj` (18 R453, R454). -/
def State.credit (s : State) (svc : Nat) (n : Nat) : State :=
  s.modSvc svc (fun v => { v with bal := max v.bal (min (v.bal + n) (fld v.capNow 31 0)) })

/-- An implicit BARD of a thread at an object: a release at `.gang` or the scope of a FENCE before it (08 R210, R214; 09 R229). -/
def State.dropBar (s : State) (th : Thread) (o : Nat × Nat) : State :=
  match s.thread? th.c th.t with
  | some x => (s.raceRelease x (x.relScope 1) (.obj o.1 o.2 ((s.core o.1).bar o.2).phase.toNat) true).updBar o Bar.drop
  | none => s.updBar o Bar.drop

/-- Drops the thread's registrations at its end (08 R210). -/
def State.dropAll (s : State) (th : Thread) : State := th.registered.foldl (fun s' o => s'.dropBar th o) s

/-- An access of a killed thread, or a write-back of its core, that came before its drops is still on its way (08 R214, 09 R228). -/
def State.dropHeldUp (s : State) (x : LateDrop) : Bool :=
  s.storeQ.any (fun q => decide (q.n < x.req) && q.c == x.c && (q.wb || q.t == x.t && (!q.host || q.sync || decide (5 ≤ x.scope)))) ||
    s.homeQ.any (fun q => decide (q.n < x.req) && q.c == x.c && q.t == x.t) ||
    s.mesh.any (fun m => decide (m.n < x.req) && m.c == x.c && m.t == x.t) ||
    s.dies.any (fun p => p.2.defer.any (fun q => q.c == x.c && q.t == x.t && q.task == x.task)) ||
    s.fab.any (fun f => decide (f.id < x.fab) && f.who == .thread x.c x.t && (f.kind == 3 || f.kind == 1 && (f.sync || decide (4 ≤ x.scope))))

/-- The drops of a killed thread are made, each a release (08 R210, R214). -/
def State.makeDrops (s : State) (x : LateDrop) : State :=
  x.objs.foldl (fun z o =>
    let l : KeptAt := .obj o.1 o.2 ((z.core o.1).bar o.2).phase.toNat
    (match x.leaves with
      | some (tag, es) => z.keep tag l (mergeEnts (z.kept tag l) es)
      | none => z).updBar o Bar.drop) s

/-- The drops of a killed thread: now, or once what came before them has been performed. -/
def State.dropLater (s : State) (x : LateDrop) : State :=
  if x.objs.isEmpty then s else if s.dropHeldUp x then { s with drops := s.drops ++ [x] } else s.makeDrops x

/-- A kill (16 R414): the front stops and steered words are abandoned, objects are poisoned, and dropped, each as a release (08 R210, R214),
for which the core writes back and which waits for what the thread has posted; a record is written, the slot is freed. The reserve returns to
the account (18 R454). -/
def State.kill (s : State) (th : Thread) (reason : Nat) (top : BitVec 6 × Word × Word) : State :=
  let objs := th.registered
  let scope := th.relScope 1
  let s0 := ((s.withdraw th).leaveAll th.c th.t).dropQueued th (fun _ => true)
  let s1 := objs.foldl (fun z o => z.updBar o Bar.setPoison) (if objs.isEmpty then s0 else s0.releaseAt th.c scope (s.svcVc th.svc))
  let late : LateDrop := { c := th.c, t := th.t, task := th.task, objs := objs, leaves := (s.raced? th).map (fun k => (k.tag, th.carries scope)),
                           scope := scope, req := s1.nextMsg, fab := s1.nextFab }
  let s2 := (s1.dropLater late).killLog th reason top
  let lost (f : FabReq) : Bool := f.who == .thread th.c th.t && (f.kind == 0 || f.kind == 2)
  let s3 := ({ s2 with fab := s2.fab.filter (fun f => !lost f) }.dropThread th.c th.t).credit th.svc th.csr.leave.toNat
  s3.modGroup th.task th.group (fun g => { g with live := g.live - 1 })

/-- The task of a thread has failed: 1 by a trap, 2 by containment, 3 by the launch's abort; a trap goes before (19 Table
19.3). The discard is the unit's next work, but that after a trap lets those first take POISON who wait on an object that the
kill has poisoned (08 R210). Log entry 19, DEDUCED. -/
def State.doomTask (s : State) (task : Nat) (how : Nat) : State :=
  match s.task? task with
  | none => s
  | some k =>
    let s1 := s.modTask task (fun k => { k with doom := if k.doom = 0 || how = 1 then how else k.doom })
    if k.doom = 0 && how ≠ 1 then s1.later [.taskDiscard task] else s1

/-- A word, command or fragment of a task has consumed a poison mark (19 R467, R469, R472): it is reported as class 2, and the
task is discarded. `c` and `t` name the thread that stands behind it, `epc` the word's address. -/
def State.consume (s : State) (task c t : Nat) (epc : Word) (corr : BitVec 32) (unit die core loc : Nat) (val : Word) :
    State :=
  match s.task? task with
  | none => s
  | some k =>
    let s1 := s.errReport 2 unit die core loc corr k.seq.toNat k.svc
    let s2 := s1.modTask task (fun k => { k with culprit := if k.culprit.isNone then some (c, t, epc, val) else k.culprit })
    s2.doomTask task 2

/-! ### Taking a trap -/

/-- Older words have settled, so that a trap can be taken at number `q` (16 R406, R407 steps 1 and 2): no older A or Y word
is left, and no older V word can still issue. -/
def Thread.settled (th : Thread) (q : Nat) : Bool :=
  th.atHorizon q && (match th.xq with
    | [] => true
    | e :: _ => !(older e.seq q) || th.vStuck e)

/-- The thread as it stands when a trap is taken at number `q`: run-ahead undone, younger words and pushes discarded
(16 R404, R407 step 5). -/
def Thread.rollBack (th : Thread) (q : Nat) : Thread :=
  let th1 := th.undo q
  let keep {α : Type} (l : List (QE α)) := l.filter (fun e => older e.seq q)
  let gone := th1.xq.any (fun e => e.ins == .vwait && !(older e.seq q))
  { th1 with
    issue := { th1.issue with vwait := th1.issue.vwait && !gone }
    aq := th1.aq.filter (fun e => older e.seq q)
    xq := th1.xq.filter (fun e => older e.seq q)
    q := { th1.q with saq := keep th1.q.saq, svq := keep th1.q.svq }
    hist := []
    lpre := none }

/-- The thread stands before a word of its own that is to be executed again: rolled back to it, without a trap. The exemption of the return
from a RACE goes over to the word's new number (16 R423). -/
def Thread.backTo (th : Thread) (e : QEntry) : Thread :=
  let x := th.rollBack e.seq
  { x with pc := e.addr, race := { x.race with exempt := if x.race.exempt = some e.seq then some th.seq else x.race.exempt } }

/-- `trap.stat` of a trap at number `q` (16 R411). -/
def Thread.trapStat (th : Thread) (q : Nat) (src : Nat) : Word :=
  wd (seq16 q * 2 ^ 48 + th.xq.length * 2 ^ 40 + th.land.length * 2 ^ 32 + th.loops.length * 2 ^ 8 + src * 2 ^ 4 +
    th.trap.level)

/-- What is set aside at entry to a level (16 R408, R409). -/
def Thread.setAside (th : Thread) : Bank :=
  { loops := th.loops, tick := th.tick, vset := th.xq, nests := th.nests, inflight := th.land,
    vwait := th.issue.vwait }

/-- No stage waits, and nothing is on its way for the thread's words. -/
def Issue.afresh (i : Issue) : Issue :=
  { i with
    waitF := none, waitV := none, waitA := none, got := none, once := 0, vwait := false, far := none, fet := none, sent := none, woke := none,
    drw := none, inp := none, group := false, drain := false, runOn := false, refused := none }

/-- Entry to the next level: its four registers are written, the state of R409 is set aside, the pc takes the vector
(16 R407 steps 4 to 7, R411). -/
def Thread.enter (th : Thread) (q : Nat) (epc : Word) (cause : BitVec 6) (val : Word) (src : Nat) : Thread :=
  let r : TrapRegs := { cause := cause, orig := (cause, epc, val), epc := epc, val := val, stat := th.trapStat q src }
  let t : TrapState :=
    if th.trap.level = 0 then { th.trap with level := 1, r1 := r, bank1 := th.setAside }
    else { th.trap with level := 2, r2 := r, bank2 := th.setAside }
  { th with
    trap := t, pc := if th.trap.level = 0 then th.trap.vec1 else th.trap.vec2, lpre := none, loops := [], tick := 0,
    xq := [], land := [], nests := [],
    issue := th.issue.afresh }

/-- The splitter keeps one record of a lease's mode for the group's threads (15 R372): a change of it by one is every one's. -/
def State.syncMode (s : State) (old new : Thread) : State :=
  if old.lmode = new.lmode then s
  else { s with threads := s.threads.map (fun x =>
    if x.task = new.task && x.group = new.group then { x with lmode := new.lmode } else x) }

/-- TAKES A TRAP at the word with number `q` and address `epc` (16 R407): the thread enters the next level, or is killed
where that level's vector is zero or the thread runs at level 2 (R414). A trap point at the front has taken its number (02 R36). -/
def State.takeTrap (s : State) (th : Thread) (q : Nat) (epc : Word) (cause : BitVec 6) (val : Word) (src : Nat) :
    State :=
  let th1 := { th.rollBack q with seq := if q = th.seq then th.seq + 1 else th.seq }
  let s1 := ((s.withdraw th).leaveAll th.c th.t).dropQueued th (fun e => !(older e.seq q))
  let s2 := if th.traces 3 then
      s1.trace th.c th.t 3 q th.csr.corr (cause.toNat + (th.trap.level + 1) * 2 ^ 8) epc val else s1
  if th.trap.level = 2 then
    (((s2.setThread th1).kill th1 1 (cause, epc, val))).doomTask th.task 1
  else if (if th.trap.level = 0 then th.trap.vec1 else th.trap.vec2) = 0 then
    (((s2.setThread th1).kill th1 2 (cause, epc, val))).doomTask th.task 1
  else
    let th2 := match s2.thread? th.c th.t with
      | some x => { th1 with csr := x.csr }
      | none => th1
    (s2.setThread (th2.enter q epc cause val src)).syncMode th th1

/-- The return from a trap (16 R423): the level's bank is put back, the level falls by one and the pc is that level's
`trap.epc`. To the V words put back, what the handler pushed is an older word's (log entry 75, DEDUCED). -/
def Thread.leaveTrap (th : Thread) : Thread :=
  let b := if th.trap.level = 1 then th.trap.bank1 else th.trap.bank2
  let r := if th.trap.level = 1 then th.trap.r1 else th.trap.r2
  { th with
    pc := r.epc, lpre := none, loops := b.loops, tick := b.tick, xq := b.vset, nests := b.nests, land := b.inflight,
    issue := { th.issue with vwait := b.vwait }
    q := { th.q with lq0 := th.q.lq0.map QE.past, lq1 := th.q.lq1.map QE.past, svq := th.q.svq.map QE.past }
    trap := if th.trap.level = 1 then { th.trap with level := 0, bank1 := Bank.empty }
            else { th.trap with level := 1, bank2 := Bank.empty } }

/-! ### Debug stops -/

/-- The front stands inside the body of an active LOOPS level (21 R505). -/
def Thread.inLoops (th : Thread) : Bool :=
  match th.loops with
  | [] => false
  | l :: _ => l.pipelined && decide (l.first ≤ th.pc) && decide (th.pc ≤ l.last)

/-- The front stands at a pass boundary: the first word of the body (21 R505). -/
def Thread.atPass (th : Thread) : Bool :=
  match th.loops with
  | [] => false
  | l :: _ => l.pipelined && decide (l.first = th.pc)

/-- Stops a thread for the debug interface (21 R505) at the point of 16 R417: an incomplete access word, else the front
position. The record names the word that asked for the stop (21 R497); a request of the interface has none, and the front's next number stands for
it. Log entry 22, DESIGN CHOICE. -/
def State.stopAt (s : State) (th : Thread) (kind : Nat) : State :=
  let s1 := (s.withdraw th).leaveAll th.c th.t
  let p := match th.aq with
    | e :: _ => (s1.dropQueued th (fun x => !(older x.seq e.seq)), th.backTo e)
    | [] => (s1, th)
  let i := { p.2.issue with
    stopped := true, stopReq := 0, waitF := none, waitV := none, waitA := none, once := 0, sent := none, woke := none, group := false }
  let th1 := { p.2 with lpre := none, issue := i }
  let s2 := (p.1.setThread th1).syncMode th th1
  if th.csr.trc.getLsbD 0 then
    (s2.trace th.c th.t 10 (if kind = 2 then th.seq else th.issue.stopSeq) th.csr.corr kind th1.pc (Config.loopWord s.freeCount)).bump
  else s2

/-- A stop that is asked for may be made now: outside a LOOPS body, or at its pass boundary with no access word left, and
with every older V word issued that can issue (21 R505, 16 R407). An access word past its last trap point, or whose wait has ended,
completes first (16 R417). -/
def State.mayStop (s : State) (th : Thread) : Bool :=
  (!th.inLoops || (th.atPass && th.aq.isEmpty)) && th.issue.woke.isNone && !s.headPast th && (match th.xq with
    | [] => true
    | e :: _ => th.vStuck e)

/-- Makes a stop that is asked for, if it may be made now. -/
def State.tryStop (s : State) (th : Thread) : State :=
  if th.issue.stopReq ≠ 0 && s.mayStop th then s.stopAt th (th.issue.stopReq - 1) else s

/-! ### Front words -/

/-- The front waits until older results have landed: its thread is given drain ticks meanwhile (04 R113). -/
def State.drainWait (s : State) (th : Thread) : State :=
  s.noteWait .front { th with issue := { th.issue with drain := true } } none

/-- The V pick gives a thread a drain tick: its execute queue is empty, a result is in flight, and its front waits at a word that
drains, or has steered a VWAIT (04 R113, 06 R177). -/
def Thread.drains (th : Thread) : Bool :=
  th.xq.isEmpty && !th.land.isEmpty && (th.issue.drain || th.issue.vwait)

/-- A drain tick (04 R113). -/
def State.drainTick (s : State) (th : Thread) : State :=
  let s1 := s.setThread { th with tick := th.tick + 1, issue := { th.issue with lastV := s.now + 1 } }
  if th.land.any (fun l => decide (l.due ≤ th.tick + 1)) then s1.later [.vResultLand th.c th.t] else s1

/-- The front word is done: the thread moves past it (02 R36, 05 R137), and traces the loop levels that it left. -/
def State.frontDone (s : State) (old : Thread) (e : QEntry) (tgt : Option Word) : State :=
  match s.thread? old.c old.t with
  | none => s
  | some th =>
    let th1 := th.advance e tgt s.now
    let s1 := (s.setThread th1).traceLoops th1 old.seq old.loops th1.loops
    match s1.thread? old.c old.t with
    | some th2 => s1.tryStop th2
    | none => s1

/-- A front word's own fault: taken at the horizon once older words have settled (16 R406), until then the front waits.
Log entry 70, DEDUCED. -/
def State.frontTrap (s : State) (th : Thread) (e : QEntry) (cause : BitVec 6) (val : Word) : State :=
  if th.settled th.seq then s.takeTrap th th.seq e.addr cause val 0 else s.noteWait .front th none

/-- The word at hand has consumed a poison mark: it does not complete (19 R472). -/
def State.consumed (s : State) (st : Stage) (th : Thread) (u d k l : Nat) (v : Word) : State :=
  (s.consume th.task th.c th.t s.cur.e.addr s.cur.e.corr u d k l v).noteWait st th none

/-- The front has moved a thread on, from `th`: the word waits where its history entries would be more than 64 (05 R146). -/
def State.moved (s : State) (th : Thread) (s1 : State) : State :=
  match s1.thread? th.c th.t with
  | some x => if 64 < x.hist.length then s.noteWait .front th none else s1
  | none => s1

/-- Runs a word at the front (05 R146, R147): it takes effect when the history has room. -/
def frontWord (s : State) (body : Thread → Except Stop (State × Option Word)) : Out :=
  match s.thread? s.cur.c s.cur.t with
  | none => .fault .noThread
  | some th =>
    match body th with
    | .ok (s1, tgt) => .next (s.moved th (s1.frontDone th s.cur.e tgt))
    | .error (.wait w) => .next (s.noteWait .front th w)
    | .error .drain => .next (s.drainWait th)
    | .error (.consume u d k l v) => .next (s.consumed .front th u d k l v)
    | .error (.trap c v) => .next (s.frontTrap th s.cur.e c v)

/-- A K word that may change the state while it waits, as one that asks a unit for a grant: without a target it stays at the
front, waiting for a reason. One that drains does so before the horizon (04 R113). -/
def kHold (s : State) (why : Option WaitWhy) (body : Thread → Except Stop (State × Option (Option Word))) : Out :=
  match s.thread? s.cur.c s.cur.t with
  | none => .fault .noThread
  | some th =>
    if !th.atHorizon th.seq then .next (match body th with
      | .error .drain => s.drainWait th
      | _ => s.noteWait .front th none)
    else match body th with
      | .ok (s1, some tgt) => .next (s1.frontDone th s.cur.e tgt)
      | .ok (s1, none) =>
        match s1.thread? th.c th.t with
        | some th1 => .next (s1.noteWait .front th1 why)
        | none => .next s1
      | .error (.wait w) => .next (s.noteWait .front th w)
      | .error .drain => .next (s.drainWait th)
      | .error (.consume u d k l v) => .next (s.consumed .front th u d k l v)
      | .error (.trap c v) => .next (s.frontTrap th s.cur.e c v)

/-- An S word: it changes its own thread only. -/
def sWord (s : State) (body : Thread → Except Stop (Thread × Option Word)) : Out :=
  frontWord s (fun th => do
    let r ← body th
    .ok (s.setThread r.1, r.2))

/-- A K word: it takes effect at the horizon (05 R147); one that drains does so before (04 R113). -/
def kWord (s : State) (body : Thread → Except Stop (State × Option Word)) : Out :=
  frontWord s (fun th => if th.atHorizon th.seq then body th else match body th with
    | .error .drain => .error .drain
    | _ => .error (.wait none))

/-! ### Access words -/

/-- The word enters the thread's access queue and the front moves past it (02 R37); a full queue holds the front. -/
def State.steerA (s : State) (th : Thread) : State :=
  if 32 ≤ th.aq.length then s.noteWait .front th none
  else
    let th1 := { th with aq := th.aq ++ [s.cur.e] }
    s.moved th ((s.setThread th1).frontDone th1 s.cur.e none)

/-- The access engine has issued in this cycle, and nothing waits at it. -/
def Issue.accessed (i : Issue) (now : Nat) : Issue :=
  { i with lastA := now + 1, paced := (i.paced.1, now + 1), waitA := none, far := none, fet := none, sent := none, woke := none, drw := none, inp := none }

/-- An A or Y word has completed from the head of its queue: the entry goes, and history entries of words that are now at
the horizon are freed (05 R147). -/
def Thread.accessDone (th : Thread) (now : Nat) : Thread :=
  ({ th with aq := th.aq.tail, issue := th.issue.accessed now }).prune

/-- An access word takes a trap once older words have settled (16 R404, R406), or, for a BREAK with `trc.dbg` set, stops for the
debug interface (21 R505): at itself, or, while the front is inside a LOOPS body, at the end of the pass, the word being performed before.
None while it cannot be taken. -/
def State.accessTrap? (s : State) (th : Thread) (e : QEntry) (cause : BitVec 6) (val : Word) : Option State :=
  if !th.settled e.seq then none
  else if cause = 0x0F && th.csr.trc.getLsbD 6 then
    let th0 := { th with issue := { th.issue with stopSeq := e.seq } }
    if th.inLoops then some (s.setThread { th0 with issue := { th0.issue with stopReq := 2 } })
    else
      let th1 := th0.backTo e
      some (((s.dropQueued th (fun x => !(older x.seq e.seq))).stopAt th1 1).syncMode th th1)
  else some (s.takeTrap th e.seq e.addr cause val 1)

/-- A word that waits in the access queue, after a step that changed the state. -/
def State.waitA (s : State) (c t : Nat) (why : Option WaitWhy) : State :=
  match s.thread? c t with
  | some th => s.noteWait .a th why
  | none => s

/-- Runs an A or Y word: the front steers it, and at the head of the access queue it is performed (02 R36, R38). It may change the state
while it waits, as one that takes a place among waiters: with a reason, it stays where it is. A trap is taken at the word (16 R404,
R406). -/
def accessHold (s : State) (body : Thread → Except Stop (State × Option (Option WaitWhy))) : Out :=
  match s.thread? s.cur.c s.cur.t with
  | none => .fault .noThread
  | some th =>
    if s.cur.front then .next (s.steerA th)
    else
      match body th with
      | .ok (s1, none) => .next (s1.modThread th.c th.t (·.accessDone s.now))
      | .ok (s1, some w) => .next (s1.waitA th.c th.t w)
      | .error (.wait w) => .next (s.noteWait .a th w)
      | .error .drain => .next (s.noteWait .a th none)
      | .error (.consume u d k l v) => .next (s.consumed .a th u d k l v)
      | .error (.trap c v) =>
        match s.accessTrap? th s.cur.e c v with
        | some s1 => .next s1
        | none => .next (s.noteWait .a th none)

/-- Runs an A or Y word that changes nothing while it waits. -/
def accessWord (s : State) (body : Thread → Eff) : Out :=
  accessHold s (fun th => (body th).map (fun s1 => (s1, none)))

end Sys2Proof.Machine
end

