-- ==== Sys2Proof/Machine/Tensor.lean ====
section
/-!
DEFINITION. Tensor space: descriptors (10 R253, R254), the layout unit (10 R257, 07 R189), tile maps (10 R258), tensor fault
values (10 R259), ranges and the lease check (10 R260, R261), and the fetch of an instruction's bytes (05 R124).
-/

namespace Sys2Proof.Machine

/-! ### Descriptors -/

/-- A tensor descriptor (10 R253); lists have six entries. -/
structure Desc where
  rank : Nat
  ty : Nat
  swz : Nat
  home : Nat
  pr : Bool
  pw : Bool
  px : Bool
  ord : List Nat
  tlg : List Nat
  ext : List Nat
  root : Nat
  peer : Nat
  nroot : Nat
  deriving DecidableEq, Repr

/-- Bits of an element of a type code (06 Table 6.1; 10 R254: 4 for types 11 and 12). -/
def elemBits (ty : Nat) : Nat :=
  if ty = 0 || ty = 3 || ty = 9 || ty = 10 then 8
  else if ty = 1 || ty = 4 || ty = 7 || ty = 8 then 16
  else if ty = 2 || ty = 5 || ty = 6 then 32
  else 4

def sumN (l : List Nat) : Nat := l.foldl (· + ·) 0
def prodN (l : List Nat) : Nat := l.foldl (· * ·) 1

/-- Bytes of a tile (10 R254). -/
def Desc.bytes (d : Desc) : Nat := elemBits d.ty * 2 ^ sumN d.tlg / 8

/-- The tile grid: g_j = ceil(ext_j / 2^tlg_j), and 1 at or above the rank (10 R254). -/
def Desc.grid (d : Desc) : List Nat :=
  (d.ext.zip d.tlg).map (fun p => if p.1 = 0 then 1 else (p.1 + 2 ^ p.2 - 1) / 2 ^ p.2)

/-- Tiles of a tensor (10 R254). -/
def Desc.tiles (d : Desc) : Nat := prodN d.grid

/-- Six fields of `n` bits of a word. -/
def sixFields (w : Word) (lo n : Nat) : List Nat := (List.range 6).map (fun i => w.toNat / 2 ^ (lo + n * i) % 2 ^ n)

/-- The words of a descriptor, cut into fields. -/
def Desc.ofWords (ws : List Word) : Desc :=
  let w (i : Nat) : Word := ws.getD i 0
  { rank := fld (w 0) 62 60, ty := fld (w 0) 59 56, swz := fld (w 0) 55 52, home := fld (w 0) 51 48,
    pr := bit (w 0) 47, pw := bit (w 0) 46, px := bit (w 0) 45,
    ord := sixFields (w 0) 27 3, tlg := sixFields (w 1) 0 5,
    ext := [fld (w 2) 31 0, fld (w 2) 63 32, fld (w 3) 31 0, fld (w 3) 63 32, fld (w 4) 31 0, fld (w 4) 63 32],
    root := fld (w 5) 51 12, peer := fld (w 6) 41 32, nroot := fld (w 6) 21 0 }

/-- The dimension at a place (10 R253, `td.ord`). -/
def Desc.dim (d : Desc) (p : Nat) : Nat := d.ord.getD p 0

/-- The conditions of R254 on a descriptor's fields; a home that Table 10.1 reserves and a `td.tlg` above 21 break them too. Log entry
82, DEDUCED. -/
def Desc.valid (d : Desc) : Bool :=
  decide (1 ≤ d.rank) && decide (d.rank ≤ 6) && decide (d.ty ≤ 12) && decide (d.home ≤ 11) &&
  (List.range 6).all (fun j =>
    if j < d.rank then decide (1 ≤ d.ext.getD j 0) && decide (d.tlg.getD j 0 ≤ 21)
    else d.ext.getD j 0 == 0 && d.tlg.getD j 0 == 0) &&
  (List.range 6).all (fun j => if j < d.rank then ((d.ord.take d.rank).filter (· == j)).length == 1 else true) &&
  (d.ord.drop d.rank).all (· == 0) &&
  decide (4096 ≤ d.bytes) && decide (d.bytes ≤ 2 ^ 21) &&
  (if 11 ≤ d.ty then decide (5 ≤ d.tlg.getD (d.dim 0) 0) else true) &&
  (if d.ty = 12 then d.ext.getD (d.dim 0) 0 % 32 == 0 else true) &&
  decide (d.tiles * d.bytes ≤ 2 ^ 48) && decide (d.tiles ≤ 4096 * d.nroot)

/-- The import entry of a tensor of home 10: service and identifier at the peer (20 R483). -/
def State.import? (s : State) (svc tid : Nat) : Option (Nat × Nat) :=
  let r := s.reg (.svcFab svc)
  let e := s.mem.word (fld r 51 16 * 65536 + 8 * tid)
  if bit r 1 && bit e 63 then some (fld e 53 48, fld e 11 0) else none

/-- Some fabric port is enabled: with none, nothing comes from a peer, and what is sent waits (20 R492, 22 R512, R513). -/
def State.portOpen (s : State) : Bool := fld (s.reg .fabPen) 11 0 ≠ 0

/-- The words of a descriptor: of a cached copy, if one is held, else of the descriptor table (10 R254, R256). -/
def State.descWords (s : State) (svc tid : Nat) : List Word :=
  match s.dcache.find (4096 * svc + tid) with
  | some ws => ws
  | none => s.mem.words (fld (s.reg (.svcDtab svc)) 51 12 * 4096 + 64 * tid) 8

/-- The descriptor of a tensor of a service, where it is defined and valid (10 R254, R255, 20 R483). -/
def State.desc? (s : State) (svc tid : Nat) : Option Desc :=
  let r := s.reg (.svcDtab svc)
  if !bit r 0 || decide (4096 ≤ tid) then none
  else
    let ws := s.descWords svc tid
    let d := Desc.ofWords ws
    if !bit (ws.getD 0 0) 63 || !d.valid then none
    else if d.home = 10 && (s.import? svc tid).isNone then none
    else some d

/-! ### The layout unit -/

/-- The swizzle of an offset in a tile (07 R189). -/
def swz (z o : Nat) : Nat :=
  if z = 0 then o else o ^^^ ((o / 2 ^ (8 + z / 4)) % 2 ^ (z % 4 + 1) * 16)

/-- Tile index and element number in the tile, whatever the coordinates (10 R257). -/
def Desc.place (d : Desc) (c : List Nat) : Nat × Nat :=
  (List.range d.rank).reverse.foldl (fun r p =>
    let j := d.dim p
    let t := d.tlg.getD j 0
    let x := c.getD j 0
    (r.1 * d.grid.getD j 1 + x / 2 ^ t, r.2 * 2 ^ t + x % 2 ^ t)) (0, 0)

/-- Tile index and byte offset in the tile of an element (10 R257). -/
def Desc.loc (d : Desc) (c : List Nat) : Nat × Nat :=
  let r := d.place c
  (r.1, r.2 * elemBits d.ty / 8)

/-- Every coordinate lies within its extent, and those at or above the rank are zero (10 R257). -/
def Desc.inside (d : Desc) (c : List Nat) : Bool :=
  (List.range 6).all (fun j => if j < d.rank then decide (c.getD j 0 < d.ext.getD j 0) else c.getD j 0 == 0)

/-- The tile coordinates of a tile index, by dimension (10 R257). -/
def Desc.tileCoords (d : Desc) (idx : Nat) : List Nat :=
  let r := (List.range d.rank).foldl (fun (x : Nat × List (Nat × Nat)) p =>
    let j := d.dim p
    let g := d.grid.getD j 1
    (x.1 / g, (j, x.1 % g) :: x.2)) (idx, [])
  (List.range 6).map (fun j => ((r.2.find? (fun q => q.1 == j)).map (·.2)).getD 0)

/-- A tensor fault value (10 R259). -/
def faultVal (tid reason pos : Nat) : Word := wd (tid % 4096 * 2 ^ 52 + reason * 2 ^ 48 + pos % 2 ^ 48)

/-! ### Tile maps -/

/-- Address of the pair of map entries of a tile, where the root entry is valid (10 R258). -/
def State.mapAddr? (s : State) (d : Desc) (idx : Nat) : Option Nat :=
  let e := s.mem.word (d.root * 4096 + 8 * (idx / 4096))
  if bit e 0 then some (fld e 51 12 * 4096 + 16 * (idx % 4096)) else none

/-- The installed drawer capacity in GiB, at most 32 TiB (00 R2, 22 Table 22.3). -/
def drawerGiB : Nat := min (Config.drawerGib).toNat 32768

/-- A drawer address lies within the installed capacity and an access window (12 R316, 22 R513). Log entry 69, DEDUCED. -/
def drawerOk (pa : Nat) : Bool :=
  let g := pa % 2 ^ 48 / 2 ^ 30
  decide (g < drawerGiB) && (List.range 4).any (fun w =>
    let x := Config.dwWin w
    bit x 63 && decide (fld x 20 0 ≤ g) && decide (g < fld x 41 21))

/-- Residency of a frame word (12 Table 12.1), with the states of a frame outside near memory and the drawer. -/
inductive Resid where
  | resident | arriving | drawer | departing | peer | host
  deriving DecidableEq, Repr

/-- Fields of a frame word (10 R258). -/
def frameBase (w : Word) : Nat := fld w 51 12 * 4096
def frameClass (w : Word) : Nat := fld w 51 48

/-- The state of a frame word; none where it makes its tile unmapped (10 R258, Table 10.2, 12 R298, R316, 20 R482). `hw`
tells that hardware wrote a class-9 word. A near frame lies in the 32 GiB of its die (log entry 83, DEDUCED). -/
def resid? (w : Word) (hw : Bool) : Option Resid :=
  let k := frameClass w
  let m := fld w 61 60
  if !bit w 63 then none
  else if k ≤ 7 then
    (if 2 ^ 35 ≤ frameBase w % 2 ^ 48 then none
     else if m = 0 then some .resident else if m = 1 then some .arriving else none)
  else if k = 8 then
    (if !drawerOk (frameBase w) then none
     else if m = 0 then some .drawer else if m = 2 then some .departing else none)
  else if k = 9 then (if m = 0 && hw then some .peer else none)
  else if k = 10 then (if m = 0 then some .host else none)
  else none

/-- The frame word of a tile in its map. -/
def State.frameWord? (s : State) (d : Desc) (idx : Nat) : Option Word :=
  (s.mapAddr? d idx).map (fun a => s.mem.word a)

/-- The state word of a tile in its map (10 R258). -/
def State.stateWord (s : State) (d : Desc) (idx : Nat) : Word :=
  match s.mapAddr? d idx with
  | some a => s.mem.word (a + 8)
  | none => 0

def State.setStateWord (s : State) (d : Desc) (idx : Nat) (w : Word) : State :=
  match s.mapAddr? d idx with
  | some a => s.wrote (a + 8) 8 (s.mem.putWord (a + 8) w)
  | none => s

def State.setFrameWord (s : State) (d : Desc) (idx : Nat) (w : Word) : State :=
  match s.mapAddr? d idx with
  | some a => s.wrote a 8 (s.mem.putWord a w)
  | none => s

/-! ### Ranges -/

/-- A range's box touches a tile (10 R261). -/
def Range.touches (r : Range) (d : Desc) (idx : Nat) : Bool :=
  let tc := d.tileCoords idx
  (List.range d.rank).all (fun j =>
    let t := d.tlg.getD j 0
    decide (tc.getD j 0 * 2 ^ t < r.hi.getD j 0) && decide (r.lo.getD j 0 < (tc.getD j 0 + 1) * 2 ^ t))

/-- A range covers a tile whole: its box holds every element of the tile within the extents (10 R264). -/
def Range.covers (r : Range) (d : Desc) (idx : Nat) : Bool :=
  let tc := d.tileCoords idx
  (List.range d.rank).all (fun j =>
    let t := d.tlg.getD j 0
    decide (r.lo.getD j 0 ≤ tc.getD j 0 * 2 ^ t) &&
      decide (min ((tc.getD j 0 + 1) * 2 ^ t) (d.ext.getD j 0) ≤ r.hi.getD j 0))

/-- The tiles that a range touches, in ascending order (10 R257, R261). -/
def Range.tiles (r : Range) (d : Desc) : List Nat :=
  (List.range d.rank).reverse.foldl (fun acc p =>
    let j := d.dim p
    let t := d.tlg.getD j 0
    let lo := r.lo.getD j 0 / 2 ^ t
    let n := (r.hi.getD j 0 + 2 ^ t - 1) / 2 ^ t - lo
    acc.flatMap (fun i => (List.range n).map (fun k => i * d.grid.getD j 1 + lo + k))) [0]

/-- What an access does to a tile (10 Table 10.3). -/
inductive Access where
  | load
  | store
  /-- A value-returning atomic. -/
  | atomic
  /-- A reduction that returns nothing, with its operation code of Table 11.3. -/
  | red (op : Nat)
  deriving DecidableEq, Repr

/-- A range's mode admits an access (10 Table 10.3). -/
def Range.admits (r : Range) (a : Access) : Bool :=
  match a with
  | .load => r.mode ≠ 3
  | .store => r.mode = 1 || r.mode = 2
  | .atomic => r.mode = 1 || r.mode = 2
  | .red op => r.mode = 1 || r.mode = 2 || (r.mode = 3 && r.op = op)

/-- The permissions of the descriptor and the frame word admit an access (10 R261). -/
def permits (d : Desc) (fw : Word) : Access → Bool
  | .load => d.pr
  | .store => d.pw && bit fw 62
  | .atomic => d.pr && d.pw && bit fw 62
  | .red _ => d.pw && bit fw 62

/-- The ranges of a task on a tile. -/
def Task.rangesOn (k : Task) (d : Desc) (tid idx : Nat) : List Range :=
  k.ranges.filter (fun r => r.tid == tid && r.touches d idx)

/-- The held translation of a tile (10 R256). -/
def Task.held? (k : Task) (tid idx : Nat) : Option Held := k.held.find? (fun h => h.tid == tid && h.idx == idx)

/-- The frame word of a tile, as hardware uses it: the translation that the lease maker holds while a task or a peer leases the tile, else
that of its map (10 R256). -/
def State.tileWord? (s : State) (svc tid : Nat) (d : Desc) (idx : Nat) : Option Word :=
  match s.tasks.findSome? (fun k => if k.svc = svc then (k.held? tid idx).map (·.frame) else none) with
  | some w => some w
  | none => match s.handles.find? (fun p => p.2.svc == svc && p.2.tid == tid && p.2.idx == idx) with
    | some p => some p.2.frame
    | none => s.frameWord? d idx

/-- The check of R261 for one tile: the reason of its LEASE, if it fails. -/
def Task.leaseFails (k : Task) (d : Desc) (tid idx : Nat) (a : Access) : Option Nat :=
  let rs := k.rangesOn d tid idx
  match k.held? tid idx with
  | none => some 1
  | some h =>
    if rs.isEmpty then some 1
    else if !rs.any (·.admits a) || !permits d h.frame a then some 2
    else if frameClass h.frame = 10 && (a = .atomic || (match a with | .red _ => true | _ => false)) then some 2
    else none

/-- A task is guarded (17 Table 17.1). -/
def Task.guarded (k : Task) : Bool := bit (k.hdr.getD 0 0) 16

/-! ### Code -/

/-- The code tensor of a task: identifier and descriptor. -/
def Task.code (k : Task) : Nat := fld (k.hdr.getD 4 0) 11 0

end Sys2Proof.Machine
end

