-- ==== Sys2Proof/Machine/Order.lean ====
section
/-!
DEFINITION. Ordering: the accesses of a thread that are on their way, and what a release and an acquire wait for (09 R225, R230, R237,
12 R309).
-/

namespace Sys2Proof.Machine

/-- A posted access of the thread that a release at a scope waits for is on its way: a write-through, a reduction, a remote
store; at `.dom` and `.sys` an access to a peer, at `.sys` a store to the host (09 R237, 20 R478, R486). Synchronising ones are waited for
whatever the scope (09 R225). -/
def State.posted (s : State) (th : Thread) (scope : Nat) : Bool :=
  s.storeQ.any (fun r => r.c == th.c && r.t == th.t && (!r.host || r.sync || decide (5 ≤ scope))) ||
    s.homeQ.any (fun r => r.c == th.c && r.t == th.t) || s.mesh.any (fun m => m.c == th.c && m.t == th.t) ||
    s.fab.any (fun f => f.who == .thread th.c th.t && (f.kind == 3 || f.kind == 1 && (f.sync || decide (4 ≤ scope))))

/-- The oldest append of the thread that waits at a full store (12 R309). -/
def State.deferred? (s : State) (th : Thread) : Option Deferred :=
  (s.dies.flatMap (fun p => p.2.defer.filter (fun d => d.c == th.c && d.t == th.t && d.task == th.task))).foldl (fun x d =>
    match x with
    | some y => if d.seq < y.seq then some d else some y
    | none => some d) none

/-- The tensor fault value of reason 7 of a waiting append (10 R259). -/
def State.deferVal (s : State) (d : Deferred) : Word :=
  faultVal d.tid 7 (match s.desc? d.svc d.tid with
    | some x => d.idx * x.bytes
    | none => 0)

/-- A release, FENCE with release, SPAWN, ESYNC or EXIT may complete: no append of the thread waits at a full store, and
its posted accesses have been performed (12 R309, 09 R237). -/
def State.quiet (s : State) (th : Thread) (scope : Nat) : Except Stop Unit :=
  match s.deferred? th with
  | some d => .error (.wait (some (.escrow (s.deferVal d))))
  | none => if s.posted th scope then .error (.wait none) else .ok ()

/-- The thread's synchronising accesses are performed in program order (09 R225): those that it has posted come first. -/
def State.inOrder (s : State) (th : Thread) : Except Stop Unit :=
  if s.posted th 0 || (s.deferred? th).any (·.sync) then .error (.wait none) else .ok ()

end Sys2Proof.Machine
end

