-- ==== Sys2Proof/Machine/Flags.lean ====
section
/-!
DEFINITION. Numbers and flags: the formats of 03 (R62-R71), exact values, rounding with its flags (R67, R75, R77, R79), the
exact functions of R160, conversions (R81, R166) and the block of e2m1 (R69-R73).
-/

namespace Sys2Proof.Machine

/-- Sticky flags: sa [5], nv [4], dz [3], of [2], uf [1], nx [0] (03 R79). -/
abbrev Fl := BitVec 6

def flSa : Fl := 0x20
def flNv : Fl := 0x10
def flDz : Fl := 0x08
def flOf : Fl := 0x04
def flUf : Fl := 0x02
def flNx : Fl := 0x01

/-! ### Exact values -/

/-- A number: NaN, an infinity, or ± m × 2^e, with a signed zero where m is 0. -/
inductive FV where
  | nan
  | inf (neg : Bool)
  | fin (neg : Bool) (m : Nat) (e : Int)
  deriving DecidableEq, Repr

/-- An exact result: a value, `more` for one whose magnitude lies strictly between m and m + 1 units, and the flags raised by the
operation itself. -/
structure Ex where
  v : FV
  more : Bool
  fl : Fl
  deriving DecidableEq, Repr

/-- An exact value without flags. -/
def Ex.of (v : FV) : Ex := { v := v, more := false, fl := 0 }

/-- An invalid operation (03 R79). -/
def Ex.invalid : Ex := { v := .nan, more := false, fl := flNv }

/-- Bits of a natural number. -/
def bitLen (m : Nat) : Nat := if m = 0 then 0 else m.log2 + 1

def FV.isNan : FV → Bool
  | .nan => true
  | _ => false

def FV.isZero : FV → Bool
  | .fin _ m _ => m == 0
  | _ => false

def FV.neg : FV → Bool
  | .nan => false
  | .inf s => s
  | .fin s _ _ => s

/-- The value with another sign. -/
def FV.withSign (s : Bool) : FV → FV
  | .nan => .nan
  | .inf _ => .inf s
  | .fin _ m e => .fin s m e

/-- The value of a number of units of 2^e0, for e0 at most its exponent. -/
def FV.units (e0 : Int) : FV → Int
  | .fin s m e => let x : Int := (m * 2 ^ (e - e0).toNat : Nat); if s then -x else x
  | _ => 0

def FV.exp : FV → Int
  | .fin _ m e => if m = 0 then 0 else e
  | _ => 0

/-- Compares two numbers that are not NaN: the sign of x − y, zeros equal. -/
def FV.cmp (x y : FV) : Int :=
  match x, y with
  | .inf a, .inf b => if a = b then 0 else if a then -1 else 1
  | .inf a, _ => if a then -1 else 1
  | _, .inf b => if b then 1 else -1
  | _, _ =>
    let e0 := min x.exp y.exp
    let d := x.units e0 - y.units e0
    if d < 0 then -1 else if d = 0 then 0 else 1

/-! ### Formats -/

/-- A floating-point format (03 Table 3.1): exponent and fraction bits, bias, whether it has infinities. -/
structure Fmt where
  ebits : Nat
  mbits : Nat
  bias : Nat
  hasInf : Bool
  deriving DecidableEq, Repr

def Fmt.f32 : Fmt := { ebits := 8, mbits := 23, bias := 127, hasInf := true }
def Fmt.f16 : Fmt := { ebits := 5, mbits := 10, bias := 15, hasInf := true }
def Fmt.bf16 : Fmt := { ebits := 8, mbits := 7, bias := 127, hasInf := true }
def Fmt.e4m3 : Fmt := { ebits := 4, mbits := 3, bias := 7, hasInf := false }
def Fmt.e5m2 : Fmt := { ebits := 5, mbits := 2, bias := 15, hasInf := true }

/-- The format of a type code of 02 Table 2.5 between 6 and 10. -/
def Fmt.ofTy (t : Nat) : Fmt :=
  if t = 6 then .f32 else if t = 7 then .f16 else if t = 8 then .bf16 else if t = 9 then .e4m3 else .e5m2

/-- The exponent of the last place of subnormals. -/
def Fmt.qmin (f : Fmt) : Int := 1 - (f.bias : Int) - (f.mbits : Int)

/-- The bits of a sign, biased exponent and fraction. -/
def Fmt.pack (f : Fmt) (s : Bool) (e m : Nat) : Nat :=
  (if s then 2 ^ (f.ebits + f.mbits) else 0) + e * 2 ^ f.mbits + m

/-- The canonical NaN (03 Table 3.1). -/
def Fmt.nanBits (f : Fmt) : Nat :=
  if f.hasInf then f.pack false (2 ^ f.ebits - 1) (2 ^ (f.mbits - 1)) else f.pack false (2 ^ f.ebits - 1) (2 ^ f.mbits - 1)

/-- Infinity of a sign, in a format that has one. -/
def Fmt.infBits (f : Fmt) (s : Bool) : Nat := f.pack s (2 ^ f.ebits - 1) 0

/-- The largest finite magnitude: its bits, and its significand and exponent (03 Table 3.1). -/
def Fmt.maxBits (f : Fmt) (s : Bool) : Nat :=
  if f.hasInf then f.pack s (2 ^ f.ebits - 2) (2 ^ f.mbits - 1) else f.pack s (2 ^ f.ebits - 1) (2 ^ f.mbits - 2)
def Fmt.maxSig (f : Fmt) : Nat := if f.hasInf then 2 ^ (f.mbits + 1) - 1 else 2 ^ (f.mbits + 1) - 2
def Fmt.maxExp (f : Fmt) : Int :=
  (if f.hasInf then (2 ^ f.ebits - 2 : Int) else (2 ^ f.ebits - 1 : Int)) - f.bias - f.mbits

/-- Reads a pattern (03 R64). -/
def Fmt.decode (f : Fmt) (b : Nat) : FV :=
  let m := b % 2 ^ f.mbits
  let e := b / 2 ^ f.mbits % 2 ^ f.ebits
  let s := b / 2 ^ (f.mbits + f.ebits) % 2 == 1
  if e = 2 ^ f.ebits - 1 && f.hasInf then (if m = 0 then .inf s else .nan)
  else if e = 2 ^ f.ebits - 1 && m = 2 ^ f.mbits - 1 then .nan
  else if e = 0 then .fin s m f.qmin
  else .fin s (m + 2 ^ f.mbits) (f.qmin + e - 1)

/-- Reads an e2m1 code with scale 2^0 (03 R68). -/
def decodeE2m1 (b : Nat) : FV :=
  let s := b / 8 % 2 == 1
  let e := b / 2 % 4
  let m := b % 2
  if e = 0 then .fin s m (-1) else .fin s (m + 2) ((e : Int) - 2)

/-! ### Rounding -/

/-- The mode rounds a value of sign `s` away from zero, for a remainder compared with half a place (−1, 0, 1), when it is not exact
(03 R75). Modes: 0 RNE, 1 RTZ, 2 RDN, 3 RUP. -/
def roundsUp (mode : BitVec 2) (s : Bool) (odd : Bool) (half : Int) : Bool :=
  if mode = 0 then half > 0 || (half = 0 && odd)
  else if mode = 1 then false
  else if mode = 2 then s
  else !s

/-- Rounds m × 2^e (and more) to a multiple of 2^q: the multiple, and whether it is exact. -/
def roundAt (mode : BitVec 2) (s : Bool) (m : Nat) (e q : Int) (more : Bool) : Nat × Bool :=
  if q ≤ e then
    let n := m * 2 ^ (e - q).toNat
    (if more && roundsUp mode s false (-1) then n + 1 else n, !more)
  else
    let k := (q - e).toNat
    let n := m / 2 ^ k
    let r := m % 2 ^ k
    let half : Int := if 2 * r < 2 ^ k then -1 else if 2 * r = 2 ^ k && !more then 0 else 1
    if r = 0 && !more then (n, true) else (if roundsUp mode s (n % 2 == 1) half then n + 1 else n, false)

/-- n × 2^q lies beyond the largest finite magnitude. -/
def Fmt.beyond (f : Fmt) (n : Nat) (q : Int) : Bool :=
  let e0 := min q f.maxExp
  decide (f.maxSig * 2 ^ (f.maxExp - e0).toNat < n * 2 ^ (q - e0).toNat)

/-- The result of an overflow (03 R67). -/
def Fmt.overflow (f : Fmt) (mode : BitVec 2) (sat s : Bool) : Nat :=
  if sat then f.maxBits s
  else if mode = 1 || (mode = 2 && !s) || (mode = 3 && s) then f.maxBits s
  else if f.hasInf then f.infBits s else f.nanBits

/-- The pattern of n × 2^q, which the format holds exactly. -/
def Fmt.encode (f : Fmt) (s : Bool) (n : Nat) (q : Int) : Nat :=
  if n = 0 then f.pack s 0 0
  else
    let k := bitLen n
    if k ≤ f.mbits + 1 then
      (if (f.qmin : Int) < q then
        let sh := min (f.mbits + 1 - k) (q - f.qmin).toNat
        let n' := n * 2 ^ sh
        let q' := q - sh
        if n' < 2 ^ f.mbits then f.pack s 0 n' else f.pack s (q' - f.qmin + 1).toNat (n' - 2 ^ f.mbits)
      else if n < 2 ^ f.mbits then f.pack s 0 n else f.pack s 1 (n - 2 ^ f.mbits))
    else
      -- a carry out of the significand: the low bit is zero
      f.pack s (q + 1 - f.qmin + 1).toNat (n / 2 - 2 ^ f.mbits)

/-- The exponent of the last place to which m × 2^e is rounded. -/
def Fmt.place (f : Fmt) (m : Nat) (e : Int) : Int := max (e + bitLen m - (f.mbits + 1)) f.qmin

/-- A magnitude is tiny after rounding to the format's precision (03 R79). -/
def Fmt.tiny (f : Fmt) (mode : BitVec 2) (s : Bool) (m : Nat) (e : Int) (more : Bool) : Bool :=
  let q := e + bitLen m - (f.mbits + 1)
  let n := (roundAt mode s m e q more).1
  let lim : Int := 1 - f.bias
  decide (q + bitLen n - 1 < lim)

/-- Rounds an exact result to a format: the pattern and the flags (03 R64-R67, R75, R79). -/
def Fmt.round (f : Fmt) (mode : BitVec 2) (sat : Bool) (x : Ex) : Nat × Fl :=
  match x.v with
  | .nan => (f.nanBits, x.fl)
  | .inf s =>
    if sat then (f.maxBits s, x.fl ||| flNx)
    else if f.hasInf then (f.infBits s, x.fl) else (f.nanBits, x.fl ||| flNx)
  | .fin s m e =>
    if m = 0 && !x.more then (f.pack s 0 0, x.fl)
    else
      let q := f.place m e
      let r := roundAt mode s m e q x.more
      if f.beyond r.1 q then (f.overflow mode sat s, x.fl ||| flOf ||| flNx)
      else (f.encode s r.1 q,
        x.fl ||| (if r.2 then 0 else flNx) ||| (if !r.2 && f.tiny mode s m e x.more then flUf else 0))

/-- Rounds to e2m1 (06 Table 6.5); an infinity overflows as a magnitude above 6 does (log entry 78, DESIGN CHOICE). -/
def roundE2m1 (mode : BitVec 2) (x : Ex) : Nat × Fl :=
  let sg (s : Bool) : Nat := if s then 8 else 0
  match x.v with
  | .nan => (0, flNv)
  | .inf s => (sg s + 7, flOf ||| flNx)
  | .fin s m e =>
    if m = 0 && !x.more then (sg s, 0)
    else
      let c := FV.cmp (.fin false m e) (.fin false 6 0)
      if 0 < c || (c = 0 && x.more) then (sg s + 7, flOf ||| flNx)
      else
        let q : Int := max (e + bitLen m - 2) (-1)
        let r := roundAt mode s m e q x.more
        let tiny := decide ((e + bitLen m - 2) + bitLen (roundAt mode s m e (e + bitLen m - 2) x.more).1 - 1 < 0)
        -- magnitudes in halves: 1 2 3 4 6 8 12
        let h := r.1 * 2 ^ (q + 1).toNat
        let code := if h = 0 then 0 else if h = 1 then 1 else if h = 2 then 2 else if h = 3 then 3 else if h = 4 then 4
          else if h = 6 then 5 else if h = 8 then 6 else 7
        (sg s + code, (if r.2 then 0 else flNx) ||| (if !r.2 && tiny then flUf else 0))

/-! ### Exact arithmetic -/

/-- An exact sum (03 R75): a zero sum has the sign of its terms where they agree, else + but under RDN. ∞ − ∞ is invalid. -/
def exSum (mode : BitVec 2) (l : List FV) : Ex :=
  if l.any FV.isNan then Ex.of .nan
  else
    let pinf := l.any (fun x => x == .inf false)
    let ninf := l.any (fun x => x == .inf true)
    if pinf && ninf then Ex.invalid
    else if pinf then Ex.of (.inf false)
    else if ninf then Ex.of (.inf true)
    else
      let e0 : Int := l.foldl (fun e x => min e x.exp) 0
      let t : Int := l.foldl (fun n x => n + x.units e0) 0
      if t = 0 then
        let s := if l.all (fun x => x.isZero && x.neg) then true
          else if l.all (fun x => x.isZero && !x.neg) then false
          else mode = 2
        Ex.of (.fin s 0 0)
      else Ex.of (.fin (decide (t < 0)) t.natAbs e0)

/-- An exact product; 0 × ∞ is invalid. -/
def exMul (x y : FV) : Ex :=
  match x, y with
  | .nan, _ => Ex.of .nan
  | _, .nan => Ex.of .nan
  | .inf a, .inf b => Ex.of (.inf (a != b))
  | .inf a, .fin b m _ => if m = 0 then Ex.invalid else Ex.of (.inf (a != b))
  | .fin a m _, .inf b => if m = 0 then Ex.invalid else Ex.of (.inf (a != b))
  | .fin a m e, .fin b n k => Ex.of (.fin (a != b) (m * n) (e + k))

/-- A number with the other sign. -/
def FV.flip : FV → FV
  | .nan => .nan
  | .inf s => .inf !s
  | .fin s m e => .fin (!s) m e

/-- x × y + c, with the NaN and the invalid cases of 06 R159. -/
def exFma (mode : BitVec 2) (x y c : FV) : Ex :=
  let p := exMul x y
  let r := exSum mode [p.v, c]
  if p.fl = flNv then Ex.invalid else r

/-- VMIN and VMAX of floats: −0 is less than +0; NaN if either is (06 Table 6.4). -/
def fvMin (x y : FV) : FV :=
  if x.isNan || y.isNan then .nan
  else if x.isZero && y.isZero then (if x.neg then x else y)
  else if x.cmp y ≤ 0 then x else y
def fvMax (x y : FV) : FV :=
  if x.isNan || y.isNan then .nan
  else if x.isZero && y.isZero then (if x.neg then y else x)
  else if x.cmp y ≥ 0 then x else y

/-- Bits to which quotients and roots are computed before rounding. -/
def guardBits : Nat := 96

/-- x / y (06 R160). -/
def exDiv (x y : FV) : Ex :=
  match x, y with
  | .nan, _ => Ex.of .nan
  | _, .nan => Ex.of .nan
  | .inf _, .inf _ => Ex.invalid
  | .inf a, .fin b _ _ => Ex.of (.inf (a != b))
  | .fin a _ _, .inf b => Ex.of (.fin (a != b) 0 0)
  | .fin a m e, .fin b n k =>
    if n = 0 then (if m = 0 then Ex.invalid else { v := .inf (a != b), more := false, fl := flDz })
    else if m = 0 then Ex.of (.fin (a != b) 0 0)
    else
      let s := guardBits + bitLen n
      let t := m * 2 ^ s
      { v := .fin (a != b) (t / n) (e - k - s), more := t % n != 0, fl := 0 }

/-- Integer square root, from above: `b` bounds the number of base-4 digits. -/
def isqrt : Nat → Nat → Nat
  | 0, _ => 0
  | b + 1, n =>
    let r := 2 * isqrt b (n / 4)
    if (r + 1) * (r + 1) ≤ n then r + 1 else r

/-- √x (06 R160). -/
def exSqrt (x : FV) : Ex :=
  match x with
  | .nan => Ex.of .nan
  | .inf s => if s then Ex.invalid else Ex.of (.inf false)
  | .fin s m e =>
    if m = 0 then Ex.of x
    else if s then Ex.invalid
    else
      -- an even exponent, and at least guardBits bits of root
      let k := 2 * guardBits + (if e % 2 = 0 then 0 else 1)
      let t := m * 2 ^ k
      let r := isqrt (bitLen t) t
      { v := .fin false r ((e - k) / 2), more := r * r != t, fl := 0 }

/-- 1 / √x (06 R160). -/
def exRsq (x : FV) : Ex :=
  match x with
  | .nan => Ex.of .nan
  | .inf s => if s then Ex.invalid else Ex.of (.fin false 0 0)
  | .fin s m e =>
    if m = 0 then { v := .inf s, more := false, fl := flDz }
    else if s then Ex.invalid
    else
      -- 1/√(m 2^e) = √(2^k / m) 2^(−(e + k)/2) for e + k even
      let k0 := 2 * guardBits + bitLen m
      let k := if (e + k0) % 2 = 0 then k0 else k0 + 1
      let t := 2 ^ k / m
      let r := isqrt (bitLen t) t
      { v := .fin false r (-((e + k) / 2)), more := r * r * m != 2 ^ k, fl := 0 }

/-- Bits of the fixed-point computation of 2^x and log2 x (log entry 23, UNVERIFIED). -/
def fixBits : Nat := 320

/-- ⌊ln 2 × 2^320⌋. -/
def ln2Fix : Nat := 0xb17217f7d1cf79abc9e3b39803f2f6af40f343267298b62d8a0d175b8baafa2be7b876206debac98

/-- Σ y^k / k! from term k with value `t`, in units of 2^−320. -/
def expSeries (y : Nat) : Nat → Nat → Nat → Nat
  | 0, _, _ => 0
  | n + 1, k, t => t + expSeries y n (k + 1) (t * y / 2 ^ fixBits / (k + 1))

/-- Σ z^(2k+1) / (2k+1) from odd number `k` with power `t`, in units of 2^−320. -/
def atanhSeries (z2 : Nat) : Nat → Nat → Nat → Nat
  | 0, _, _ => 0
  | n + 1, k, t => t / k + atanhSeries z2 n (k + 2) (t * z2 / 2 ^ fixBits)

/-- 2^x (06 R160), rounded down to 320 bits after the point; an integer power is exact. -/
def exExp2 (x : FV) : Ex :=
  match x with
  | .nan => Ex.of .nan
  | .inf s => if s then Ex.of (.fin false 0 0) else Ex.of (.inf false)
  | .fin s m e =>
    if m = 0 then Ex.of (.fin false 1 0)
    else if 12 < e + bitLen m then { v := .fin false 1 (if s then -5000 else 5000), more := true, fl := 0 }
    else
      -- x × 2^320 as an integer; every finite pattern has e ≥ −149
      let u : Int := (FV.fin s m e).units (-(fixBits : Int))
      let n : Int := u / 2 ^ fixBits
      let f : Nat := (u % 2 ^ fixBits).toNat
      if f = 0 then Ex.of (.fin false 1 n)
      else
        let y := f * ln2Fix / 2 ^ fixBits
        { v := .fin false (expSeries y 80 0 (2 ^ fixBits)) (n - fixBits), more := true, fl := 0 }

/-- log2 x (06 R160), computed to 320 bits; the logarithm of a power of two is exact. -/
def exLog2 (x : FV) : Ex :=
  match x with
  | .nan => Ex.of .nan
  | .inf s => if s then Ex.invalid else Ex.of (.inf false)
  | .fin s m e =>
    if m = 0 then { v := .inf true, more := false, fl := flDz }
    else if s then Ex.invalid
    else
      let k := bitLen m
      let p := 2 ^ (k - 1)
      let n : Int := e + k - 1
      if m = p then Ex.of (.fin (decide (n < 0)) n.natAbs 0)
      else
        let z := (m - p) * 2 ^ fixBits / (m + p)
        let a := 2 * atanhSeries (z * z / 2 ^ fixBits) 110 1 z
        let l := a * 2 ^ fixBits / ln2Fix
        if 0 ≤ n then { v := .fin false (n.toNat * 2 ^ fixBits + l) (-(fixBits : Int)), more := true, fl := 0 }
        else { v := .fin true (n.natAbs * 2 ^ fixBits - l - 1024) (-(fixBits : Int)), more := true, fl := 0 }

/-- The significand truncated to its 12 most significant bits (06 R161). -/
def trunc12 (m : Nat) (e : Int) : Nat × Int :=
  let k := bitLen m
  if k ≤ 12 then (m, e) else (m / 2 ^ (k - 12), e + (k - 12 : Nat))

/-- An approximate function (06 R161): the pattern and flags. A special operand gives the result of the exact form.
Log entry 24, DEDUCED. -/
def Fmt.apx (f : Fmt) (g : FV → Ex) (x : FV) : Nat × Fl :=
  match x with
  | .fin s m e =>
    let x' := trunc12 m e
    let q := g (.fin s x'.1 x'.2)
    match q.v with
    | .fin s' m' e' =>
      let t := trunc12 m' e'
      let r := f.round 0 false (Ex.of (.fin s' t.1 t.2))
      let exact := g x
      let differs := exact.more || !(match exact.v with
        | .fin a b c => decide (FV.cmp (.fin a b c) (f.decode r.1) = 0)
        | _ => false)
      let tiny := t.1 = 0 || f.tiny 0 s' t.1 t.2 false
      (r.1, (r.2 &&& (flOf ||| flNx)) ||| (if differs then flNx else 0) ||| (if differs && tiny then flUf else 0))
    | _ => f.round 0 false (g x)
  | _ => f.round 0 false (g x)

/-! ### Conversions -/

/-- Lane width of a type code (06 Table 6.1). -/
def laneW (t : Nat) : Nat :=
  if t = 0 || t = 3 || t = 9 || t = 10 then 8 else if t = 1 || t = 4 || t = 7 || t = 8 then 16
  else if t = 2 || t = 5 || t = 6 then 32 else 4

def isInt (t : Nat) : Bool := decide (t ≤ 5)
def isSigned (t : Nat) : Bool := decide (t ≤ 2)

/-- The value of a lane of an integer type (03 R62). -/
def laneInt (t b : Nat) : Int :=
  let w := laneW t
  if isSigned t && decide (2 ^ (w - 1) ≤ b) then (b : Int) - 2 ^ w else b

/-- Least and greatest values of an integer type. -/
def intLo (t : Nat) : Int := if isSigned t then -(2 ^ (laneW t - 1) : Int) else 0
def intHi (t : Nat) : Int := if isSigned t then 2 ^ (laneW t - 1) - 1 else 2 ^ laneW t - 1

/-- An integer read back in w bits. -/
def wrapN (w : Nat) (x : Int) : Nat := (x % 2 ^ w).toNat

/-- The lane of an integer result: wrapped, or clamped with its flag (03 R63). -/
def intLane (t : Nat) (sat : Bool) (x : Int) : Nat × Fl :=
  if sat then
    let y := max (intLo t) (min (intHi t) x)
    (wrapN (laneW t) y, if y = x then 0 else flSa)
  else (wrapN (laneW t) x, 0)

/-- The number in a lane. -/
def laneFV (t b : Nat) : FV :=
  if isInt t then let x := laneInt t b; .fin (decide (x < 0)) x.natAbs 0
  else if t = 11 then decodeE2m1 b else (Fmt.ofTy t).decode b

/-- Rounds to a float type. -/
def roundTy (t : Nat) (mode : BitVec 2) (sat : Bool) (x : Ex) : Nat × Fl :=
  if t = 11 then roundE2m1 mode x else (Fmt.ofTy t).round mode sat x

/-- Float to integer (03 R81). -/
def fvToInt (t : Nat) (mode : BitVec 2) (x : FV) : Nat × Fl :=
  match x with
  | .nan => (0, flNv)
  | .inf s => (wrapN (laneW t) (if s then intLo t else intHi t), flNv)
  | .fin s m e =>
    if 64 < e + bitLen m then (wrapN (laneW t) (if s then intLo t else intHi t), flNv)
    else
      let r := roundAt mode s m e 0 false
      let v : Int := if s then -(r.1 : Int) else r.1
      if v < intLo t then (wrapN (laneW t) (intLo t), flNv)
      else if intHi t < v then (wrapN (laneW t) (intHi t), flNv)
      else (wrapN (laneW t) v, if r.2 then 0 else flNx)

/-- The generator's step (03 R78). -/
def xorshift (x : Word) : Word :=
  let a := x ^^^ (x <<< 13)
  let b := a ^^^ (a >>> 7)
  b ^^^ (b <<< 17)

/-- Stochastic rounding of a finite non-zero value that the format does not hold (03 R77), with the random bits `r`: lo is the
magnitude truncated, t the 16 bits below its last place. It is tiny when the delivered magnitude is. Log entry 78, DESIGN CHOICE. -/
def roundSr (t : Nat) (sat : Bool) (s : Bool) (m : Nat) (e : Int) (r : Nat) : Nat × Fl :=
  let f : Fmt := if t = 11 then { ebits := 2, mbits := 1, bias := 1, hasInf := false } else Fmt.ofTy t
  let q := f.place m e
  let lo := (roundAt 1 false m e q false).1
  -- 16 bits below the last place
  let d := (roundAt 1 false m e (q - 16) false).1 - lo * 2 ^ 16
  let n := if 2 ^ 16 ≤ d + r then lo + 1 else lo
  let beyond := if t = 11 then decide (0 < FV.cmp (.fin false m e) (.fin false 6 0)) else f.beyond n q
  if beyond then
    (if t = 11 then (if s then 15 else 7) else f.overflow 0 sat s, flOf ||| flNx)
  else
    let tiny := decide (q + bitLen n - 1 < 1 - (f.bias : Int))
    let p := if t = 11 then (roundE2m1 1 (Ex.of (.fin s n q))).1 else f.encode s n q
    (p, flNx ||| (if tiny then flUf else 0))

/-- The float type holds the number exactly. -/
def holds (t : Nat) (x : FV) : Bool := (roundTy t 1 false (Ex.of x)).2 &&& flNx = 0

/-- conv of one lane (06 R166, Table 6.5) with a generator's state: the pattern, the flags and the state after it. `sr` selects
stochastic rounding, for which an infinity whose result is not exact steps the generator as every such result does (03 R77); a NaN
leaves it. Log entry 78, DESIGN CHOICE. -/
def convLane (src dst : Nat) (mode : BitVec 2) (sat sr : Bool) (b : Nat) (g : Word) : Nat × Fl × Word :=
  if src = dst then
    (if !isInt src && src != 11 && (laneFV src b).isNan then ((Fmt.ofTy src).nanBits, 0, g) else (b, 0, g))
  else if isInt dst then
    let r := if isInt src then intLane dst sat (laneInt src b) else fvToInt dst mode (laneFV src b)
    (r.1, r.2, g)
  else
    let x := laneFV src b
    let plain := let r := roundTy dst mode sat (Ex.of x); (r.1, r.2, g)
    match x with
    | .fin s m e =>
      if sr && m != 0 && !holds dst x then
        let g1 := xorshift g
        let r := roundSr dst sat s m e (g1 >>> 48).toNat
        (r.1, r.2, g1)
      else plain
    | .inf _ => if sr && plain.2.1 &&& flNx != 0 then (plain.1, plain.2.1, xorshift g) else plain
    | .nan => plain

/-! ### Blocks -/

/-- The decoded element of a block (03 R70, R71). -/
def blockElem (code scale special : Nat) : FV :=
  if scale = 0xFF then .nan
  else
    let k : Int := (scale : Int) - 127
    match (if code = 8 then Fmt.e4m3.decode special else decodeE2m1 code) with
    | .fin s m e => .fin s m (e + k)
    | y => y

/-- |x − y| as a number of units. -/
def fvDist (x y : FV) (e0 : Int) : Nat := (x.units e0 - y.units e0).natAbs

/-- The code of the candidate nearest to an input, by the ties of 03 R73; `sp` is the special's value. -/
def blockCode (k : Int) (sp x : FV) : Nat :=
  if x.isZero then 0
  else
    let scaled (c : Nat) : FV := match decodeE2m1 c with
      | .fin s m e => .fin s m (e + k)
      | y => y
    let e0 := min (min x.exp sp.exp) (k - 1)
    let cs := [0, 1, 2, 3, 4, 5, 6, 7, 9, 10, 11, 12, 13, 14, 15]
    let best := cs.foldl (fun n c => min n (fvDist (scaled c) x e0)) (fvDist sp x e0)
    let near := cs.filter (fun c => fvDist (scaled c) x e0 == best)
    let spTies := fvDist sp x e0 == best && !near.any (fun c => FV.cmp (scaled c) sp == 0)
    match near.find? (fun c => c % 2 == 0) with
    | some c => c
    | none => if spTies then 8 else near.headD 8

/-- Quantises 32 numbers into a block (03 R72): codes, scale, special, and whether some input is not decoded exactly (R73). The special
of a block of zeros has the sign of its first element. Log entry 79, DESIGN CHOICE. -/
def quantBlock (xs : List FV) : List Nat × Nat × Nat × Bool :=
  if xs.any (fun x => match x with
    | .fin _ _ _ => false
    | _ => true) then
    (xs.map (fun _ => 0), 0xFF, 0, !xs.all FV.isNan)
  else
    let abs (x : FV) : FV := x.withSign false
    let star := xs.foldl (fun b x => if 0 < FV.cmp (abs x) (abs b) then x else b) (xs.headD (.fin false 0 0))
    let k : Int := match star with
      | .fin _ m e => if m = 0 then -127 else min (max (e + bitLen m - 1 - 2) (-127)) 127
      | _ => -127
    let sp := match star with
      | .fin s m e => (Fmt.e4m3.round 0 true (Ex.of (.fin s m (e - k)))).1
      | _ => 0
    let spv := match Fmt.e4m3.decode sp with
      | .fin s m e => FV.fin s m (e + k)
      | y => y
    let codes := xs.map (blockCode k spv)
    let sc := (k + 127).toNat
    (codes, sc, sp, (xs.zip codes).any (fun p => FV.cmp (blockElem p.2 sc sp) p.1 != 0))

end Sys2Proof.Machine
end

