-- ==== Sys2Proof/Machine/Vector.lean ====
section
/-!
DEFINITION. The execute engine: how a V word issues, pops, pushes and lands (04 R102-R105, R111-R114, 06 R151-R156), and the
meaning of every V word (06 R157-R177).
-/

namespace Sys2Proof.Machine

/-! ### Lanes -/

/-- Lane `i` of width `w` (06 R150). -/
def laneOf (w : Nat) (x : Vec) (i : Nat) : Nat := x.toNat / 2 ^ (w * i) % 2 ^ w

/-- Packs lanes of width `w`, lane 0 first. -/
def packLanes (w : Nat) (l : List Nat) : Vec := BitVec.ofNat 2048 (l.foldr (fun x a => x + 2 ^ w * a) 0)

/-- Lanes of a width. -/
def lanes (w : Nat) : Nat := 2048 / w

/-- Lane `i` of width `w` is active under a mask (06 R151). -/
def laneActive (w : Nat) (m : Word) (i : Nat) : Bool := m.getLsbD (i * w / 32)

/-- The bits of a register that a mask governs (06 R151). -/
def wideMask (m : Word) : Vec :=
  packLanes 32 ((List.range 64).map (fun g => if m.getLsbD g then 2 ^ 32 - 1 else 0))

/-- Every bit of a register. -/
def allBits : Vec := BitVec.allOnes 2048

/-- A function of the lane number on every active lane: the packed results, inactive lanes zero, and the union of the active lanes'
flags (06 R151, R155). -/
def eachLane (w : Nat) (m : Word) (f : Nat → Nat × Fl) : Vec × Fl :=
  let r := (List.range (lanes w)).map (fun i => if laneActive w m i then f i else (0, 0))
  (packLanes w (r.map Prod.fst), r.foldl (fun a p => a ||| p.2) 0)

/-! ### Operands -/

/-- The broadcast of the low `w` bits of an `svq` entry (04 R104). -/
def broadcast (w : Nat) (x : Word) : Vec := packLanes w ((List.range (lanes w)).map (fun _ => x.toNat % 2 ^ w))

/-- A source operand, read at a lane width (06 R154, 04 R104). -/
def Thread.vVal (th : Thread) (r : BitVec 5) (w : Nat) : Vec :=
  if r = 28 then headVal 0 th.q.lq0
  else if r = 29 then headVal 0 th.q.lq1
  else if r = 31 then broadcast w (headVal 0 th.q.svq)
  else th.f.v.get 0 r.toNat

/-- A mask register: m0 reads all ones (06 R149). -/
def Thread.mVal (th : Thread) (m : BitVec 3) : Word := if m = 0 then BitVec.allOnes 64 else th.f.m.get 0 m.toNat

/-- Pops each pop port that a V word names, once (04 R103). -/
def Thread.vPop (th : Thread) (i : Instr) : Thread :=
  let rs := vSrcs i
  let q := th.q
  { th with q := { q with
      lq0 := if rs.contains 28 then q.lq0.tail else q.lq0
      lq1 := if rs.contains 29 then q.lq1.tail else q.lq1
      svq := if rs.contains 31 then q.svq.tail else q.svq } }

/-! ### Issue -/

/-- What a V word produces: results with the bits they write, flags, the pushed value and the generator's state. -/
structure VOut where
  res : List (LandDst × Vec × Vec)
  fl : Fl
  push : Vec
  srnd : Word
  deriving DecidableEq, Repr

/-- Results to `v` register `d` under a mask of bits; or, for d = 30, a push with the other bits zero (06 R151). -/
def VOut.toV (th : Thread) (d : BitVec 5) (val mask : Vec) (fl : Fl) : VOut :=
  if d = 30 then { res := [], fl := fl, push := val &&& mask, srnd := th.csr.srnd }
  else { res := [(.v d.toNat, val, mask)], fl := fl, push := 0, srnd := th.csr.srnd }

/-- Results to `m` register `d` under a mask of bits. -/
def VOut.toM (th : Thread) (d : BitVec 3) (val mask : Word) : VOut :=
  { res := [(.m d.toNat, val.setWidth 2048, mask.setWidth 2048)], fl := 0, push := 0, srnd := th.csr.srnd }

/-- Why the V word of an entry cannot issue now (04 R102, R103, R105; 16 R405). -/
def Thread.vBlocked (th : Thread) (now : Nat) (e : QEntry) : Option (Option WaitWhy) :=
  if !th.atHorizon e.seq || decide (now + 1 < th.issue.paced.1 + th.csr.paceV.toNat) then some none
  else match th.vReady now e with
    | some p => some (some (.vstall (wd p)))
    | none =>
      match th.vRoom e.ins with
      | some p => some (some (.vstall (wd p)))
      | none => none

/-- Pushes what a V word pushes: the entry is reserved now and fills after the latency (04 R101, R111). -/
def Thread.vPushed (th : Thread) (e : QEntry) (lat now : Nat) (x : Vec) : Thread :=
  let put : QE Vec := { val := x, full := true, fillAt := now + lat, seq := e.seq, addr := e.addr, corr := e.corr }
  match vPush e.ins with
  | some .sq => { th with q := { th.q with sq := th.q.sq ++ [put] } }
  | some .vaq => { th with q := { th.q with vaq := th.q.vaq ++ [put] } }
  | some .vsq => { th with q := { th.q with vsq := th.q.vsq ++ [{ put with val := x.setWidth 64 }] } }
  | _ => th

/-- One tick passes (04 R112). -/
def Thread.oneTick (th : Thread) : Thread := { th with tick := th.tick + 1 }

/-- Some result is to land at the thread's tick. -/
def Thread.landsNow (th : Thread) : Bool := th.land.any (fun l => decide (l.due ≤ th.tick))

/-- The V word of an entry issues (04 R111, R112; 06 R155): it reads, pops and pushes now, its results land L ticks later. -/
def Thread.vIssue (th : Thread) (e : QEntry) (lat now : Nat) (o : VOut) : Thread :=
  let land (d : LandDst) (v m : Vec) : Landing :=
    { dst := d, val := v, mask := m, due := th.tick + lat, seq := e.seq, addr := e.addr, corr := e.corr }
  let lands := o.res.map (fun r => land r.1 r.2.1 r.2.2)
  let fl : List Landing := if o.fl = 0 then [] else [land .flags (o.fl.setWidth 2048) 0x3F]
  let th1 := ((th.vPop e.ins).vPushed e lat now o.push).oneTick
  { th1 with
    land := th1.land ++ lands ++ fl, csr := { th1.csr with srnd := o.srnd },
    issue := { th1.issue with lastV := now + 1, paced := (now + 1, th1.issue.paced.2), waitV := none } }

/-- Results that have come due land as the next work of the execute engine. -/
def State.landDue (s : State) (c t : Nat) : State :=
  match s.thread? c t with
  | some th => if th.landsNow then s.later [.vResultLand c t] else s
  | none => s

/-- The V word enters the thread's execute queue and the front moves past it (02 R37); a full queue holds the front. -/
def State.steerV (s : State) (th : Thread) : State :=
  if 32 ≤ th.xq.length then s.noteWait .front th none
  else
    let th1 := { th with xq := th.xq ++ [s.cur.e] }
    s.moved th ((s.setThread th1).frontDone th1 s.cur.e none)

/-- Runs a V word: the front steers it, and it issues from the head of the execute queue (02 R36, R38; 06 R156). -/
def vWord (s : State) (lat : Nat) (body : Thread → VOut) : Out :=
  match s.thread? s.cur.c s.cur.t with
  | none => .fault .noThread
  | some th =>
    if s.cur.front then .next (s.steerV th)
    else match th.vBlocked s.now s.cur.e with
      | some why => .next (s.noteWait .v th why)
      | none =>
        let th1 := { th with xq := th.xq.tail }
        .next ((s.setThread (th1.vIssue s.cur.e lat s.now (body th))).landDue th.c th.t)

/-! ### Landing -/

/-- Lands one result (04 R111, R114): the bits of its mask; flags are united (06 R155). -/
def Thread.land1 (th : Thread) (l : Landing) : Thread :=
  match l.dst with
  | .v n => { th with f := { th.f with v := th.f.v.set n (((th.f.v.get 0 n) &&& ~~~l.mask) ||| (l.val &&& l.mask)) } }
  | .m n =>
    let k : Word := l.mask.setWidth 64
    { th with f := { th.f with m := th.f.m.set n (((th.f.m.get 0 n) &&& ~~~k) ||| (l.val.setWidth 64 &&& k)) } }
  | .flags => { th with csr := { th.csr with fflags := th.csr.fflags ||| l.val.setWidth 6 } }

/-- Puts a result in place `n` among those landing with it. -/
def insertAt (n : Nat) (x : Landing) (l : List Landing) : List Landing := l.take n ++ x :: l.drop n

/-- The order in which results that come due together land, and how many free choices it took: two aimed at one register land in
an order that is free (04 R114, log entry 1, DESIGN CHOICE). -/
def landingOrder (k : Nat) : List Landing → List Landing → Nat × List Landing
  | [], acc => (k, acc)
  | l :: r, acc =>
    if acc.any (fun x => x.dst == l.dst) && l.dst != .flags then
      landingOrder (k + 1) r (insertAt (Config.landOrder k % (acc.length + 1)) l acc)
    else landingOrder k r (acc ++ [l])

/-- V_RESULT_LAND (04 R111, R114). -/
def execVResultLand (s : State) : Out :=
  match s.cur.ev with
  | some (.vResultLand c t) =>
    match s.thread? c t with
    | none => .next s
    | some th =>
      let o := landingOrder s.freeCount (th.land.filter (fun l => decide (l.due ≤ th.tick))) []
      let th1 := o.2.foldl Thread.land1 { th with land := th.land.filter (fun l => !decide (l.due ≤ th.tick)) }
      .next { s.setThread th1 with freeCount := o.1 }
  | _ => .fault .noEvent

/-! ### Lane functions -/

/-- A word of one function of two operands' lanes: its results under its mask (06 R151, R158). -/
def vBin (s : State) (lat : Nat) (d a b : BitVec 5) (t m : Nat) (f : BitVec 2 → Nat → Nat → Nat × Fl) : Out :=
  vWord s lat (fun th =>
    let w := laneW t
    let x := th.vVal a w
    let y := th.vVal b w
    let k := th.mVal (BitVec.ofNat 3 m)
    let r := eachLane w k (fun i => f s.cur.e.frm (laneOf w x i) (laneOf w y i))
    .toV th d r.1 (wideMask k) r.2)

/-- A word of one function of one operand's lanes. -/
def vUn (s : State) (lat : Nat) (d a : BitVec 5) (t m : Nat) (f : BitVec 2 → Nat → Nat × Fl) : Out :=
  vWord s lat (fun th =>
    let w := laneW t
    let x := th.vVal a w
    let k := th.mVal (BitVec.ofNat 3 m)
    let r := eachLane w k (fun i => f s.cur.e.frm (laneOf w x i))
    .toV th d r.1 (wideMask k) r.2)

/-- A word of one function of two operands' lanes and the destination's (06 R159). -/
def vTri (s : State) (lat : Nat) (d a b : BitVec 5) (t m : Nat) (f : BitVec 2 → Nat → Nat → Nat → Nat × Fl) : Out :=
  vWord s lat (fun th =>
    let w := laneW t
    let x := th.vVal a w
    let y := th.vVal b w
    let c := th.vVal d w
    let k := th.mVal (BitVec.ofNat 3 m)
    let r := eachLane w k (fun i => f s.cur.e.frm (laneOf w x i) (laneOf w y i) (laneOf w c i))
    .toV th d r.1 (wideMask k) r.2)

/-- An arithmetic function of Table 6.4 by its integer and float forms (06 R158). -/
def arith2 (t : Nat) (sat : Bool) (fi : Int → Int → Int) (ff : BitVec 2 → FV → FV → Ex) (mode : BitVec 2) (x y : Nat) : Nat × Fl :=
  if isInt t then intLane t sat (fi (laneInt t x) (laneInt t y))
  else roundTy t mode sat (ff mode (laneFV t x) (laneFV t y))

def execVadd (d a b : BitVec 5) (t : BitVec 4) (m : BitVec 3) (x : BitVec 1) (s : State) : Out :=
  vBin s 2 d a b t.toNat m.toNat (arith2 t.toNat (x = 1) (· + ·) (fun mode p q => exSum mode [p, q]))

def execVsub (d a b : BitVec 5) (t : BitVec 4) (m : BitVec 3) (x : BitVec 1) (s : State) : Out :=
  vBin s 2 d a b t.toNat m.toNat (arith2 t.toNat (x = 1) (· - ·) (fun mode p q => exSum mode [p, q.flip]))

def execVmul (d a b : BitVec 5) (t : BitVec 4) (m : BitVec 3) (x : BitVec 1) (s : State) : Out :=
  vBin s 4 d a b t.toNat m.toNat (arith2 t.toNat (x = 1) (· * ·) (fun _ p q => exMul p q))

def execVmulh (d a b : BitVec 5) (t : BitVec 4) (m : BitVec 3) (s : State) : Out :=
  vBin s 4 d a b t.toNat m.toNat (fun _ x y =>
    let w := laneW t.toNat
    (wrapN w (laneInt t.toNat x * laneInt t.toNat y / 2 ^ w), 0))

/-- A function of R159 by its integer and float forms. -/
def arith3 (t : Nat) (fi : Int → Int → Int → Int) (ff : BitVec 2 → FV → FV → FV → Ex) (mode : BitVec 2) (x y c : Nat) :
    Nat × Fl :=
  if isInt t then intLane t false (fi (laneInt t x) (laneInt t y) (laneInt t c))
  else roundTy t mode false (ff mode (laneFV t x) (laneFV t y) (laneFV t c))

def execVfma (d a b : BitVec 5) (t : BitVec 4) (m : BitVec 3) (s : State) : Out :=
  vTri s 4 d a b t.toNat m.toNat (arith3 t.toNat (fun x y c => x * y + c) exFma)

def execVfms (d a b : BitVec 5) (t : BitVec 4) (m : BitVec 3) (s : State) : Out :=
  vTri s 4 d a b t.toNat m.toNat (arith3 t.toNat (fun x y c => x * y - c) (fun mode x y c => exFma mode x y c.flip))

def execVfnm (d a b : BitVec 5) (t : BitVec 4) (m : BitVec 3) (s : State) : Out :=
  vTri s 4 d a b t.toNat m.toNat (arith3 t.toNat (fun x y c => c - x * y) (fun mode x y c => exFma mode x.flip y c))

def execVmin (d a b : BitVec 5) (t : BitVec 4) (m : BitVec 3) (s : State) : Out :=
  vBin s 2 d a b t.toNat m.toNat (arith2 t.toNat false min (fun _ p q => Ex.of (fvMin p q)))

def execVmax (d a b : BitVec 5) (t : BitVec 4) (m : BitVec 3) (s : State) : Out :=
  vBin s 2 d a b t.toNat m.toNat (arith2 t.toNat false max (fun _ p q => Ex.of (fvMax p q)))

def execVabs (d a : BitVec 5) (t : BitVec 4) (m : BitVec 3) (x : BitVec 1) (s : State) : Out :=
  vUn s 2 d a t.toNat m.toNat (fun mode p =>
    if isInt t.toNat then intLane t.toNat (x = 1) (laneInt t.toNat p).natAbs
    else roundTy t.toNat mode false (Ex.of ((laneFV t.toNat p).withSign false)))

def execVneg (d a : BitVec 5) (t : BitVec 4) (m : BitVec 3) (x : BitVec 1) (s : State) : Out :=
  vUn s 2 d a t.toNat m.toNat (fun mode p =>
    if isInt t.toNat then intLane t.toNat (x = 1) (-(laneInt t.toNat p))
    else roundTy t.toNat mode false (Ex.of (laneFV t.toNat p).flip))

def execVdiv (d a b : BitVec 5) (t : BitVec 4) (m : BitVec 3) (s : State) : Out :=
  vBin s 10 d a b t.toNat m.toNat (fun mode x y => roundTy t.toNat mode false (exDiv (laneFV t.toNat x) (laneFV t.toNat y)))

def execVsqrt (d a : BitVec 5) (t : BitVec 4) (m : BitVec 3) (s : State) : Out :=
  vUn s 10 d a t.toNat m.toNat (fun mode x => roundTy t.toNat mode false (exSqrt (laneFV t.toNat x)))

/-- 1 / x. -/
def exRcp (x : FV) : Ex := exDiv (.fin false 1 0) x

/-- A function in its exact form, or with `.apx` (06 R160, R161). -/
def approx (t : Nat) (apx : Bool) (g : FV → Ex) (mode : BitVec 2) (x : Nat) : Nat × Fl :=
  if apx then (Fmt.ofTy t).apx g (laneFV t x) else roundTy t mode false (g (laneFV t x))

def execVrcp (d a : BitVec 5) (t : BitVec 4) (m : BitVec 3) (x : BitVec 1) (s : State) : Out :=
  vUn s 10 d a t.toNat m.toNat (approx t.toNat (x = 1) exRcp)

def execVrsq (d a : BitVec 5) (t : BitVec 4) (m : BitVec 3) (x : BitVec 1) (s : State) : Out :=
  vUn s 10 d a t.toNat m.toNat (approx t.toNat (x = 1) exRsq)

def execVexp2 (d a : BitVec 5) (t : BitVec 4) (m : BitVec 3) (x : BitVec 1) (s : State) : Out :=
  vUn s 10 d a t.toNat m.toNat (approx t.toNat (x = 1) exExp2)

def execVlog2 (d a : BitVec 5) (t : BitVec 4) (m : BitVec 3) (x : BitVec 1) (s : State) : Out :=
  vUn s 10 d a t.toNat m.toNat (approx t.toNat (x = 1) exLog2)

/-! ### Bitwise words and shifts (06 R162) -/

/-- A bitwise word of two operands: the type sets only which bits the mask governs. -/
def vBits (s : State) (d a b : BitVec 5) (t m : Nat) (f : Vec → Vec → Vec) : Out :=
  vWord s 2 (fun th =>
    let w := laneW t
    .toV th d (f (th.vVal a w) (th.vVal b w)) (wideMask (th.mVal (BitVec.ofNat 3 m))) 0)

def execVand (d a b : BitVec 5) (t : BitVec 4) (m : BitVec 3) (s : State) : Out :=
  vBits s d a b t.toNat m.toNat (· &&& ·)

def execVor (d a b : BitVec 5) (t : BitVec 4) (m : BitVec 3) (s : State) : Out :=
  vBits s d a b t.toNat m.toNat (· ||| ·)

def execVxor (d a b : BitVec 5) (t : BitVec 4) (m : BitVec 3) (s : State) : Out :=
  vBits s d a b t.toNat m.toNat (· ^^^ ·)

def execVnot (d a : BitVec 5) (t : BitVec 4) (m : BitVec 3) (s : State) : Out :=
  vBits s d a a t.toNat m.toNat (fun x _ => ~~~x)

def execVshl (d a b : BitVec 5) (t : BitVec 4) (m : BitVec 3) (s : State) : Out :=
  vBin s 2 d a b t.toNat m.toNat (fun _ x y =>
    let w := laneW t.toNat
    (x * 2 ^ (y % w) % 2 ^ w, 0))

def execVshr (d a b : BitVec 5) (t : BitVec 4) (m : BitVec 3) (s : State) : Out :=
  vBin s 2 d a b t.toNat m.toNat (fun _ x y => (x / 2 ^ (y % laneW t.toNat), 0))

def execVsra (d a b : BitVec 5) (t : BitVec 4) (m : BitVec 3) (s : State) : Out :=
  vBin s 2 d a b t.toNat m.toNat (fun _ x y =>
    let w := laneW t.toNat
    let v : Int := if 2 ^ (w - 1) ≤ x then (x : Int) - 2 ^ w else x
    (wrapN w (v / 2 ^ (y % w)), 0))

/-! ### Compares and selection (06 R163, R164) -/

/-- A compare: each mask bit of the destination from the lanes of its group. -/
def vCmp (s : State) (d : BitVec 3) (a b : BitVec 5) (t m : Nat) (any : Bool) (f : Nat → Nat → Bool) : Out :=
  vWord s 2 (fun th =>
    let w := laneW t
    let x := th.vVal a w
    let y := th.vVal b w
    let k := th.mVal (BitVec.ofNat 3 m)
    let n := 32 / w
    let group (g : Nat) : Bool :=
      let r := (List.range n).map (fun j => f (laneOf w x (n * g + j)) (laneOf w y (n * g + j)))
      if any then r.any id else r.all id
    let v := (List.range 64).foldl (fun (acc : Word) g => if k.getLsbD g && group g then acc ||| wd (2 ^ g) else acc) 0
    .toM th d v (BitVec.allOnes 64))

/-- A condition by its integer and float forms; a float condition is false when either operand is NaN. -/
def condOf (t : Nat) (fi : Int → Int → Bool) (ff : Int → Bool) (x y : Nat) : Bool :=
  if isInt t then fi (laneInt t x) (laneInt t y)
  else
    let p := laneFV t x
    let q := laneFV t y
    !p.isNan && !q.isNan && ff (p.cmp q)

def execVcmpeq (d : BitVec 3) (a b : BitVec 5) (t : BitVec 4) (m : BitVec 3) (x : BitVec 1) (s : State) : Out :=
  vCmp s d a b t.toNat m.toNat (x = 1) (condOf t.toNat (fun p q => p == q) (fun c => c == 0))

def execVcmplt (d : BitVec 3) (a b : BitVec 5) (t : BitVec 4) (m : BitVec 3) (x : BitVec 1) (s : State) : Out :=
  vCmp s d a b t.toNat m.toNat (x = 1) (condOf t.toNat (fun p q => decide (p < q)) (fun c => decide (c < 0)))

def execVcmple (d : BitVec 3) (a b : BitVec 5) (t : BitVec 4) (m : BitVec 3) (x : BitVec 1) (s : State) : Out :=
  vCmp s d a b t.toNat m.toNat (x = 1) (condOf t.toNat (fun p q => decide (p ≤ q)) (fun c => decide (c ≤ 0)))

def execVcmpun (d : BitVec 3) (a b : BitVec 5) (t : BitVec 4) (m : BitVec 3) (x : BitVec 1) (s : State) : Out :=
  vCmp s d a b t.toNat m.toNat (x = 1) (fun p q => (laneFV t.toNat p).isNan || (laneFV t.toNat q).isNan)

def execVsel (d a b : BitVec 5) (t : BitVec 4) (m : BitVec 3) (s : State) : Out :=
  vWord s 2 (fun th =>
    let w := laneW t.toNat
    let k := wideMask (th.mVal m)
    .toV th d ((th.vVal a w &&& k) ||| (th.vVal b w &&& ~~~k)) allBits 0)

/-! ### Conversions and blocks (06 R165-R168) -/

/-- Converts lanes in ascending order, with the generator carried along (03 R77). -/
def convLanes (f : Nat → Word → Nat × Fl × Word) : List (Nat × Bool) → Word → List Nat × Fl × Word
  | [], g => ([], 0, g)
  | (i, act) :: r, g =>
    if act then
      let x := f i g
      let y := convLanes f r x.2.2
      (x.1 :: y.1, x.2.1 ||| y.2.1, y.2.2)
    else
      let y := convLanes f r g
      (0 :: y.1, y.2.1, y.2.2)

def execVcvt (d a : BitVec 5) (st : BitVec 1) (c t : BitVec 4) (m : BitVec 3) (r : BitVec 1) (s : State) : Out :=
  vWord s 4 (fun th =>
    let src := c.toNat
    let dst := t.toNat
    let x := th.vVal a (laneW src)
    let k := th.mVal m
    let p := min (lanes (laneW src)) (lanes (laneW dst))
    let f (i : Nat) (g : Word) : Nat × Fl × Word :=
      if i < p then convLane src dst s.cur.e.frm (st = 1) (r = 1) (laneOf (laneW src) x i) g else (0, 0, g)
    let o := convLanes f ((List.range (lanes (laneW dst))).map (fun i => (i, laneActive (laneW dst) k i))) th.csr.srnd
    { VOut.toV th d (packLanes (laneW dst) o.1) (wideMask k) o.2.1 with srnd := o.2.2 })

def execVqblk (d a b : BitVec 5) (t : BitVec 4) (s : State) : Out :=
  vWord s 4 (fun th =>
    let w := laneW t.toNat
    let x := th.vVal a w
    let blocks := (List.range (lanes w / 32)).map (fun k =>
      quantBlock ((List.range 32).map (fun i => laneFV t.toNat (laneOf w x (32 * k + i)))))
    let codes := packLanes 4 (blocks.flatMap (·.1))
    let side := packLanes 16 (blocks.map (fun q => q.2.1 + 256 * q.2.2.1))
    let o := VOut.toV th d codes allBits (if blocks.any (·.2.2.2) then flNx else 0)
    { o with res := o.res ++ [(.v b.toNat, side, allBits)] })

def execVdqblk (d a b : BitVec 5) (t : BitVec 4) (m : BitVec 3) (s : State) : Out :=
  vWord s 4 (fun th =>
    let w := laneW t.toNat
    let x := th.vVal a 8
    let y := th.vVal b 8
    let k := th.mVal m
    let r := eachLane w k (fun i =>
      roundTy t.toNat s.cur.e.frm false
        (Ex.of (blockElem (laneOf 4 x i) (laneOf 8 y (2 * (i / 32))) (laneOf 8 y (2 * (i / 32) + 1)))))
    .toV th d r.1 (wideMask k) r.2)

/-! ### Reductions, scans and dots (06 R169-R171, 03 R86-R88) -/

/-- An operation of Table 6.6 on two lanes, the lower lane first. -/
def redOp (p t : Nat) (mode : BitVec 2) (x y : Nat) : Nat × Fl :=
  if p = 0 then arith2 t false (· + ·) (fun md u v => exSum md [u, v]) mode x y
  else if p = 1 then arith2 t false min (fun _ u v => Ex.of (fvMin u v)) mode x y
  else if p = 2 then arith2 t false max (fun _ u v => Ex.of (fvMax u v)) mode x y
  else if p = 3 then (x &&& y, 0)
  else if p = 4 then (x ||| y, 0)
  else (x ^^^ y, 0)

/-- The identity of an operation as a lane (03 R86). -/
def redId (p t : Nat) : Nat :=
  let w := laneW t
  if isInt t then
    (if p = 1 then wrapN w (intHi t) else if p = 2 then wrapN w (intLo t) else if p = 3 then 2 ^ w - 1 else 0)
  else if p = 1 then (Fmt.ofTy t).infBits false
  else if p = 2 then (Fmt.ofTy t).infBits true
  else (Fmt.ofTy t).pack true 0 0

/-- Combines neighbours: one step of the tree of R86. -/
def treeStep (f : Nat → Nat → Nat × Fl) : List Nat → List Nat × Fl
  | x :: y :: r =>
    let p := f x y
    let q := treeStep f r
    (p.1 :: q.1, p.2 ||| q.2)
  | l => (l, 0)

/-- The tree of R86, by its number of steps. -/
def tree (f : Nat → Nat → Nat × Fl) : Nat → List Nat → Fl → Nat × Fl
  | 0, l, fl => (l.headD 0, fl)
  | n + 1, l, fl =>
    let r := treeStep f l
    tree f n r.1 (fl ||| r.2)

/-- The scan of R87, by its number of steps: every lane `i` at or above `k` takes op(lane i − k, lane i). Log entry 25, DEDUCED. -/
def scan (f : Nat → Nat → Nat × Fl) : Nat → Nat → List Nat → Fl → List Nat × Fl
  | 0, _, l, fl => (l, fl)
  | n + 1, k, l, fl =>
    let r := List.zipWith f l (l.drop k)
    scan f n (2 * k) (l.take k ++ r.map Prod.fst) (r.foldl (fun a p => a ||| p.2) fl)

/-- The lanes of an operand with the inactive ones at an operation's identity. -/
def redLanes (p t : Nat) (k : Word) (x : Vec) : List Nat :=
  let w := laneW t
  (List.range (lanes w)).map (fun i => if laneActive w k i then laneOf w x i else redId p t)

def execVred (d a : BitVec 5) (p : BitVec 3) (t : BitVec 4) (m : BitVec 3) (s : State) : Out :=
  vWord s 6 (fun th =>
    let w := laneW t.toNat
    let l := redLanes p.toNat t.toNat (th.mVal m) (th.vVal a w)
    let r := tree (redOp p.toNat t.toNat s.cur.e.frm) (lanes w).log2 l 0
    .toV th d (packLanes w [r.1]) allBits r.2)

def execVscan (d a : BitVec 5) (p : BitVec 3) (t : BitVec 4) (m : BitVec 3) (s : State) : Out :=
  vWord s 6 (fun th =>
    let w := laneW t.toNat
    let k := th.mVal m
    let l := redLanes p.toNat t.toNat k (th.vVal a w)
    let r := scan (redOp p.toNat t.toNat s.cur.e.frm) (lanes w).log2 1 l 0
    .toV th d (packLanes w r.1) (wideMask k) r.2)

/-- One group of a dot product (06 R171): the accumulator and the products' operands. -/
def dotGroup (t : Nat) (sat : Bool) (mode : BitVec 2) (c : Nat) (xs ys : List Nat) : Nat × Fl :=
  if isInt t then
    let u := if isSigned t then 2 else 5
    let e : Int := (List.zipWith (fun x y => laneInt t x * laneInt t y) xs ys).foldl (· + ·) 0
    intLane u sat (laneInt u c + e)
  else
    let ps := List.zipWith (fun x y => exMul (laneFV t x) (laneFV t y)) xs ys
    let r := exSum mode (laneFV 6 c :: ps.map (·.v))
    let bad := ps.any (fun p => p.fl == flNv) ||
      (ps.any (fun p => p.v == .inf false) && ps.any (fun p => p.v == .inf true))
    if bad then (Fmt.f32.nanBits, flNv) else roundTy 6 mode false r

/-- A dot product of `q` elements a group. -/
def vDot (s : State) (q : Nat) (d a b : BitVec 5) (t m : Nat) (sat : Bool) : Out :=
  vWord s 4 (fun th =>
    let w := laneW t
    let x := th.vVal a w
    let y := th.vVal b w
    let c := th.vVal d 32
    let k := th.mVal (BitVec.ofNat 3 m)
    let el (v : Vec) (g : Nat) : List Nat := (List.range q).map (fun j => laneOf w v (q * g + j))
    let r := eachLane 32 k (fun g => dotGroup t sat s.cur.e.frm (laneOf 32 c g) (el x g) (el y g))
    .toV th d r.1 (wideMask k) r.2)

def execVdot4 (d a b : BitVec 5) (t : BitVec 4) (m : BitVec 3) (x : BitVec 1) (s : State) : Out :=
  vDot s 4 d a b t.toNat m.toNat (x = 1)

def execVdot2 (d a b : BitVec 5) (t : BitVec 4) (m : BitVec 3) (x : BitVec 1) (s : State) : Out :=
  vDot s 2 d a b t.toNat m.toNat (x = 1)

/-! ### Moving lanes (06 R172, R173) -/

/-- A permute: each active lane of the destination from its number. -/
def vMove (s : State) (lat : Nat) (d : BitVec 5) (t m : Nat) (f : Thread → Nat → Nat) : Out :=
  vWord s lat (fun th =>
    let k := th.mVal (BitVec.ofNat 3 m)
    .toV th d (eachLane (laneW t) k (fun i => (f th i, 0))).1 (wideMask k) 0)

def execVperm (d a b : BitVec 5) (t : BitVec 4) (m : BitVec 3) (x : BitVec 1) (s : State) : Out :=
  let w := laneW t.toNat
  let n := lanes w
  vMove s 4 d t.toNat m.toNat (fun th i =>
    let k := laneOf w (th.vVal b w) i
    let k := if x = 0 then k % n else k
    if k < n then laneOf w (th.vVal a w) k else 0)

def execVrot (d a b : BitVec 5) (t : BitVec 4) (m : BitVec 3) (s : State) : Out :=
  let w := laneW t.toNat
  let n := lanes w
  vMove s 4 d t.toNat m.toNat (fun th i =>
    let r := laneOf 16 (th.vVal b 32) 0 % n
    laneOf w (th.vVal a w) ((i + n - r) % n))

def execVzip (d a b : BitVec 5) (t : BitVec 4) (m : BitVec 3) (x : BitVec 1) (s : State) : Out :=
  let w := laneW t.toNat
  let base := if x = 1 then lanes w / 2 else 0
  vMove s 4 d t.toNat m.toNat (fun th i => laneOf w (th.vVal (if i % 2 = 0 then a else b) w) (base + i / 2))

def execVunzip (d a b : BitVec 5) (t : BitVec 4) (m : BitVec 3) (x : BitVec 1) (s : State) : Out :=
  let w := laneW t.toNat
  let h := lanes w / 2
  let o := if x = 1 then 1 else 0
  vMove s 4 d t.toNat m.toNat (fun th i =>
    if i < h then laneOf w (th.vVal a w) (2 * i + o) else laneOf w (th.vVal b w) (2 * (i - h) + o))

def execVbcst (d a b : BitVec 5) (t : BitVec 4) (m : BitVec 3) (s : State) : Out :=
  let w := laneW t.toNat
  vMove s 4 d t.toNat m.toNat (fun th _ => laneOf w (th.vVal a w) (laneOf 16 (th.vVal b 32) 0 % lanes w))

def execVmov (d a : BitVec 5) (t : BitVec 4) (m : BitVec 3) (s : State) : Out :=
  let w := laneW t.toNat
  vMove s 2 d t.toNat m.toNat (fun th i => laneOf w (th.vVal a w) i)

def execViota (d : BitVec 5) (t : BitVec 4) (m : BitVec 3) (s : State) : Out :=
  vMove s 2 d t.toNat m.toNat (fun _ i => i % 2 ^ laneW t.toNat)

def execVmovi (d : BitVec 5) (i : BitVec 18) (pre : Option (BitVec 29)) (s : State) : Out :=
  vWord s 2 (fun th => .toV th d (broadcast 32 (immS i pre)) allBits 0)

/-! ### Mask operations (06 R174) -/

def execMlog (d a : BitVec 3) (p : BitVec 2) (b m : BitVec 3) (n : BitVec 1) (s : State) : Out :=
  vWord s 2 (fun th =>
    let x := th.mVal a
    let y := th.mVal b
    let r := if p = 0 then x &&& y else if p = 1 then x ||| y else if p = 2 then x ^^^ y else x &&& ~~~y
    .toM th d (if n = 1 then ~~~r else r) (th.mVal m))

/-- The mask bits that MPOP and MFIRST look at. -/
def maskBits (x y : Word) : List Nat := (List.range 64).filter (fun g => (x &&& y).getLsbD g)

def execMpop (d : BitVec 5) (a m : BitVec 3) (s : State) : Out :=
  vWord s 2 (fun th => .toV th d (packLanes 32 [(maskBits (th.mVal a) (th.mVal m)).length]) allBits 0)

def execMfirst (d : BitVec 5) (a m : BitVec 3) (s : State) : Out :=
  vWord s 2 (fun th => .toV th d (packLanes 32 [(maskBits (th.mVal a) (th.mVal m)).headD 64]) allBits 0)

/-! ### Classification and counts (06 R175) -/

/-- The class bit of a float pattern. -/
def classBit (t b : Nat) : Nat :=
  let f := Fmt.ofTy t
  match f.decode b with
  | .nan => 8
  | .inf s => if s then 0 else 7
  | .fin s m e =>
    if m = 0 then (if s then 3 else 4)
    else if decide (m < 2 ^ f.mbits) && e == f.qmin then (if s then 2 else 5)
    else (if s then 1 else 6)

def execVclass (d a : BitVec 5) (t : BitVec 4) (m : BitVec 3) (s : State) : Out :=
  vUn s 2 d a t.toNat m.toNat (fun _ x => (2 ^ classBit t.toNat x, 0))

def execVclz (d a : BitVec 5) (t : BitVec 4) (m : BitVec 3) (s : State) : Out :=
  vUn s 2 d a t.toNat m.toNat (fun _ x => (laneW t.toNat - bitLen x, 0))

/-- One bits among the low `n`. -/
def popLane (n x : Nat) : Nat := ((List.range n).filter (fun i => x.testBit i)).length

def execVpopc (d a : BitVec 5) (t : BitVec 4) (m : BitVec 3) (s : State) : Out :=
  vUn s 2 d a t.toNat m.toNat (fun _ x => (popLane (laneW t.toNat) x, 0))

/-! ### Pushes and VWAIT (06 R176, R177) -/

def execVtos (a j : BitVec 5) (s : State) : Out :=
  vWord s 2 (fun th =>
    { res := [], fl := 0, push := wd (laneOf 64 (th.vVal a 32) j.toNat) |>.setWidth 2048, srnd := th.csr.srnd })

def execVtoa (a : BitVec 5) (s : State) : Out :=
  vWord s 2 (fun th => { res := [], fl := 0, push := th.vVal a 32, srnd := th.csr.srnd })

/-- VWAIT writes nothing and takes a tick; the front steers nothing younger until it has issued and every result has landed. -/
def execVwait (s : State) : Out :=
  Out.mapNext (vWord s 0 (fun th => { res := [], fl := 0, push := 0, srnd := th.csr.srnd })) (fun s1 =>
    if s.cur.front && !s1.cur.stalled then
      s1.modThread s.cur.c s.cur.t (fun x => { x with issue := { x.issue with vwait := true } })
    else s1)

end Sys2Proof.Machine
end

