-- ==== Sys2Proof/Machine/Window.lean ====
section
/-!
DEFINITION. The scratchpad window: addresses and the checks of an access (07 R181-R183), the bytes and tags of a core, and
the tile table (07 R185, R186).
-/

namespace Sys2Proof.Machine

/-! ### Tiles -/

/-- Table entry of tile `t` of a group; none at or beyond the allotment (07 R185). -/
def Group.tile? (g : Group) (t : Nat) : Option Nat := if t < 8 * g.tcnt then some (8 * g.tbase + t) else none

/-- The registered entries of a group, with their numbers in the core's table. -/
def State.tilesOf (s : State) (g : Group) : List (Nat × Tile) :=
  (s.core g.c).tiles.filter (fun p => decide (8 * g.tbase ≤ p.1) && decide (p.1 < 8 * (g.tbase + g.tcnt)))

/-- The place number of a table entry in an error record (19 Table 19.2). Log entry 84, DESIGN CHOICE. -/
def entryLoc (e : Nat) : Nat := 2048 + e

/-- Code of a tile state (07 R185). -/
def TileSt.code : TileSt → Nat
  | .empty => 0
  | .filling => 1
  | .ready => 2
  | .draining => 3

/-- A registered entry as TTSTAT returns it (07 R185). -/
def Tile.word (t : Tile) : Word :=
  wd (2 ^ 63 + t.st.code * 2 ^ 36 + t.swz.toNat * 2 ^ 32 + t.ty.toNat * 2 ^ 28 + t.size * 2 ^ 12 + t.base)

/-- First window offset of a tile, and the offset after its last byte. -/
def Tile.lo (t : Tile) : Nat := 512 * t.base
def Tile.hi (t : Tile) : Nat := 512 * (t.base + t.size)

/-- Changes the state of a table entry. -/
def State.setTile (s : State) (c e : Nat) (st : TileSt) : State :=
  match (s.core c).tiles.find e with
  | some x => s.modCore c (fun k => { k with tiles := k.tiles.set e { x with st := st } })
  | none => s

/-- Unregisters a table entry. -/
def State.dropTile (s : State) (c e : Nat) : State := s.modCore c (fun k => { k with tiles := k.tiles.del e })

/-! ### Access checks -/

/-- First window offset among `n` bytes from `o` at which BOUNDS or a registered tile is met (07 R182). -/
def firstByte (o n : Nat) (p : Nat → Bool) : Option Nat := ((List.range n).find? (fun i => p (o + i))).map (o + ·)

/-- Window offset `o` lies outside the window, or in the barrier region (07 R182, R183). -/
def Group.outside (g : Group) (o : Nat) : Bool := decide (g.bytes ≤ o) || g.inBarriers o

/-- The checks of an access to `n` bytes at `x`, aligned to `al` (07 R182): the group and the window offset. -/
def State.spChk (s : State) (task j c : Nat) (x : Word) (n al : Nat) : Except Stop (Group × Nat) :=
  if x.toNat % al ≠ 0 then .error (.trap 0x05 x)
  else match s.refGroup task j c x with
    | none => .error (.trap 0x11 x)
    | some g =>
      let o := fld x 20 0
      if g.outside o then .error (.trap 0x11 x)
      else if g.outside (o + n - 1) then
        .error (.trap 0x11 (x + wd (((firstByte o n g.outside).getD o) - o)))
      else
        let ts := s.tilesOf g
        if ts.any (fun p => decide (p.2.lo < o + n) && decide (o < p.2.hi)) then
          .error (.trap 0x07 (x + wd (((firstByte o n (fun i =>
            ts.any (fun p => decide (p.2.lo ≤ i) && decide (i < p.2.hi)))).getD o) - o)))
        else .ok (g, o)

/-- Physical scratchpad offset of a window offset (07 R179). -/
def Group.phys (g : Group) (o : Nat) : Nat := 65536 * g.base + o

/-! ### Bytes, tags and poison marks -/

/-- The bytes of a core's scratchpad. -/
def State.spGet (s : State) (c off n : Nat) : Nat := (s.core c).sp.getN off n

/-- Key of a scratchpad word in the list of poison marks. -/
def spKey (c off : Nat) : Nat := 2 ^ 21 * c + off / 8 * 8

/-- Some word of `n` bytes carries a poison mark: its offset (19 R466, R467). -/
def State.spPoisoned (s : State) (c off n : Nat) : Option Nat :=
  (s.spPoison.find? (fun k => decide (spKey c off ≤ k) && decide (k ≤ spKey c (off + n - 1)))).map (· % 2 ^ 21)

/-- Fails with containment when a word reads marked scratchpad data (19 R467). -/
def State.spClean (s : State) (c off n : Nat) : Except Stop Unit :=
  match s.spPoisoned c off n with
  | some o => .error (.consume 0 (dieOf c) (c % 32) o (wd o))
  | none => .ok ()

/-- Writes `n` bytes; a word wholly written loses its poison mark, for it now holds good data (19 R467). -/
def State.spPut (s : State) (c off n v : Nat) : State :=
  let s1 := s.modCore c (fun k => { k with sp := k.sp.putN off n v })
  { s1 with spPoison := s1.spPoison.filter (fun k =>
      !(decide (2 ^ 21 * c + off ≤ k) && decide (k + 8 ≤ 2 ^ 21 * c + off + n))) }

/-! ### Banks -/

/-- The words of 64 bits that hold `n` bytes at a physical offset. -/
def wordsOf (off n : Nat) : List Nat := (List.range ((off % 8 + n + 7) / 8)).map (off / 8 + ·)

/-- A requester's access takes `n` words of a bank, one each cycle, once the bank is free: the cycles that it waits there are counted (07
R184, 21 R503). -/
def Core.bankServe (k : Core) (now req b n : Nat) : Core :=
  let t := max now (k.busy.get 0 b)
  let wait := t - now + n - 1
  { k with busy := k.busy.set b (t + n), bmx := if wait = 0 then k.bmx else k.bmx.set (32 * req + b)
             (min (2 ^ 32 - 1) (k.bmx.get 0 (32 * req + b) + wait)) }

/-- A requester's access to words of a core's scratchpad, each in its bank (07 R184): where no bank has two of them, and none is at work,
nothing waits. -/
def State.useBanks (s : State) (c req : Nat) (ws : List Nat) : State :=
  let l := ws.eraseDups
  let bs := (l.map (· % 32)).eraseDups
  if bs.length = l.length && (s.core c).busy.all (fun p => decide (p.2 ≤ s.now)) then s
  else s.modCore c (fun k => bs.foldl (fun k b => k.bankServe s.now req b (l.filter (fun w => w % 32 = b)).length)
    { k with busy := k.busy.filter (fun p => decide (s.now < p.2)) })

/-- The tag of a word is full (08 R218). -/
def Core.full (k : Core) (off : Nat) : Bool := k.tags.contains (off / 8 * 8)

/-- Sets or clears the tag of a word. -/
def Core.setTag (k : Core) (off : Nat) (f : Bool) : Core :=
  let a := off / 8 * 8
  { k with tags := if f then (if k.tags.contains a then k.tags else insertUp a k.tags) else k.tags.filter (· ≠ a) }

/-- An operation that waits at a tagged word is performed at its bank, indivisibly, as a release or an acquire of its thread (08 R220, 09
R228): its word goes on with the value read, none where the word carries a poison mark. -/
def State.serveTag (s : State) (c : Nat) (q : TagWait) : State :=
  let v := if (s.spPoisoned c q.off 8).isSome then none else some (wd (s.spGet c q.off 8))
  let s0 := s.useBanks c (if q.c = c then q.t else 13) (wordsOf q.off 8)
  let s1 := match q.val with
    | some w => s0.spPut c q.off 8 w.toNat
    | none => s0
  let s2 := s1.modCore c (fun k => { k.setTag q.off q.leaves with tagq := k.tagq.filter (· ≠ q) })
  match s2.thread? q.c q.t with
  | none => s2
  | some th =>
    let s3 := if q.val.isSome then s2.raceRelease th q.scope (.word c q.off) false else s2.raceAcquire th q.scope (.word c q.off)
    s3.modThread q.c q.t (·.wake (.served v))

/-- The operations that wait for a word's tag are performed in their order, until one has changed it again (08 R220); `n` bounds their
number. -/
def State.serveTags (s : State) (c off : Nat) : Nat → State
  | 0 => s
  | n + 1 =>
    match (s.core c).tagq.find? (fun q => q.off == off && q.want == (s.core c).full off) with
    | none => s
    | some q => (s.serveTag c q).serveTags c off n

/-- A tag is set or cleared, and those that wait for it are served (08 R220). -/
def State.tagTo (s : State) (c off : Nat) (f : Bool) : State :=
  let s1 := s.modCore c (·.setTag off f)
  s1.serveTags c (off / 8 * 8) (s1.core c).tagq.length

end Sys2Proof.Machine
end

