-- ==== Sys2Proof/Machine/Access.lean ====
section
/-!
DEFINITION. The access engine: the `a` file (07 R193, R194), the scratchpad words LDS to STT (07 R195-R199), the tile words
(07 R200-R202), and what is common to access words: watchpoints (21 R504) and the load queues (04 R101).
-/

namespace Sys2Proof.Machine

/-! ### The a file -/

/-- The value that a scalar source field reads: a0 zero, a28 the head of `saq` (07 R193). -/
def Thread.aVal (th : Thread) (r : BitVec 5) : Word :=
  if r = 0 then 0 else if r = 28 then headVal 0 th.q.saq else th.f.a.get 0 r.toNat

/-- No `a` register that source fields name carries a poison mark (19 R467). -/
def Thread.aClean (th : Thread) (rs : List (BitVec 5)) : Except Stop Unit := th.clean (rs.map (32 + ·.toNat))

/-- `saq` can pop, for word `q`, where a source field names it (07 R193, 08 R221): what an older word has pushed (16 R404); and no register
that they name is marked (19 R467). -/
def Thread.aReady (th : Thread) (now q : Nat) (rs : List (BitVec 5)) : Except Stop Unit :=
  if rs.contains 28 && !(headReadyFor now q th.q.saq) then .error (.wait (some (.block 28))) else th.aClean rs

/-- `asq` has room where the destination names it. -/
def Thread.aRoom (th : Thread) (d : BitVec 5) : Except Stop Unit :=
  if d = 30 && !(room 8 th.q.asq) then .error (.wait (some (.block 30))) else .ok ()

/-- Pops `saq`, once, where a source field names it (04 R103). -/
def Thread.aPop (th : Thread) (rs : List (BitVec 5)) : Thread :=
  if rs.contains 28 then { th with q := { th.q with saq := th.q.saq.tail } } else th

/-- Writes a scalar destination: a0 discards, a30 pushes `asq` (07 R193). -/
def Thread.aPut (th : Thread) (d : BitVec 5) (x : Word) (seq : Nat) : Thread :=
  if d = 0 then th
  else if d = 30 then { th with q := { th.q with asq := th.q.asq ++ [QE.now x seq] } }
  else { th with f := { th.f.fresh (32 + d.toNat) with a := th.f.a.set d.toNat x } }

/-- Writes a k register (10 R268). -/
def Thread.putK (th : Thread) (d : BitVec 3) (v : Tab (BitVec 32)) : Thread :=
  { th with f := { th.f.fresh (64 + d.toNat) with k := th.f.k.set d.toNat v } }

/-- A word that writes a function of `a` registers. -/
def aWord (s : State) (srcs : List (BitVec 5)) (d : BitVec 5) (f : Thread → Word) : Out :=
  accessWord s (fun th => do
    th.aReady s.now s.cur.e.seq srcs
    th.aRoom d
    .ok (s.setThread ((th.aPop srcs).aPut d (f th) s.cur.e.seq)))

def execAadd (d a b : BitVec 5) (s : State) : Out := aWord s [a, b] d (fun th => th.aVal a + th.aVal b)
def execAsub (d a b : BitVec 5) (s : State) : Out := aWord s [a, b] d (fun th => th.aVal a - th.aVal b)
def execAmul (d a b : BitVec 5) (s : State) : Out := aWord s [a, b] d (fun th => th.aVal a * th.aVal b)
def execAshl (d a b : BitVec 5) (s : State) : Out := aWord s [a, b] d (fun th => th.aVal a <<< ((th.aVal b).toNat % 64))
def execAshr (d a b : BitVec 5) (s : State) : Out := aWord s [a, b] d (fun th => th.aVal a >>> ((th.aVal b).toNat % 64))
def execAand (d a b : BitVec 5) (s : State) : Out := aWord s [a, b] d (fun th => th.aVal a &&& th.aVal b)
def execAor (d a b : BitVec 5) (s : State) : Out := aWord s [a, b] d (fun th => th.aVal a ||| th.aVal b)
def execAaddi (d a : BitVec 5) (i : BitVec 13) (pre : Option (BitVec 29)) (s : State) : Out :=
  aWord s [a] d (fun th => th.aVal a + immS i pre)
def execAmovi (d : BitVec 5) (i : BitVec 18) (pre : Option (BitVec 29)) (s : State) : Out :=
  aWord s [] d (fun _ => immS i pre)
def execAmovhi (d : BitVec 5) (i : BitVec 18) (pre : Option (BitVec 29)) (s : State) : Out :=
  accessWord s (fun th => do
    th.aClean [d]
    th.aRoom d
    .ok (s.setThread (th.aPut d (immS i pre <<< 32 ||| (th.aVal d &&& 0xFFFFFFFF)) s.cur.e.seq)))

/-! ### The queues of vectors -/

/-- The load queue that a vector destination field names. -/
def Thread.lq (th : Thread) (d : BitVec 5) : List (QE Vec) := if d = 28 then th.q.lq0 else th.q.lq1

/-- The load queue has room (04 R102). -/
def Thread.lqRoom (th : Thread) (d : BitVec 5) : Except Stop Unit :=
  if room 16 (th.lq d) then .ok () else .error (.wait (some (.block (d.setWidth 64))))

/-- `sq` can pop. -/
def Thread.sqReady (th : Thread) (now : Nat) : Except Stop Unit :=
  if headReady now th.q.sq then .ok () else .error (.wait (some (.block 30)))

/-- `vaq` can pop. -/
def Thread.vaqReady (th : Thread) (now : Nat) : Except Stop Unit :=
  if headReady now th.q.vaq then .ok () else .error (.wait (some (.block 29)))

/-- Reserves an entry of a load queue with the value that its data will bring (04 R101). -/
def Thread.lqPush (th : Thread) (d : BitVec 5) (v : Vec) (seq : Nat) : Thread :=
  let x : QE Vec := { val := v, full := false, fillAt := 0, seq := seq }
  if d = 28 then { th with q := { th.q with lq0 := th.q.lq0 ++ [x] } } else { th with q := { th.q with lq1 := th.q.lq1 ++ [x] } }

/-- The port of a load queue. -/
def lqPort (d : BitVec 5) : Port := if d = 28 then .lq0 else .lq1

/-- A load delivers a vector: the entry is reserved now, and the data are on their way (04 R101). -/
def State.deliverLq (s : State) (c t : Nat) (d : BitVec 5) (v : Vec) : State :=
  (s.modThread c t (fun x => x.lqPush d v s.cur.e.seq)).later [.loadDataArrive c t (lqPort d)]

def Thread.sqPop (th : Thread) : Thread := { th with q := { th.q with sq := th.q.sq.tail } }
def Thread.vaqPop (th : Thread) : Thread := { th with q := { th.q with vaq := th.q.vaq.tail } }

/-- Fills the oldest entry that waits for its data. -/
def fillOldest : List (QE Vec) → List (QE Vec)
  | [] => []
  | e :: r => if e.full then e :: fillOldest r else { e with full := true } :: r

/-- LOAD_DATA_ARRIVE (04 R101). -/
def execLoadDataArrive (s : State) : Out :=
  match s.cur.ev with
  | some (.loadDataArrive c t q) =>
    .next (s.modThread c t (fun th => match q with
      | .lq0 => { th with q := { th.q with lq0 := fillOldest th.q.lq0 } }
      | .lq1 => { th with q := { th.q with lq1 := fillOldest th.q.lq1 } }
      | _ => th))
  | _ => .fault .noEvent

/-! ### Watchpoints -/

/-- The sectors of `n` bytes at an offset. -/
def secsOf (o n : Nat) : List Nat := (List.range ((o + n - 1) / 32 + 1 - o / 32)).map (o / 32 + ·)

/-- The lowest watchpoint that fires: its number, action and sector (21 R504). Directions: 1 reads, 2 writes, 3 both. -/
def Thread.wptHit (th : Thread) (tid dir : Nat) (secs : List Nat) : Option (Nat × Nat × Nat) :=
  (List.range 4).findSome? (fun i =>
    let w := th.csr.wpt.get 0 i
    let sec := fld w 47 5
    if (fld w 63 62 = 1 || fld w 63 62 = 2) && fld w 61 60 &&& dir ≠ 0 && fld w 59 48 = tid && secs.contains sec then
      some (i, fld w 63 62, sec)
    else none)

/-- The watchpoint test of a word (21 R504): a record, or a BREAK; none where the thread's stop for a BREAK waits for the end of a LOOPS pass
(21 R505). -/
def State.watch (s : State) (th : Thread) (tid dir : Nat) (secs : List Nat) : Except Stop State :=
  match th.wptHit tid dir (secs.map (· % 2 ^ 43)) with
  | none => .ok s
  | some (i, act, sec) =>
    if act = 2 then
      (if th.csr.trc.getLsbD 6 && th.issue.stopReq ≠ 0 && th.inLoops then .ok s else .error (.trap 0x0F (wd (0x2000 + i))))
    else if th.csr.trc.getLsbD 0 then
      .ok (s.trace th.c th.t 6 s.cur.e.seq s.cur.e.corr (dir * 4 + i) (wd (32 * sec)) (wd tid))
    else .ok s

/-- The same of a word that accesses a tensor: identifier 0xFFF names the scratchpad, so tensor 4,095 has no watchpoint (21 R504). -/
def State.watchTensor (s : State) (th : Thread) (tid dir : Nat) (secs : List Nat) : Except Stop State :=
  if tid = 0xFFF then .ok s else s.watch th tid dir secs

/-! ### Scratchpad words -/

/-- A message of a thread to a core enters the mesh of its die (11 R294). Log entry 13, DESIGN CHOICE. -/
def State.send (s : State) (th : Thread) (c : Nat) (k : MsgKind) : State :=
  let v := s.vcOf th
  { s with mesh := s.mesh ++ [{ n := s.nextMsg, die := dieOf th.c, cls := v.cls, urgent := v.urgent, fast := false,
                                since := s.now, c := th.c, t := th.t, dest := c, what := k }], nextMsg := s.nextMsg + 1 }

/-- A store of the thread to a core is on its way. -/
def State.farBusy (s : State) (th : Thread) (c : Nat) : Bool :=
  s.mesh.any (fun m => m.c == th.c && m.t == th.t && (match m.what with
    | .store x _ _ _ => x == c
    | _ => false))

/-- Checks every element of an access before any moves (07 R182, R197): group and window offset of each. Log entry 43, DEDUCED. -/
def State.spAll (s : State) (th : Thread) (n al : Nat) : List Word → Except Stop (List (Group × Nat))
  | [] => .ok []
  | x :: r => do
    let p ← s.spChk th.task th.group th.c x n al
    let q ← s.spAll th n al r
    .ok (p :: q)

/-- The banks that a thread's access of `n` bytes each uses: its own port on its core, the remote port on another (21 R503). -/
def State.spBanks (s : State) (th : Thread) (n : Nat) (ps : List (Group × Nat)) : State :=
  ((ps.map (·.1.c)).eraseDups).foldl (fun z c =>
    z.useBanks c (if c = th.c then th.t else 13) ((ps.filter (fun p => p.1.c = c)).flatMap (fun p => wordsOf (p.1.phys p.2) n))) s

/-- The watchpoint test of a scratchpad access, which then takes its banks. -/
def State.spWatch (s : State) (th : Thread) (dir n : Nat) (ps : List (Group × Nat)) : Except Stop State :=
  (s.watch th 0xFFF dir (ps.flatMap (fun p => secsOf p.2 n))).map (fun s1 => s1.spBanks th n ps)

/-- The watchpoint test of a posted store, which takes its banks where it is performed: at once on the thread's own core, on another when it
arrives there (07 R184, R203). -/
def State.spPost (s : State) (th : Thread) (n : Nat) (ps : List (Group × Nat)) : Except Stop State :=
  (s.watch th 0xFFF 2 (ps.flatMap (fun p => secsOf p.2 n))).map (fun s1 => s1.spBanks th n (ps.filter (fun p => p.1.c = th.c)))

/-- Reads `n` bytes for a load: a thread's own stores to a core come before its loads from it, and a poison mark is consumed
(07 R203, 19 R467). -/
def State.spLoad (s : State) (th : Thread) (p : Group × Nat) (n : Nat) : Except Stop Nat :=
  if p.1.c ≠ th.c && s.farBusy th p.1.c then .error (.wait none)
  else do
    s.spClean p.1.c (p.1.phys p.2) n
    .ok (s.spGet p.1.c (p.1.phys p.2) n)

/-- Stores `n` bytes: at once on the thread's own core, posted to another (07 R203). -/
def State.spStore (s : State) (th : Thread) (p : Group × Nat) (n v : Nat) : State :=
  if p.1.c = th.c then s.spPut th.c (p.1.phys p.2) n v else s.send th p.1.c (.store p.1.c (p.1.phys p.2) n v)

/-- The address of a word with a scaled immediate. -/
def aAddr (th : Thread) (a : BitVec 5) (sc : Word) (i : BitVec 13) (pre : Option (BitVec 29)) : Word :=
  th.aVal a + sc * immS i pre

def execLds (d a : BitVec 5) (i : BitVec 13) (pre : Option (BitVec 29)) (s : State) : Out :=
  accessWord s (fun th => do
    th.aReady s.now s.cur.e.seq [a]
    th.aRoom d
    let p ← s.spChk th.task th.group th.c (aAddr th a 8 i pre) 8 8
    let s1 ← s.spWatch th 1 8 [p]
    let v ← s1.spLoad th p 8
    .ok (s1.modThread th.c th.t (fun x => (x.aPop [a]).aPut d (wd v) s.cur.e.seq)))

def execSts (d a : BitVec 5) (i : BitVec 13) (pre : Option (BitVec 29)) (s : State) : Out :=
  accessWord s (fun th => do
    th.aReady s.now s.cur.e.seq [a, d]
    let p ← s.spChk th.task th.group th.c (aAddr th a 8 i pre) 8 8
    let s1 ← s.spPost th 8 [p]
    .ok ((s1.modThread th.c th.t (fun x => x.aPop [a, d])).spStore th p 8 (th.aVal d).toNat))

def execLdv (d a : BitVec 5) (i : BitVec 13) (pre : Option (BitVec 29)) (s : State) : Out :=
  accessWord s (fun th => do
    th.aReady s.now s.cur.e.seq [a]
    th.lqRoom d
    let p ← s.spChk th.task th.group th.c (aAddr th a 8 i pre) 256 8
    let s1 ← s.spWatch th 1 256 [p]
    let v ← s1.spLoad th p 256
    .ok ((s1.modThread th.c th.t (fun x => x.aPop [a])).deliverLq th.c th.t d (BitVec.ofNat 2048 v)))

def execStv (a : BitVec 5) (i : BitVec 13) (pre : Option (BitVec 29)) (s : State) : Out :=
  accessWord s (fun th => do
    th.aReady s.now s.cur.e.seq [a]
    th.sqReady s.now
    let p ← s.spChk th.task th.group th.c (aAddr th a 8 i pre) 256 8
    let s1 ← s.spPost th 256 [p]
    .ok ((s1.modThread th.c th.t (fun x => (x.aPop [a]).sqPop)).spStore th p 256 (headVal 0 th.q.sq).toNat))

/-- Element bytes of a `.w` form (07 R192). -/
def wSize (w : BitVec 1) : Nat := if w = 0 then 4 else 8

/-- Addresses of a strided access (07 R197). -/
def strided (x st : Word) (n : Nat) : List Word := (List.range n).map (fun i => x + wd i * st)

/-- Loads elements, the first at the low bytes. -/
def State.spLoads (s : State) (th : Thread) (n : Nat) : List (Option (Group × Nat)) → Except Stop Nat
  | [] => .ok 0
  | none :: r => do
    let y ← s.spLoads th n r
    .ok (2 ^ (8 * n) * y)
  | some p :: r => do
    let x ← s.spLoad th p n
    let y ← s.spLoads th n r
    .ok (x + 2 ^ (8 * n) * y)

/-- Stores elements in ascending order. -/
def State.spStores (s : State) (th : Thread) (n : Nat) (v : Nat) : List (Option (Group × Nat)) → State
  | [] => s
  | none :: r => s.spStores th n (v / 2 ^ (8 * n)) r
  | some p :: r => (s.spStore th p n (v % 2 ^ (8 * n))).spStores th n (v / 2 ^ (8 * n)) r

def execLdvs (d a b : BitVec 5) (w : BitVec 1) (s : State) : Out :=
  accessWord s (fun th => do
    th.aReady s.now s.cur.e.seq [a, b]
    th.lqRoom d
    let n := wSize w
    let ps ← s.spAll th n n (strided (th.aVal a) (th.aVal b) (256 / n))
    let s1 ← s.spWatch th 1 n ps
    let v ← s1.spLoads th n (ps.map some)
    .ok ((s1.modThread th.c th.t (fun x => x.aPop [a, b])).deliverLq th.c th.t d (BitVec.ofNat 2048 v)))

def execStvs (a b : BitVec 5) (w : BitVec 1) (s : State) : Out :=
  accessWord s (fun th => do
    th.aReady s.now s.cur.e.seq [a, b]
    th.sqReady s.now
    let n := wSize w
    let ps ← s.spAll th n n (strided (th.aVal a) (th.aVal b) (256 / n))
    let s1 ← s.spPost th n ps
    .ok ((s1.modThread th.c th.t (fun x => (x.aPop [a, b]).sqPop)).spStores th n (headVal 0 th.q.sq).toNat (ps.map some)))

/-- Addresses of a gather or scatter through an index vector; none for a skipped element (07 R198). -/
def indexed (x : Word) (n : Nat) (v : Vec) : List (Option Word) :=
  (List.range (256 / n)).map (fun i =>
    let k := v.toNat / 2 ^ (32 * i) % 2 ^ 32
    if k = 2 ^ 32 - 1 then none else some (x + wd n * wd k))

/-- Checks the elements that are not skipped. -/
def State.spSome (s : State) (th : Thread) (n : Nat) : List (Option Word) → Except Stop (List (Option (Group × Nat)))
  | [] => .ok []
  | none :: r => do
    let q ← s.spSome th n r
    .ok (none :: q)
  | some x :: r => do
    let p ← s.spChk th.task th.group th.c x n n
    let q ← s.spSome th n r
    .ok (some p :: q)

def execLdg (d a : BitVec 5) (w : BitVec 1) (s : State) : Out :=
  accessWord s (fun th => do
    th.aReady s.now s.cur.e.seq [a]
    th.vaqReady s.now
    th.lqRoom d
    let n := wSize w
    let ps ← s.spSome th n (indexed (th.aVal a) n (headVal 0 th.q.vaq))
    let s1 ← s.spWatch th 1 n (ps.filterMap id)
    let v ← s1.spLoads th n ps
    .ok ((s1.modThread th.c th.t (fun x => (x.aPop [a]).vaqPop)).deliverLq th.c th.t d (BitVec.ofNat 2048 v)))

def execStg (a : BitVec 5) (w : BitVec 1) (s : State) : Out :=
  accessWord s (fun th => do
    th.aReady s.now s.cur.e.seq [a]
    th.vaqReady s.now
    th.sqReady s.now
    let n := wSize w
    let ps ← s.spSome th n (indexed (th.aVal a) n (headVal 0 th.q.vaq))
    let s1 ← s.spPost th n (ps.filterMap id)
    .ok ((s1.modThread th.c th.t (fun x => ((x.aPop [a]).vaqPop).sqPop)).spStores th n (headVal 0 th.q.sq).toNat ps))

/-! ### Tiles -/

/-- What a tile word finds: the group, the table entry's number and the entry, if it is registered (07 R185); a mark on the entry is consumed
(19 R467). -/
def State.tileOf (s : State) (th : Thread) (t : Nat) (val : Word) : Except Stop (Group × Nat × Option Tile) :=
  match s.groupOf? th with
  | none => .error (.wait none)
  | some g =>
    match g.tile? t with
    | none => .error (.trap 0x11 val)
    | some e =>
      let y := (s.core g.c).tiles.find e
      if y.any (·.mark) then .error (.consume 9 (dieOf g.c) (g.c % 32) (entryLoc e) (wd (entryLoc e)))
      else .ok (g, e, y)

/-- The tile, the window offset and the fault value of an LDT or STT (07 R199). Where the tile is unregistered and the offset is bad too, the
rule gives no order: TILESTATE comes first. Log entry 89, DESIGN CHOICE. -/
def State.tileAccess (s : State) (th : Thread) (x : Word) (o : Word) : Except Stop (Group × Tile × Nat × Word) :=
  let t := fld x 7 0
  let val := wd t <<< 32 + o
  if fld x 63 8 ≠ 0 then .error (.trap 0x11 val)
  else do
    let r ← s.tileOf th t val
    match r.2.2 with
    | none => .error (.trap 0x07 val)
    | some y =>
      if o.msb || decide (512 * y.size < o.toNat + 256) then .error (.trap 0x11 val)
      else .ok (r.1, y, o.toNat, val)

/-- Window offset of chunk `c` of an access at offset `o` of a tile (07 R199, R189). -/
def Tile.chunk (y : Tile) (o c : Nat) : Nat := y.lo + Machine.swz y.swz.toNat (o + 16 * c)

def execLdt (d a : BitVec 5) (i : BitVec 13) (pre : Option (BitVec 29)) (s : State) : Out :=
  accessWord s (fun th => do
    th.aReady s.now s.cur.e.seq [a]
    th.lqRoom d
    let (g, y, o, val) ← s.tileAccess th (th.aVal a) (16 * immS i pre)
    if y.st ≠ .ready then .error (.wait (some (.block val)))
    else
      let ps := (List.range 16).map (fun c => (g, y.chunk o c))
      let s1 ← s.spWatch th 1 16 ps
      let v ← s1.spLoads th 16 (ps.map some)
      .ok ((s1.modThread th.c th.t (fun x => x.aPop [a])).deliverLq th.c th.t d (BitVec.ofNat 2048 v)))

def execStt (a : BitVec 5) (i : BitVec 13) (pre : Option (BitVec 29)) (s : State) : Out :=
  accessWord s (fun th => do
    th.aReady s.now s.cur.e.seq [a]
    th.sqReady s.now
    let (g, y, o, val) ← s.tileAccess th (th.aVal a) (16 * immS i pre)
    if y.st = .filling || y.st = .draining then .error (.wait (some (.block val)))
    else
      let ps := (List.range 16).map (fun c => (g, y.chunk o c))
      let s1 ← s.spPost th 16 ps
      .ok ((s1.modThread th.c th.t (fun x => (x.aPop [a]).sqPop)).spStores th 16 (headVal 0 th.q.sq).toNat (ps.map some)))

/-- Fault value of a tile word (07 R200). -/
def tileVal (t : BitVec 8) : Word := wd (t.toNat * 2 ^ 32)

/-- TTREG (07 R200, R185). Bit 63 of the operand, which the layout of R185 gives as zero, with no outcome otherwise, is not
looked at. Log entry 89, DESIGN CHOICE. -/
def execTtreg (a : BitVec 5) (t : BitVec 8) (s : State) : Out :=
  accessWord s (fun th => do
    th.aReady s.now s.cur.e.seq [a]
    let w := th.aVal a
    let val := tileVal t
    let (g, e, old) ← s.tileOf th t.toNat val
    let base := fld w 11 0
    let size := fld w 24 12
    if 12 ≤ fld w 31 28 then .error (.trap 0x08 val)
    else if size = 0 || decide (4096 < size) || decide (g.bytes < 512 * (base + size)) ||
        g.inBarriers (512 * (base + size) - 1) then .error (.trap 0x11 val)
    else if old.isSome || (s.tilesOf g).any (fun p => decide (p.2.lo < 512 * (base + size)) && decide (512 * base < p.2.hi)) then
      .error (.trap 0x07 val)
    else
      let y : Tile := { base := base, size := size, ty := BitVec.ofNat 4 (fld w 31 28), swz := BitVec.ofNat 4 (fld w 35 32),
                        st := .empty }
      .ok ((s.modCore g.c (fun k => { k with tiles := k.tiles.set e y })).modThread th.c th.t (fun x => x.aPop [a])))

/-- A word on the state of a registered tile: a new entry, or a wait. -/
def tileWord (s : State) (t : BitVec 8) (f : Tile → Option (Option Tile)) : Out :=
  accessWord s (fun th => do
    let (g, e, y) ← s.tileOf th t.toNat (tileVal t)
    match y with
    | none => .error (.trap 0x07 (tileVal t))
    | some y =>
      match f y with
      | none => .error (.wait (some (.block (tileVal t))))
      | some (some z) => .ok (s.modCore g.c (fun k => { k with tiles := k.tiles.set e z }))
      | some none => .ok (s.dropTile g.c e))

def execTtrel (t : BitVec 8) (s : State) : Out :=
  tileWord s t (fun y => if y.st = .empty || y.st = .ready then some none else none)

def execTtstat (d : BitVec 5) (t : BitVec 8) (s : State) : Out :=
  accessWord s (fun th => do
    th.aRoom d
    let (_, _, y) ← s.tileOf th t.toNat (tileVal t)
    let w : Word := match y with
      | some y => y.word
      | none => 0
    .ok (s.setThread (th.aPut d w s.cur.e.seq)))

def execTready (t : BitVec 8) (s : State) : Out :=
  tileWord s t (fun y => if y.st = .empty || y.st = .ready then some (some { y with st := .ready }) else none)

def execTempty (t : BitVec 8) (s : State) : Out :=
  tileWord s t (fun y => if y.st = .empty || y.st = .ready then some (some { y with st := .empty }) else none)

def execTwait (sc : BitVec 2) (t : BitVec 8) (s : State) : Out :=
  tileWord s t (fun y => if y.st.code = sc.toNat then some (some y) else none)

end Sys2Proof.Machine
end

