-- ==== Sys2Proof/Machine/Life.lean ====
section
/-!
DEFINITION. The ends of leases, groups and tasks: the return of a lease of strips (14 R357, R358), inbound bindings (20 R490),
the end of a group (07 R191), dependence (17 R434) and the release of a task (10 R262, 17 R436).
-/

namespace Sys2Proof.Machine

/-! ### Leases of strips -/

/-- The strips of a mask, in ascending order. -/
def maskStrips (m : BitVec 8) : List Nat := (List.range 8).filter (fun i => m.getLsbD i)

/-- The lowest strip of a mask, 0 for none. -/
def lowStrip (m : BitVec 8) : Nat := (maskStrips m).headD 0

/-- The strip mask of a placement. -/
def stripMask (l : List Nat) : BitVec 8 := BitVec.ofNat 8 (l.foldl (fun n i => n + 2 ^ i) 0)

/-- The strips of the fragment that a strip of a group's lease belongs to: itself in independent mode, the whole lease in the
others (14 R350, R359). -/
def Group.fragment (g : Group) (strip : Nat) : List Nat := if g.mode = 0 then [strip] else maskStrips g.mask

/-- The strip whose sequencer drives a strip's fragment (14 R350). -/
def Group.driver (g : Group) (strip : Nat) : Nat := if g.mode = 0 then strip else lowStrip g.mask

/-- A sequencer is idle: no word queued, no nest, drain or reduction in progress (14 R357). -/
def Strip.idle (x : Strip) : Bool := x.q.isEmpty && x.run.isNone && x.drain.isNone && x.amax.isNone

/-- The group's lease returns (14 R358): its strips are returning, and the group holds none. -/
def State.returnLease (s : State) (g : Group) : State :=
  if g.mask = 0 then s
  else
    let s1 := (maskStrips g.mask).foldl (fun s' n => s'.modStrip (dieOf g.c) n (fun x => { x with st := .returning })) s
    s1.modGroup g.task g.j (fun g => { g with lease := 0, mask := 0, shape := 0, lq := 0, mode := 0, flt := 0 })

/-! ### Inbound bindings -/

/-- Unbinds the group's inbound entry (20 R489, R490). -/
def State.unbind (s : State) (g : Group) : State :=
  if bit g.rxw 63 then
    let m := fld g.rxw 51 40
    (s.setReg (.fgi m) (s.reg (.fgi m) &&& ~~~(1#64 <<< 62))).modGroup g.task g.j (fun g =>
      { g with rxw := g.rxw &&& ~~~(1#64 <<< 63) })
  else s

/-- A write of `rxw` by a thread of service `svc` in a group (20 R490). -/
def State.bindRxw (s : State) (svc : Nat) (g : Group) (v : Word) : State :=
  let x := v &&& 0x800FFF1FFFE0FFFF
  let s1 := s.unbind g
  let m := fld x 51 40
  let r := s1.reg (.fgi m)
  let lo := fld x 36 16
  let hi := lo + 32 * (fld x 15 0 + 1)
  if bit x 63 && bit r 63 && !bit r 62 && fld r 53 48 == svc && decide (hi ≤ g.bytes) && !g.inBarriers (hi - 1) then
    (s1.setReg (.fgi m) (r ||| 1#64 <<< 62)).modGroup g.task g.j (fun g => { g with rxw := x })
  else s1.modGroup g.task g.j (fun g => { g with rxw := x &&& ~~~(1#64 <<< 63) })

/-! ### The end of a group -/

/-- The object indices of a window. -/
def Group.ownsObj (g : Group) (o : Nat) : Bool := decide (32 * g.base ≤ o) && decide (o < 32 * (g.base + g.size))

/-- An object other than those of a window. -/
def Group.spares (g : Group) (o : Nat × Nat) : Bool := !(o.1 == g.c && g.ownsObj o.2)

/-- A run counts at, and poisons, the objects of a freed window no longer. -/
def Run.spare (r : Run) (g : Group) : Run :=
  { r with left := r.left.map (fun x => { x with obj := x.obj.filter g.spares }), objs := r.objs.filter g.spares }

/-- A strip reports to the objects of a freed window no longer. -/
def Strip.spare (x : Strip) (g : Group) : Strip :=
  { x with compl := x.compl.filter g.spares, drain := x.drain.map (·.spare g)
           run := x.run.map (fun r => { r with obj := r.obj.filter g.spares }) }

/-- The window of a group is freed, its objects with it: no registration at them stays, and no engine counts at them; a remote store on its
way to it is lost (07 R191, 08 R208). -/
def State.freeWindow (s : State) (g : Group) : State :=
  { s with
    groups := s.groups.filter (fun x => !(x.task == g.task && x.j == g.j))
    threads := s.threads.map (fun th =>
      { th with remote := th.remote.filter (fun k => g.spares (k / 1024, k % 1024)), inh := th.inh.filter (fun p => g.spares (p.1 / 1024, p.1 % 1024)) })
    cores := s.cores.map (fun p => (p.1, { p.2 with chans := p.2.chans.map (fun q => (q.1, { q.2 with run := q.2.run.map (·.spare g) })) }))
    dies := s.dies.map (fun p => (p.1, { p.2 with strips := p.2.strips.map (fun q => (q.1, q.2.spare g)) }))
    drops := (s.drops.map (fun x => { x with objs := x.objs.filter g.spares })).filter (fun x => !x.objs.isEmpty)
    mesh := s.mesh.filter (fun m => match m.what with
      | .store c o _ _ => !(c == g.c && decide (65536 * g.base ≤ o) && decide (o < 65536 * g.base + g.bytes))
      | .yword _ => true) }

/-- The last thread of a group has gone: the lease returns, the binding ends, empty and ready tiles are unregistered; the
window goes once no entry remains (14 R358, 20 R490, 07 R191). The core writes back its dirty sectors. -/
def State.endGroup (s : State) (g : Group) : State :=
  let s1 := ((s.returnLease g).unbind g).releaseAt g.c 6 (s.svcVc ((s.task? g.task).elim 0 (·.svc)))
  let s2 := s1.modCore g.c (fun k => { k with tiles := k.tiles.filter (fun p =>
    !(decide (8 * g.tbase ≤ p.1) && decide (p.1 < 8 * (g.tbase + g.tcnt)) && (p.2.st == .empty || p.2.st == .ready))) })
  if (s2.tilesOf g).isEmpty then s2.freeWindow g
  else s2.modGroup g.task g.j (fun g => { g with ended := true })

/-- An engine has done with a table entry: an entry of a group that has ended is unregistered, and the window of a group without
entries is freed (07 R191). -/
def State.reapTile (s : State) (c e : Nat) : State :=
  match s.groups.find? (fun g => g.c == c && g.ended && decide (8 * g.tbase ≤ e) && decide (e < 8 * (g.tbase + g.tcnt))) with
  | none => s
  | some g =>
    let s1 := s.dropTile c e
    if (s1.tilesOf g).isEmpty then s1.freeWindow g else s1

/-! ### Dependence -/

/-- Two boxes touch a common tile of a tensor (17 R434, 10 R261). -/
def Range.meets (a b : Range) (d : Desc) : Bool :=
  a.tid == b.tid && (List.range d.rank).all (fun j =>
    let t := 2 ^ d.tlg.getD j 0
    let f (r : Range) : Nat × Nat := (r.lo.getD j 0 / t, (r.hi.getD j 0 + t - 1) / t)
    decide ((f a).1 < (f b).2) && decide ((f b).1 < (f a).2))

/-- A range of one task creates a dependence on a range of another (17 R434). -/
def conflict (same : Bool) (a b : Range) : Bool :=
  !((a.mode == 0 && b.mode == 0) || (a.mode == 3 && b.mode == 3 && a.op == b.op) || (a.isOpen && b.isOpen && same))

/-- Task `a`, when it is accepted, depends on task `b`, accepted before it (17 R434). -/
def State.dependsOn (s : State) (a b : Task) : Bool :=
  a.svc == b.svc && decide (b.id < a.id) && a.ranges.any (fun x => b.ranges.any (fun y =>
    conflict (a.launch == b.launch) x y && (match s.desc? a.svc x.tid with
      | some d => x.meets y d
      | none => x.tid == y.tid)))

/-- Waiting tasks whose dependences have been released become ready (17 Table 17.3). -/
def State.wake (s : State) : State :=
  { s with tasks := s.tasks.map (fun k =>
      if k.st == .waiting && !s.tasks.any (fun u => k.deps.contains u.id) then { k with st := .ready } else k) }

/-! ### The release of a task -/

/-- Adds to the lease count of a tile (10 R260, R262). -/
def State.addLc (s : State) (svc tid idx : Nat) (n : Int) : State :=
  match s.desc? svc tid with
  | none => s
  | some d =>
    let w := s.stateWord d idx
    s.setStateWord d idx (w &&& ~~~0x1FFF#64 ||| wd (((fld w 12 0 : Int) + n).toNat % 2 ^ 13))

/-- The task's hold on its tiles ends: each lease count falls by the ranges that held the tile, and handles of peer tiles go
back (10 R262, 20 R484). -/
def State.dropHeld (s : State) (k : Task) : State :=
  let s1 := k.held.foldl (fun s' h =>
    let z := s'.addLc k.svc h.tid h.idx (-(h.count : Int))
    match h.handle with
    | some n => { z with peerOut := z.peerOut ++ [.release (fld h.frame 47 38) n] }
    | none => z) s
  s1.modTask k.id (fun k => { k with held := [], ranges := [] })

/-- A task is released: its ranges leave the table, its lines are recorded `.grp` again, its save slot is freed, and tasks that
waited for it may become ready (10 R262, 17 R434, R436, R441). -/
def State.releaseTask (s : State) (id : Nat) : State :=
  match s.task? id with
  | none => s
  | some k =>
    let s1 := ((s.dropHeld k).l1Demote id).modSvc k.svc (fun v => { v with saves := v.saves.filter (· ≠ id) })
    { s1 with tasks := s1.tasks.filter (fun x => x.id ≠ id) }.wake

/-- The last thread of a gang has ended: the task clears if guarded, and is released otherwise (17 Table 17.3, 01 R19). The leave of its
start is settled (18 R453). -/
def State.endTask (s : State) (id : Nat) : State :=
  match s.task? id with
  | none => s
  | some k =>
    let s1 := s.settle k.die k.leave
    if k.guarded then s1.modTask id (fun k => { k with st := .clearing, leave := 0 }) else s1.releaseTask id

/-- A thread has left its group by EXIT: the group ends with its last thread, and the task with the gang's (01 R19). -/
def State.afterExit (s : State) (task j : Nat) : State :=
  match s.group? task j with
  | none => s
  | some g =>
    if g.live ≠ 0 then s
    else
      let s1 := s.endGroup g
      if s1.threads.any (·.task == task) || s1.groups.any (fun x => x.task == task && decide (0 < x.live)) then s1
      else s1.endTask task

end Sys2Proof.Machine
end

