-- ==== Sys2Proof/Machine/System.lean ====
section
/-!
DEFINITION. The K words: traps and the return from one (16 R422, R423), the CSRs (16 R424, R425), thread control (04
R116-R121), SPAWN (17 R443-R445), the lease of strips (14 R366-R368), leave (18 R454), MARK (21 R501), CAPR (22 R519), LEXT (10
R267), FENCEI (02 R55) and HALT (16 R426). Each takes effect at the horizon (05 R147).
-/

namespace Sys2Proof.Machine

/-! ### CSRs -/

/-- `prio` (04 R110). -/
def State.prioCsr (s : State) (th : Thread) : Word :=
  wd (s.inherited th * 2 ^ 8 + s.ceiling th.svc * 2 ^ 4 + s.eff th * 2 ^ 2 + th.own)

/-- `race` (09 R252). -/
def State.raceCsr (s : State) (th : Thread) : Word :=
  let ph := match s.task? th.task with
    | some k => s.gph k
    | none => 0
  wd (b2n th.race.en * 2 ^ 39 + b2n th.race.cmpl * 2 ^ 38 + ph * 2 ^ 26 + th.widx * 2 ^ 16 + th.race.rcnt)

/-- `flease` (14 R369). -/
def Group.leaseCsr (g : Group) : Word :=
  wd (g.lost.toNat * 2 ^ 32 + g.flt.toNat * 2 ^ 24 + b2n g.pend * 2 ^ 16 + g.mode.toNat * 2 ^ 14 + g.shape.toNat * 2 ^ 12 +
    g.lq.toNat * 2 ^ 8 + g.mask.toNat)

/-- `forig` (14 R369): the origin of each fragment, at its lowest strip. -/
def State.forigCsr (s : State) (g : Group) : Word :=
  wd ((maskStrips g.mask).foldl (fun n i =>
    if g.driver i = i then n + (s.strip (dieOf g.c) i).origin * 2 ^ (8 * i) else n) 0)

/-- The registers of a trap level (16 R411), by order cause, epc, val, stat. -/
def TrapRegs.csr (r : TrapRegs) : Nat → Word
  | 0 => r.cause.setWidth 64
  | 1 => r.epc
  | 2 => r.val
  | _ => r.stat

/-- The value of a CSR (16 R425). An address that is not assigned is ILLEGAL at decode. -/
def State.csr (s : State) (th : Thread) (c : BitVec 12) : Word :=
  let g (f : Group → Word) : Word := match s.groupOf? th with
    | some x => f x
    | none => 0
  match c.toNat with
  | 0x010 => th.wid
  | 0x011 => th.widw
  | 0x012 => wd (s.here th)
  | 0x013 => s.prioCsr th
  | 0x014 => g (fun x => wd (x.tcnt * 2 ^ 18 + x.tbase % 32 * 2 ^ 13 + x.size * 2 ^ 5 + x.base % 32))
  | 0x015 => th.csr.waitLimit.setWidth 64
  | 0x016 => s.raceCsr th
  | 0x017 => wd (s.svc th.svc).escLimit
  | 0x018 => th.csr.cerr
  | 0x019 => wd (s.rmax th.svc)
  | 0x01A => g Group.leaseCsr
  | 0x01B => g s.forigCsr
  | 0x01C => g (·.mferr)
  | 0x01D => wd (th.csr.spawnDepth * 16) ||| th.csr.spawnMax.setWidth 64
  | 0x01E => match s.task? th.task with
    | some k => wd (k.queue * 2 ^ 36 + k.run * 2 ^ 32 + k.seq.toNat)
    | none => 0
  | 0x01F => g (·.rxw)
  | 0x020 => th.csr.frm.setWidth 64
  | 0x021 => th.csr.fflags.setWidth 64
  | 0x022 => th.csr.srnd
  | 0x030 => th.csr.paceV.setWidth 64
  | 0x031 => th.csr.paceA.setWidth 64
  | 0x032 => th.csr.paceM.setWidth 64
  | 0x033 => th.csr.paceC.setWidth 64
  | 0x034 => th.csr.leave.setWidth 64
  | 0x035 => th.csr.ntf
  | 0x048 => th.trap.vec1
  | 0x049 => th.trap.vec2
  | 0x04A => wd th.trap.level
  | 0x050 => th.csr.trc.setWidth 64
  | 0x051 => th.csr.trcLost.setWidth 64
  | 0x052 => th.csr.corr.setWidth 64
  | 0x058 => th.csr.recd
  | n =>
    if 0x040 ≤ n && n < 0x044 then th.trap.r1.csr (n - 0x040)
    else if 0x044 ≤ n && n < 0x048 then th.trap.r2.csr (n - 0x044)
    else if 0x053 ≤ n && n < 0x057 then th.csr.wpt.get 0 (n - 0x053)
    else 0

/-- What a write stores in a register of a trap level (16 R411). -/
def TrapRegs.put (r : TrapRegs) (i : Nat) (v : Word) : TrapRegs :=
  match i with
  | 0 => { r with cause := v.setWidth 6 }
  | 1 => { r with epc := v &&& ~~~3#64 }
  | 2 => { r with val := v }
  | _ => r

/-- A write of `ntf` by a thread: with `ntf.en` set it becomes the service's notification thread, if the word lies in its
window outside every tile and the barrier region (18 R456). -/
def State.writeNtf (s : State) (th : Thread) (v : Word) : State :=
  let o := fld v 20 3 * 8
  let ok := match s.groupOf? th with
    | some g => !g.outside (o + 7) && !(s.tilesOf g).any (fun p => decide (p.2.lo < o + 8) && decide (o < p.2.hi))
    | none => false
  let clear (x : Thread) : Thread :=
    if x.svc = th.svc then { x with csr := { x.csr with ntf := x.csr.ntf &&& 0x7FFFFFFFFFFFFFFF } } else x
  if bit v 63 && ok then
    let saved (z : Saved) : Saved := { z with threads := z.threads.map clear }
    let s1 := { s with threads := s.threads.map clear, tasks := s.tasks.map (fun (k : Task) => { k with saved := k.saved.map saved }) }
    (s1.modSvc th.svc (fun v => { v with latest := none })).modThread th.c th.t (fun x => { x with csr := { x.csr with ntf := wd (2 ^ 63 + o) } })
  else s.modThread th.c th.t (fun x => { x with csr := { x.csr with ntf := wd o } })

/-- A write of a CSR: `v` is the value for its RW fields, and `m` the bits of W1C fields that it clears (16 R424). -/
def State.csrPut (s : State) (th : Thread) (c : BitVec 12) (v m : Word) : State :=
  let up (f : Csrs → Csrs) : State := s.modThread th.c th.t (fun x => { x with csr := f x.csr })
  let trap (f : TrapState → TrapState) : State := s.modThread th.c th.t (fun x => { x with trap := f x.trap })
  match c.toNat with
  | 0x015 => up (fun x => { x with waitLimit := v.setWidth 32 })
  | 0x016 => s.modThread th.c th.t (fun x => { x with race := { x.race with en := bit v 39 } })
  | 0x017 => s.modSvc th.svc (fun x => { x with escLimit := max 1 (min 4096 (fld v 12 0)) })
  | 0x018 => up (fun x => { x with cerr := x.cerr &&& ~~~(m &&& 0x8000) })
  | 0x01C => s.modGroup th.task th.group (fun g => { g with mferr := g.mferr &&& ~~~(m &&& 0x8000) })
  | 0x01D => up (fun x => { x with spawnMax := BitVec.ofNat 4 (min 8 (fld v 3 0)) })
  | 0x01F => match s.groupOf? th with
    | some g => s.bindRxw th.svc g v
    | none => s
  | 0x020 => up (fun x => { x with frm := v.setWidth 2 })
  | 0x021 => up (fun x => { x with fflags := v.setWidth 6 })
  | 0x022 => up (fun x => { x with srnd := if v = 0 then 1 else v })
  | 0x030 => up (fun x => { x with paceV := v.setWidth 16 })
  | 0x031 => up (fun x => { x with paceA := v.setWidth 16 })
  | 0x032 => up (fun x => { x with paceM := v.setWidth 16 })
  | 0x033 => up (fun x => { x with paceC := v.setWidth 16 })
  | 0x035 => s.writeNtf th v
  | 0x048 => trap (fun x => { x with vec1 := v &&& ~~~3#64 })
  | 0x049 => trap (fun x => { x with vec2 := v &&& ~~~3#64 })
  | 0x050 => up (fun x => { x with trc := x.trc &&& 0x40#7 ||| v.setWidth 7 &&& 0x3F#7 })
  | 0x052 => up (fun x => { x with corr := v.setWidth 32 })
  | 0x058 => up (fun x => { x with
      recd := x.recd &&& ~~~3#64 &&& ~~~(m &&& 0x800000000000#64) ||| (if fld v 1 0 = 3 then 0 else v &&& 3#64) })
  | n =>
    if 0x040 ≤ n && n < 0x044 then trap (fun x => { x with r1 := x.r1.put (n - 0x040) v })
    else if 0x044 ≤ n && n < 0x048 then trap (fun x => { x with r2 := x.r2.put (n - 0x044) v })
    else if 0x053 ≤ n && n < 0x057 then
      let w := v &&& 0xFFFFFFFFFFFFFFE0
      up (fun x => { x with wpt := x.wpt.set (n - 0x053) (if fld w 63 62 = 3 then w &&& 0x3FFFFFFFFFFFFFFF else w) })
    else s

/-- What a read clears: `trc.lost.n` and `flease.lost` (21 R496, 14 R369). -/
def State.csrTake (s : State) (th : Thread) (c : BitVec 12) : State :=
  if c = 0x051 then s.modThread th.c th.t (fun x => { x with csr := { x.csr with trcLost := 0 } })
  else if c = 0x01A then s.modGroup th.task th.group (fun g => { g with lost := 0 })
  else s

/-- The CSRs whose reads by CSRR are recorded (21 R506). Log entry 41, DEDUCED. -/
def csrRecorded (c : BitVec 12) : Bool := [0x012#12, 0x01A, 0x01C, 0x018, 0x021, 0x034].contains c

/-- `fflags` and `srnd` wait until every older V word has landed (03 R78, R80; 04 R113, Table 4.4). -/
def Thread.csrWaits (th : Thread) (c : BitVec 12) : Bool :=
  (c == 0x021 || c == 0x022) && !(th.xq.isEmpty && th.land.isEmpty)

/-- A CSR word: `d` takes the value read when `reads`; `put` gives the value written and the W1C bits cleared, from the value read
and the source's (16 R424). -/
def opCsr (s : State) (d a : BitVec 5) (c : BitVec 12) (reads : Bool) (put : Option (Word → Word → Word × Word)) : Out :=
  kWord s (fun th => do
    th.sReady s.now [a]
    if th.csrWaits c then .error .drain
    else
      th.sRoom d
      let old := s.csr th c
      let s0 ← if reads && put.isNone && csrRecorded c then s.record th.c th.t th.seq th.csr.corr old else .ok s
      let th0 := (s0.thread? th.c th.t).getD th
      let th1 := (th0.sPop [a]).sPut d old
      let s1 := s0.setThread th1
      let s2 := if reads then s1.csrTake th c else s1
      .ok (match put with
        | some f => let r := f old (th.sVal a); s2.csrPut th1 c r.1 r.2
        | none => s2, none))

def execCsrr (d : BitVec 5) (c : BitVec 12) (s : State) : Out := opCsr s d 0 c true none
def execCsrw (a : BitVec 5) (c : BitVec 12) (s : State) : Out := opCsr s 0 a c false (some (fun _ x => (x, x)))
def execCsrx (d a : BitVec 5) (c : BitVec 12) (s : State) : Out := opCsr s d a c true (some (fun _ x => (x, x)))
def execCsrs (d a : BitVec 5) (c : BitVec 12) (s : State) : Out := opCsr s d a c true (some (fun o x => (o ||| x, x)))
def execCsrc (d a : BitVec 5) (c : BitVec 12) (s : State) : Out := opCsr s d a c true (some (fun o x => (o &&& ~~~x, 0)))

/-! ### Traps by instruction -/

/-- TRAP raises SOFTTRAP at itself (16 R422). -/
def execTrap (i : BitVec 13) (s : State) : Out := kWord s (fun _ => .error (.trap 0x0E (i.setWidth 64)))

/-- BRK raises BREAK at itself, or stops the thread for the debug interface while `trc.dbg` is set (16 R422, 21 R505).
Log entry 27, DEDUCED. -/
def execBrk (i : BitVec 13) (s : State) : Out :=
  kWord s (fun th =>
    if th.csr.trc.getLsbD 6 then
      .ok (s.setThread { th with issue := { th.issue with stopReq := 2, stopSeq := th.seq } }, none)
    else .error (.trap 0x0F (i.setWidth 64)))

/-- RFT returns from the level at which the thread runs (16 R423). -/
def execRft (s : State) : Out :=
  match s.thread? s.cur.c s.cur.t with
  | none => .fault .noThread
  | some th =>
    if !th.atHorizon th.seq then .next (s.noteWait .front th none)
    else if th.trap.level = 0 then .next (s.frontTrap th s.cur.e 0x01 s.cur.e.wordVal)
    else if !(th.xq.isEmpty && th.land.isEmpty) then .next (s.drainWait th)
    else
      let r := if th.trap.level = 1 then th.trap.r1 else th.trap.r2
      let th1 := th.leaveTrap
      let th2 := { th1 with race := { th1.race with
        exempt := if r.cause = 0 then some (th.seq + 1) else none } }
      .next ((s.setThread th2).frontDone th2 s.cur.e (some r.epc))

/-- HALT stops a thread of a privileged service for the debug interface; in any other it takes PRIVILEGED (16 R426). -/
def execHalt (s : State) : Out :=
  kWord s (fun th =>
    if s.privileged th.svc then .ok (s.setThread { th with issue := { th.issue with stopReq := 1, stopSeq := th.seq } }, none)
    else .error (.trap 0x02 0))

/-! ### Thread control -/

/-- A load of the thread has reserved an entry and not been delivered (04 R101). -/
def Thread.undelivered (th : Thread) : Bool := (th.q.lq0 ++ th.q.lq1).any (fun e => !e.full)

/-- M and C words of the thread in their queues, and in progress on a channel or fragment (04 R117, R119). -/
def State.queuedOf (s : State) (th : Thread) : Bool :=
  (s.core th.c).chans.any (fun p => p.2.q.any (·.ofThread th)) ||
    (s.die (dieOf th.c)).strips.any (fun p => p.2.q.any (·.ofThread th))

def State.runningOf (s : State) (th : Thread) : Bool :=
  (s.core th.c).chans.any (fun p => p.2.run.any (·.e.ofThread th)) ||
    (s.die (dieOf th.c)).strips.any (fun p => p.2.run.any (·.e.ofThread th) || p.2.drain.any (·.e.ofThread th))

/-- EXIT (04 R117, 17 R445): inside an inline call it returns; else the thread ends once its older work is complete, with its
implicit drops at `.gang` (08 R210), and its reserve goes back (18 R454). What the banks of levels below a handler hold goes with it.
Log entry 80, DESIGN CHOICE. -/
def execExit (s : State) : Out :=
  kHold s none (fun th =>
    if 0 < th.csr.spawnDepth then
      .ok (s.setThread { th with inl := th.inl.tail, csr := { th.csr with spawnDepth := th.csr.spawnDepth - 1 } },
        some (some (th.inl.headD 0)))
    else if !(th.xq.isEmpty && th.land.isEmpty) then .error .drain
    else do
      s.quiet th 5
      if th.undelivered || s.queuedOf th || s.runningOf th then .error (.wait none)
      else
        let scope := th.relScope 1
        let s0 := s.releaseAt th.c scope (s.vcOf th)
        if s0.writingBack th.c then .ok (s0, none)
        else
          let s1 := s0.dropAll th
          let s2 := (s1.dropThread th.c th.t).credit th.svc th.csr.leave.toNat
          .ok ((s2.modGroup th.task th.group (fun g => { g with live := g.live - 1 })).afterExit th.task th.group, some none))

/-- YIELD marks the thread as having issued in this cycle on all three stages (04 R118). -/
def execYield (s : State) : Out :=
  kWord s (fun th => .ok (s.setThread { th with issue := { th.issue with
    lastF := s.now + 1, lastV := s.now + 1, lastA := s.now + 1 } }, none))

/-- SLEEP stops the front from fetching for min(S[a] + imm, 2^40) cycles (04 R120). -/
def execSleep (a : BitVec 5) (i : BitVec 13) (s : State) : Out :=
  kWord s (fun th => do
    th.sReady s.now [a]
    let n := min ((th.sVal a).toNat + i.toNat) (2 ^ 40)
    let th1 := th.sPop [a]
    .ok (s.setThread (if n = 0 then th1 else { th1 with issue := { th1.issue with sleepEnd := some (s.now + n) } }), none))

/-- PRIO sets the thread's own class, at most the ceiling, and returns the old one (04 R121). -/
def execPrio (d a : BitVec 5) (i : BitVec 13) (s : State) : Out :=
  kWord s (fun th => do
    th.sReady s.now [a]
    th.sRoom d
    let th1 := (th.sPop [a]).sPut d (wd th.own)
    .ok (s.setThread { th1 with own := min ((th.sVal a).toNat + i.toNat) (s.ceiling th.svc) }, none))

/-- ESYNC holds the front until older words have issued, landed, completed and left their queue heads (04 R119). -/
def execEsync (s : State) : Out :=
  kWord s (fun th =>
    if !(th.xq.isEmpty && th.land.isEmpty) then .error .drain
    else do
      s.quiet th 5
      if th.undelivered || s.queuedOf th then .error (.wait none) else .ok (s, none))

/-- FENCEI (02 R55): the thread's own stores come before its later fetches: the core's dirty sectors are written back and the thread's posted
stores awaited, and the core's instruction cache is emptied. -/
def execFencei (s : State) : Out :=
  kHold s none (fun th =>
    if s.posted th 5 then .error (.wait none)
    else
      let s1 := s.releaseAt th.c 5 (s.vcOf th)
      if s1.writingBack th.c then .ok (s1, none) else .ok (s1.modCore th.c (fun k => { k with icache := [] }), some none))

/-! ### SPAWN -/

/-- The record describes one gang of one group of one thread, with every extent 1, no lease and no ranges, in the spawner's code
tensor (17 R445). -/
def inlineOk (h : List Word) (code : Nat) : Bool :=
  let w (i : Nat) : Word := h.getD i 0
  fld (w 0) 23 19 == 0 && !bit (w 0) 11 && fld (w 1) 38 36 == 0 && fld (w 1) 43 39 == 0 && w 2 == 0 && w 3 == 0 &&
    fld (w 4) 11 0 == code

/-- Loads s1 to s6 with a record's arguments (17 R439, R445). -/
def Thread.loadArgs (th : Thread) (h : List Word) : Thread :=
  { th with f := (List.range 6).foldl (fun f i => { f.fresh (i + 1) with s := f.s.set (i + 1) (h.getD (10 + i) 0) }) th.f }

/-- A check of SPAWN's record, whose traps report the record's address (17 R443). -/
def trapAt {α : Type} (x : Word) : Except Stop α → Except Stop α
  | .error (.trap c _) => .error (.trap c x)
  | r => r

/-- SPAWN enqueues a launch record from the scratchpad (17 R443-R445): once it waits for a full queue, only that holds it. Log entry 40,
DEDUCED. -/
def execSpawn (d a b : BitVec 5) (s : State) : Out :=
  let x := match s.thread? s.cur.c s.cur.t with
    | some th => th.sVal a
    | none => 0
  kHold s (some (.block x)) (fun th => do
    th.sReady s.now [a, b]
    th.sRoom d
    let qw := th.sVal b
    if fld qw 63 4 ≠ 0 then .error (.trap 0x11 qw)
    else
      let waiting := th.issue.waitF.any (fun w => w.why == some (.block x))
      let chk (n : Nat) : Except Stop (Group × Nat) :=
        match waiting, s.refGroup th.task th.group th.c x with
        | true, some g => .ok (g, fld x 20 0)
        | _, _ => trapAt x (s.spChk th.task th.group th.c x n 64)
      let p ← chk 128
      s.spClean p.1.c (p.1.phys p.2) 128
      let m := (s.core p.1.c).sp
      let h := m.words (p.1.phys p.2) 16
      let r := fld (h.getD 0 0) 23 19
      let ret (s1 : State) (v : Word) : Except Stop (State × Option (Option Word)) := do
        let s2 ← s1.record th.c th.t th.seq th.csr.corr v
        .ok ((s2.modThread th.c th.t (fun y => (y.sPop [a, b]).sPut d v)), some none)
      if 16 < r then ret s 3
      else
        let _ ← chk (128 + 64 * r)
        let q := qw.toNat
        let base := s.reg (.lnqBase th.svc q)
        let ctl := s.reg (.lnqCtl th.svc q)
        let lg := fld base 3 0
        if !waiting && (lg = 0 || !bit ctl 63 || !bit ctl 62) then ret s 3
        else if s.lnqDepth th.svc q = 2 ^ lg then
          let code := match s.task? th.task with
            | some k => k.code
            | none => 4096
          if !waiting && s.svcMode th.svc ≠ 0 && inlineOk h code && decide (th.csr.spawnDepth < th.csr.spawnMax.toNat) then do
            let s1 ← s.record th.c th.t th.seq th.csr.corr 1
            .ok (s1.modThread th.c th.t (fun y =>
              let y1 := ((y.sPop [a, b]).sPut d 1).loadArgs h
              { y1 with inl := s.cur.e.after :: y1.inl, csr := { y1.csr with spawnDepth := y1.csr.spawnDepth + 1 } }),
              some (some (wd (fld (h.getD 4 0) 63 16))))
          else do
            s.quiet th 3
            .ok (s.setLnq th.svc q { s.lnqHead th.svc q with raised := true }, none)
        else do
          s.quiet th 3
          s.spClean p.1.c (p.1.phys p.2) (128 + 64 * r)
          let s0 := (s.useBanks p.1.c (if p.1.c = th.c then th.t else 13) (wordsOf (p.1.phys p.2) (128 + 64 * r))).releaseAt th.c 3 (s.vcOf th)
          if s0.writingBack th.c then .ok (s0, none)
          else
          let s1 := s0.raceCount th
          let tail := s.lnqTailN th.svc q
          let at_ := fld base 51 12 * 4096 + 2048 * (tail % 2 ^ lg)
          let bytes := m.getN (p.1.phys p.2) (128 + 64 * r)
          let mem1 := s1.mem.putN at_ (128 + 64 * r) bytes
          let mem2 := mem1.putWord (at_ + 72) (h.getD 9 0 &&& ~~~(0xFFFF#64 <<< 32))
          ret ((s1.wrote at_ (128 + 64 * r) mem2).setReg (.lnqTail th.svc q) (wd ((tail + 1) % 65536))) 0)

/-! ### The lease of strips -/

/-- Strips of a shape (14 Table 14.1). -/
def shapeSize (n : Nat) : Nat := 2 ^ n

/-- A request of this thread waits at the teller. -/
def State.asking (s : State) (th : Thread) : Bool :=
  let d := s.die (dieOf th.c)
  (d.tq ++ d.enter).any (fun p => p.2.any (fun r => !r.start && r.task == th.task && r.group == th.group && r.t == th.t))

/-- A thread's front has made a request, once where `t` says so. -/
def State.setOnce (s : State) (th : Thread) (t : BitVec 1) (kind : Nat) : State :=
  s.modThread th.c th.t (fun x => { x with issue := { x.issue with once := if t = 1 then kind else 0 } })

/-- FLEASE (14 R367). -/
def execFlease (d : BitVec 5) (t : BitVec 1) (q sh : BitVec 2) (s : State) : Out :=
  let imm := wd (sh.toNat + 4 * q.toNat + 16 * t.toNat)
  kHold s (some (.block imm)) (fun th => do
    th.sRoom d
    let ret (s1 : State) (v : Word) : Except Stop (State × Option (Option Word)) := do
      let s2 ← s1.record th.c th.t th.seq th.csr.corr v
      .ok (s2.modThread th.c th.t (fun y =>
        let y1 := y.sPut d v
        { y1 with issue := { y1.issue with got := none, once := 0 } }), some none)
    match th.issue.got with
    | some m => ret s (wd (sh.toNat * 2 ^ 8 + m))
    | none =>
      if th.issue.once = 3 then ret s (1#64 <<< 62)
      else if s.asking th then
        if t = 1 then ret (s.withdraw th) (1#64 <<< 62) else .ok (s, none)
      else match s.groupOf? th with
        | none => .error (.wait none)
        | some g =>
          if g.mask ≠ 0 || g.pend then ret s (2#64 <<< 62)
          else
            let r : TReq := { task := th.task, group := th.group, shape := sh.toNat, start := false, t := th.t }
            let s1 := s.modDie (dieOf th.c) (fun x =>
              if (x.tq.get [] q.toNat).length < 64 && (x.enter.get [] q.toNat).isEmpty then
                { x with tq := x.tq.set q.toNat (x.tq.get [] q.toNat ++ [r]) }
              else { x with enter := x.enter.set q.toNat (x.enter.get [] q.toNat ++ [r]) })
            .ok ((s1.modGroup th.task th.group (fun g => { g with pend := true })).setOnce th t 1, none))

/-- FRET gives the strip mask of the group's lease and starts its return (14 R368). -/
def execFret (d : BitVec 5) (s : State) : Out :=
  kWord s (fun th => do
    th.sRoom d
    let m := match s.groupOf? th with
      | some g => g.mask
      | none => 0
    let s1 := s.setThread (th.sPut d (m.setWidth 64))
    .ok (match s1.groupOf? th with
      | some g => s1.returnLease g
      | none => s1, none))

/-! ### Leave -/

/-- The account of a service is off (18 R447). Log entry 62, DEDUCED. -/
def Svc.off (v : Svc) : Bool := bit v.refNow 63

/-- DRAW (18 R454). -/
def execDraw (d a : BitVec 5) (t : BitVec 1) (s : State) : Out :=
  let amt := match s.thread? s.cur.c s.cur.t with
    | some th => th.sVal a
    | none => 0
  kHold s (some (.block amt)) (fun th => do
    th.sReady s.now [a]
    th.sRoom d
    let die := dieOf th.c
    let ret (s1 : State) (add : Nat) (v : Word) : Except Stop (State × Option (Option Word)) := do
      let s2 ← s1.record th.c th.t th.seq th.csr.corr v
      .ok (s2.modThread th.c th.t (fun y =>
        let y1 := (y.sPop [a]).sPut d v
        { y1 with issue := { y1.issue with got := none, once := 0 },
                  csr := { y1.csr with leave := y1.csr.leave + BitVec.ofNat 32 add } }), some none)
    if amt = 0 then ret s 0 0
    else if th.issue.got.isSome then ret s 0 0
    else if 2 ^ 32 ≤ amt.toNat || 2 ^ 32 ≤ th.csr.leave.toNat + amt.toNat then ret s 0 2
    else if (s.svc th.svc).off then ret (s.withdraw th) amt.toNat 0
    else if th.issue.once = 3 then ret s 0 1
    else if (s.die die).leaveQ.any (fun p => p.2.any (fun r => r.who == .draw th.c th.t)) then
      if t = 1 then ret (s.withdraw th) 0 1 else .ok (s, none)
    else
      let r : LeaveReq := { id := s.nextLeave, cost := amt.toNat, dur := 0, mhz := 0, current := false, since := s.now,
                            who := .draw th.c th.t, c := th.c, t := th.t, short := none, noticed := false }
      let s1 := s.modDie die (fun x => { x with leaveQ := x.leaveQ.set th.svc (x.leaveQ.get [] th.svc ++ [r]) })
      .ok (({ s1 with nextLeave := s.nextLeave + 1 } : State).setOnce th t 2, none))

/-- DRET gives back part of the reserve (18 R454). -/
def execDret (d a : BitVec 5) (s : State) : Out :=
  kWord s (fun th => do
    th.sReady s.now [a]
    th.sRoom d
    let m := min (th.sVal a).toNat th.csr.leave.toNat
    let th1 := (th.sPop [a]).sPut d (wd m)
    .ok ((s.setThread { th1 with csr := { th1.csr with leave := th1.csr.leave - BitVec.ofNat 32 m } }).credit th.svc m, none))

/-! ### Observation, capabilities, lease extension -/

/-- MARK writes a record of kind 1 (21 R501). -/
def execMark (a : BitVec 5) (i : BitVec 13) (s : State) : Out :=
  kWord s (fun th => do
    th.sReady s.now [a]
    let s1 := s.setThread (th.sPop [a])
    .ok (if th.csr.trc.getLsbD 0 then s1.trace th.c th.t 1 th.seq th.csr.corr i.toNat (th.sVal a) 0 else s1, none))

/-- The capability list (22 Table 22.3); the drawer's and the fabric's parameters are the module's (log entry 2, DESIGN CHOICE). -/
def capability (i : Nat) : Word :=
  let e (id ver par : Nat) : Word := wd (id * 2 ^ 48 + ver * 2 ^ 40 + par)
  match i with
  | 0 => e 1 1 32
  | 1 => e 2 1 174762
  | 2 => e 3 1 8
  | 3 => e 4 1 drawerGiB
  | 4 => e 5 1 0 ||| Config.penFuse.setWidth 64
  | 5 => e 6 4 16
  | 6 => e 7 1 65536
  | 7 => e 8 1 16
  | 8 => e 9 1 0x33000
  | _ => 0

/-- CAPR reads an entry of the capability list (22 R519). -/
def execCapr (d a : BitVec 5) (s : State) : Out :=
  kWord s (fun th => do
    th.sReady s.now [a]
    th.sRoom d
    .ok (s.setThread ((th.sPop [a]).sPut d (capability (th.sVal a).toNat)), none))

/-- LEXT asks the scheduler for one more tile; the front is held until the reply (10 R267). -/
def execLext (d a b : BitVec 5) (s : State) : Out :=
  kWord s (fun th => do
    th.sReady s.now [a, b]
    th.sRoom d
    let th1 := th.sPop [a, b]
    .ok (s.setThread { th1 with issue := { th1.issue with lext := some (d.toNat, th.sVal a, th.sVal b) } }, none))

end Sys2Proof.Machine
end

