-- ==== Sys2Proof/Machine/Escrow.lean ====
section
/-!
DEFINITION. The home of memory: sectors with their sideband and poison marks (03 R89-R92, 19 R467), the arithmetic of home
units (11 R286, Table 11.3), the escrow store with its logs (12 R302-R304), and the asking for a fetch (12 R305).
-/

namespace Sys2Proof.Machine

/-! ### Sectors -/

/-- The unit of 19 Table 19.1 that holds a physical address. -/
def memUnit (pa : Nat) : Nat := if pa / 2 ^ 48 ≤ 7 then 7 else if pa / 2 ^ 48 = 8 then 8 else 12

/-- Copies `n` sectors of one frame to another, marks and sideband with them, which is zero where a sector is unminted (19 R467, 03
R92). -/
def State.copyFrame (s : State) (src dst n : Nat) : State :=
  let s1 := s.wrote (32 * dst) (32 * n) ((s.mem.clear (32 * dst) (32 * n)).blit (32 * dst) (s.mem.slice (32 * src) (32 * n)))
  let s2 := (s.poison.filter (fun p => decide (src ≤ p) && decide (p < src + n))).foldl (fun x p => x.mark (p - src + dst)) s1
  (List.range n).foldl (fun x i =>
    let y := x.sidePut (32 * (dst + i)) ((s.sideGet (32 * (src + i))).getD 0)
    if s.sideMarked (32 * (src + i)) then y.sideSpoil (32 * (dst + i)) else y) s2

/-! ### Home arithmetic -/

/-- Operation and type of a code of 11 Table 11.3, in the codes of 12 R303; 7 exchange, 8 compare and swap. -/
def opCode (c : Nat) : Nat × Nat :=
  match c with
  | 0x00 => (1, 1) | 0x01 => (1, 2) | 0x02 => (1, 3) | 0x03 => (1, 4) | 0x04 => (1, 5)
  | 0x05 => (2, 1) | 0x06 => (2, 2) | 0x07 => (2, 3) | 0x08 => (2, 4) | 0x09 => (2, 5)
  | 0x0A => (3, 1) | 0x0B => (3, 2) | 0x0C => (3, 3) | 0x0D => (3, 4) | 0x0E => (3, 5)
  | 0x0F => (4, 6) | 0x10 => (4, 7) | 0x11 => (5, 6) | 0x12 => (5, 7) | 0x13 => (6, 6) | 0x14 => (6, 7)
  | 0x15 => (7, 6) | 0x16 => (7, 7) | 0x18 => (8, 6) | _ => (8, 7)

/-- Bytes of a lane of a type code of 12 R303. -/
def laneBytes (ty : Nat) : Nat := if ty = 5 then 2 else if ty = 3 || ty = 7 then 8 else if ty = 0 then 1 else 4

/-- The combination of two lanes (11 R286): integers wrap, floats round RNE without saturation. -/
def homeOp (op ty a b : Nat) : Nat :=
  let n := 8 * laneBytes ty
  let f := if ty = 5 then Fmt.bf16 else Fmt.f32
  let fl (e : Ex) : Nat := (f.round 0 false e).1
  let sx (x : Nat) : Int := if (ty = 1 || ty = 3) && decide (2 ^ (n - 1) ≤ x) then (x : Int) - 2 ^ n else x
  if op = 0 || op = 7 then b
  else if op = 1 then (if ty = 4 || ty = 5 then fl (exSum 0 [f.decode a, f.decode b]) else (a + b) % 2 ^ n)
  else if op = 2 then
    (if ty = 4 || ty = 5 then fl (Ex.of (fvMin (f.decode a) (f.decode b))) else if sx a ≤ sx b then a else b)
  else if op = 3 then
    (if ty = 4 || ty = 5 then fl (Ex.of (fvMax (f.decode a) (f.decode b))) else if sx b ≤ sx a then a else b)
  else if op = 4 then a &&& b
  else if op = 5 then a ||| b
  else a ^^^ b

/-- Combines the lanes of a sector under a byte mask, from lane `i` on; the mask covers whole lanes. -/
def combine (op ty : Nat) (cur new : Nat) (mask : Nat) : Nat :=
  let w := laneBytes ty
  ((List.range (32 / w)).map (fun i =>
    let a := cur / 2 ^ (8 * w * i) % 2 ^ (8 * w)
    let b := new / 2 ^ (8 * w * i) % 2 ^ (8 * w)
    (if mask.testBit (w * i) then homeOp op ty a b else a) * 2 ^ (8 * w * i))).foldl (· + ·) 0

/-- An operation applied to a sector at its home (11 R284, 12 R307). -/
def State.homeApply (s : State) (sec op ty : Nat) (mask : BitVec 32) (data : BitVec 256) : State :=
  if op = 0 then s.sectWrite sec data mask
  else s.sectWrite sec (BitVec.ofNat 256 (combine op ty (s.sectRead sec).toNat data.toNat mask.toNat)) (mask)

/-! ### Logs -/

/-- The lowest free entry number of a store (12 R303). -/
def freeFrom (k : Nat) : Tab Esc → Nat
  | [] => k
  | (j, _) :: r => if j = k then freeFrom (k + 1) r else k

/-- A free entry of a die's store of 174,762 (12 R304): which one is left open, and it is the lowest. Log entry 91, DESIGN CHOICE. -/
def Die.freeEsc (d : Die) : Option Nat :=
  let k := freeFrom 1 d.esc
  if k ≤ 174762 then some k else none

/-- The entries of a log from an entry on, newest first; `n` bounds their number. -/
def Die.logFrom (d : Die) : Nat → Nat → List (Nat × Esc)
  | 0, _ => []
  | n + 1, e =>
    if e = 0 then []
    else match d.esc.find e with
      | some x => (e, x) :: Die.logFrom d n x.next
      | none => []

/-- Die of a tile's log, and its entries, newest first (10 R258, 12 R304). -/
def State.logOf (s : State) (d : Desc) (idx : Nat) : Nat × List (Nat × Esc) :=
  let w := s.stateWord d idx
  let k := s.die (fld w 63 61)
  (fld w 63 61, k.logFrom k.esc.length (fld w 60 43))

/-- Sets the head of a log, with its die. -/
def State.setLog (s : State) (d : Desc) (idx die head : Nat) : State :=
  s.setStateWord d idx (s.stateWord d idx &&& 0x000007FFFFFFFFFF#64 ||| wd (die * 2 ^ 61 + head * 2 ^ 43))

/-- A tile's log holds an untagged entry. -/
def State.untagged (s : State) (d : Desc) (idx : Nat) : Bool := (s.logOf d idx).2.any (fun e => e.2.tag == 0)

/-- An escrow tag of a guarded task (12 R303; log entry 28, DESIGN CHOICE). -/
def escTag (task : Nat) : Nat := task % 65535 + 1

/-- A fetch of the tile is in progress or has been asked for. -/
def State.fetching (s : State) (svc tid idx : Nat) : Bool :=
  s.fetches.any (fun f => f.svc == svc && f.tid == tid && f.idx == idx) || s.agenda.contains (.tileFetch svc tid idx)

/-- Asks for a tile's fetch; one in progress is joined (12 R305). -/
def State.askFetch (s : State) (svc tid idx : Nat) : State :=
  if s.fetching svc tid idx then s else s.later [.tileFetch svc tid idx]

/-- What an append brings (12 R303). -/
structure Entry where
  sect : Nat
  op : Nat
  ty : Nat
  mask : BitVec 32
  data : BitVec 256
  tag : Nat
  deriving DecidableEq, Repr

/-- Merges an append into an entry (12 R304). -/
def Esc.merge (e : Esc) (n : Entry) : Esc :=
  if n.op = 0 then
    { e with data := BitVec.ofNat 256 ((Memory.putMask [] 0 32 e.data.toNat (2 ^ 32 - 1)).putMask 0 32 n.data.toNat n.mask.toNat
                |>.getN 0 32),
             mask := e.mask ||| n.mask }
  else
    let fresh := n.mask &&& ~~~e.mask
    let x := combine n.op n.ty e.data.toNat n.data.toNat (n.mask &&& e.mask).toNat
    { e with data := BitVec.ofNat 256 (combine 0 n.ty x n.data.toNat fresh.toNat), mask := e.mask ||| n.mask }

/-- The home die at which a log starts: that of the tile's first byte (12 R302), set each time that an empty log starts anew. Log entry 91,
DESIGN CHOICE. -/
def State.logDie (s : State) (svc tid : Nat) (d : Desc) (idx : Nat) : Nat :=
  let w := s.stateWord d idx
  if fld w 60 43 ≠ 0 then fld w 63 61
  else match s.tileWord? svc tid d idx with
    | some f => homeDie (frameBase f)
    | none => 0

/-- Appends an entry, indivisibly (12 R304); none where it needs a new entry and the store is full. A log in the drawer that
grows beyond `escrow.limit` forces the fetch (12 R305, R308). Log entry 29, DEDUCED. -/
def State.append? (s : State) (svc tid : Nat) (d : Desc) (idx : Nat) (n : Entry) : Option State :=
  let die := s.logDie svc tid d idx
  let k := s.die die
  let log := (s.logOf d idx).2
  let key := tileKey svc tid idx
  let cnt := k.escN.get 0 key
  let put (x : Die) : Die := { x with escN := x.escN.set key ((cnt + 1) % 65536) }
  let s1? : Option State :=
    match log.find? (fun e => e.2.sect == n.sect && e.2.tag == n.tag) with
    | some (i, e) =>
      if e.op = n.op && e.ty = n.ty then some (s.setDie die (put { k with esc := k.esc.set i (e.merge n) }))
      else none
    | none => none
  let s2? : Option State :=
    match s1? with
    | some x => some x
    | none =>
      match k.freeEsc with
      | none => none
      | some i =>
        let head := match log with
          | (h, _) :: _ => h
          | [] => 0
        let e : Esc := { next := head, sect := n.sect, op := n.op, ty := n.ty, seq := cnt, mask := n.mask, tag := n.tag,
                         data := n.data, svc := svc, tid := tid, idx := idx }
        let esc := k.esc.set i e
        some ((s.setDie die (put { k with esc := esc, escHw := max k.escHw esc.length })).setLog d idx die i)
  s2?.map (fun x =>
    match s.tileWord? svc tid d idx with
    | some f =>
      if resid? f true = some .drawer && decide ((s.svc svc).escLimit < (x.logOf d idx).2.length) then x.askFetch svc tid idx else x
    | none => x)

/-- Frees an entry, unlinking it from its log (12 R307, R311). -/
def State.freeEntry (s : State) (d : Desc) (die i : Nat) : State :=
  match (s.die die).esc.find i with
  | none => s
  | some e =>
    let log := (s.logOf d e.idx).2
    let s1 := s.modDie die (fun k =>
      let esc := (log.find? (fun p => p.2.next == i)).elim k.esc (fun p => k.esc.set p.1 { p.2 with next := e.next })
      { k with esc := esc.del i })
    if (log.headD (0, e)).1 = i then s1.setLog d e.idx die e.next else s1

/-- An append waits at the store for the same sector of a tile. -/
def State.behindDefer (s : State) (svc tid : Nat) (d : Desc) (idx sect : Nat) : Bool :=
  (s.die (s.logDie svc tid d idx)).defer.any (fun q => q.svc == svc && q.tid == tid && q.idx == idx && q.sect == sect)

/-- The entry that an append brings. -/
def Deferred.entry (q : Deferred) : Entry := { sect := q.sect, op := q.op, ty := q.ty, mask := q.mask, data := q.data, tag := q.tag }

/-- An append is left waiting at the store, with the fetch of its tile forced (12 R309). -/
def State.deferIt (s : State) (d : Desc) (q : Deferred) : State :=
  (s.modDie (s.logDie q.svc q.tid d q.idx) (fun k => { k with defer := k.defer ++ [q] })).askFetch q.svc q.tid q.idx

/-- An append of a thread's word: performed now, or left waiting at the store (12 R309). One behind another that waits for the same sector
waits too. -/
def State.appendOr (s : State) (d : Desc) (q : Deferred) : State :=
  match (if s.behindDefer q.svc q.tid d q.idx q.sect then none else s.append? q.svc q.tid d q.idx q.entry) with
  | some x => x
  | none => s.deferIt d q

/-- An append that waited is made, or performed in the frame of a tile that has become resident (12 R309); none while it must wait. One that
meets marked data in the frame is an uncorrectable error of its task (19 R467). -/
def State.deferStep (s : State) (q : Deferred) : Option State :=
  match s.desc? q.svc q.tid with
  | none => none
  | some d =>
    match s.tileWord? q.svc q.tid d q.idx, (s.tileWord? q.svc q.tid d q.idx).bind (fun w => resid? w true) with
    | some w, some .resident =>
      let pa := frameBase w + 32 * q.sect
      if q.tag = 0 then
        (if s.untagged d q.idx || !s.admits pa q.cls then none
         else
           let s1 := s.atSlice pa q.cls
           if q.op ≠ 0 && s.marked (pa / 32) then
             some (s1.consume q.task q.c q.t q.epc q.corr (memUnit pa) (homeDie pa) (homeSlice pa) pa (faultVal q.tid 6 (q.idx * d.bytes)))
           else some (s1.homeApply (pa / 32) q.op q.ty q.mask q.data))
      else s.append? q.svc q.tid d q.idx q.entry
    | _, _ => s.append? q.svc q.tid d q.idx q.entry

/-- An append has reached the store of its log: it is made, or waits there (12 R302, R309). -/
def State.reachStore (s : State) (q : Deferred) : State :=
  match s.desc? q.svc q.tid with
  | none => s
  | some d => if s.behindDefer q.svc q.tid d q.idx q.sect then s.deferIt d q else (s.deferStep q).getD (s.deferIt d q)

end Sys2Proof.Machine
end

