-- ==== Sys2Proof/Machine/Sync.lean ====
section
/-!
DEFINITION. The Y words of the scratchpad: barrier objects (08 R204-R217), full/empty words (08 R218-R221), LDAQS and STRLS
(09 R243), FENCE (09 R231, R244) and AMOS (11 R293); and REMOTE_REQUEST_ARRIVE (07 R203).
-/

namespace Sys2Proof.Machine

/-! ### What synchronising words share -/

/-- What the body of an access word gives: the state, and, where the word waits in it, the reason. -/
abbrev Held? := Except Stop (State × Option (Option WaitWhy))

/-- An acquire at a scope is performed (09 R230, R238). -/
def State.acquire (s : State) (th : Thread) (scope : Nat) (l : KeptAt) : State :=
  (if scope = 0 then s else s.acquireAt th.c scope).raceAcquire th scope l

/-- A release at a scope: it waits until the thread's older accesses are performed, and for the core to write back what it must, as the
slices admit it (09 R230, R237; 11 R279, R282). -/
def State.releasing (s : State) (th : Thread) (scope : Nat) (f : State → Held?) : Held? := do
  s.quiet th scope
  let s1 := s.releaseAt th.c scope (s.vcOf th)
  if decide (1 ≤ scope) && s1.writingBack th.c then .ok (s1, some none) else f s1

/-- The word at hand acts at core `c`: at once on the thread's own core; for another its request crosses the mesh first (07 R203,
08 R205, R220). -/
def State.reach (s : State) (th : Thread) (c : Nat) (f : Unit → Held?) : Held? :=
  if c = th.c then f ()
  else match th.issue.far with
    | some (q, there) =>
      if q = s.cur.e.seq then (if there then f () else .error (.wait none))
      else .error (.wait none)
    | none =>
      .ok ((s.modThread th.c th.t (fun x => { x with issue := { x.issue with far := some (s.cur.e.seq, false) } })).send th c
        (.yword s.cur.e.seq), some none)

/-- The word at hand is done: ports popped, the destination written, its outcome recorded (21 R506). -/
def State.finish (s : State) (th : Thread) (srcs : List (BitVec 5)) (out : Option (BitVec 5 × Word)) (rec : Option Word) :
    Held? := do
  let s1 ← match rec with
    | some v => s.record th.c th.t s.cur.e.seq s.cur.e.corr v
    | none => .ok s
  .ok (s1.modThread th.c th.t (fun x => match out with
    | some (d, v) => (x.aPop srcs).aPut d v s.cur.e.seq
    | none => x.aPop srcs), none)

/-- The word at hand has been sent to another core: it was checked when it issued (07 R203, 08 R219). -/
def State.sentFar (s : State) (th : Thread) : Bool := th.issue.far.any (fun p => p.1 == s.cur.e.seq)

/-- The checks of a scratchpad access of a Y word, which are made at issue and not again at the core that it names (07 R203, 08 R219). -/
def State.spOnce (s : State) (th : Thread) (x : Word) (n al : Nat) : Except Stop (Group × Nat) :=
  match (if s.sentFar th then s.refGroup th.task th.group th.c x else none) with
  | some g => .ok (g, fld x 20 0)
  | none => s.spChk th.task th.group th.c x n al

/-! ### Barrier objects -/

/-- An object carries no poison mark; a word that meets one consumes it (19 R467). -/
def State.barClean (s : State) (o : Nat × Nat) : Except Stop Unit :=
  if ((s.core o.1).bar o.2).mark then .error (.consume 0 (dieOf o.1) (o.1 % 32) (objAddr o.2) (wd (objAddr o.2))) else .ok ()

/-- A word on an object: its reference is formed and checked, and it acts at the object's core (08 R205). `pre` is what it does first. -/
def barWord (s : State) (srcs : List (BitVec 5)) (a : BitVec 5) (i : BitVec 10)
    (pre : Thread → (State → Held?) → Held?) (body : State → Thread → Nat × Nat → Held?) : Out :=
  accessHold s (fun th => do
    th.aReady s.now s.cur.e.seq srcs
    let o ← s.objRef th.task th.group th.c (th.aVal a) i.toNat
    pre th (fun s1 => s1.reach th o.1 (fun _ => body s1 th o)))

/-- A word that reads its object, as all but BINIT do (19 R467). -/
def barRead (s : State) (srcs : List (BitVec 5)) (a : BitVec 5) (i : BitVec 10)
    (pre : Thread → (State → Held?) → Held?) (body : State → Thread → Nat × Nat → Held?) : Out :=
  barWord s srcs a i pre (fun s1 th o => do s1.barClean o; body s1 th o)

/-- BINIT (08 R212). -/
def execBinit (d a : BitVec 5) (i : BitVec 10) (s : State) : Out :=
  barWord s [a, d] a i
    (fun th f => if 0xFFFFFF < (th.aVal d).toNat then .error (.trap 0x11 (th.aVal d)) else f s)
    (fun s th o => (s.updBarAs o (·.initTo (th.aVal d).toNat) .freed).finish th [a, d] none none)

/-- BREG (08 R209). -/
def execBreg (a : BitVec 5) (i : BitVec 10) (s : State) : Out :=
  barRead s [a] a i
    (fun th f => do
      let o ← s.objRef th.task th.group th.c (th.aVal a) i.toNat
      match th.register o with
      | none => .error (.trap 0x11 (th.aVal a))
      | some _ => f s)
    (fun s th o =>
      let cls := ((s.core o.1).bar o.2).wcls
      let s1 := s.modThread th.c th.t (fun x => (x.register o).getD x)
      let s2 := if o.1 ≠ th.c && cls ≠ 0 then s1.later [.inheritMessage th.c th.t (obKey o) cls] else s1
      s2.finish th [a] none none)

/-- The thread arrives at an object by an update, as a release at a scope: it gets the phase toward which the arrival counts (08 R213,
R214). -/
def State.arriveBy (s : State) (th : Thread) (o : Nat × Nat) (scope : Nat) (f : Bar → Bar) : State × Word :=
  let ph := ((s.core o.1).bar o.2).phase
  let s1 := s.raceRelease th scope (.obj o.1 o.2 ph.toNat) true
  let s2 := s1.modThread th.c th.t (fun x => { x with arrived := x.arrived.set (obKey o) ph.toNat })
  (s2.updBar o f, ph.setWidth 64)

/-- BARV and BARD (08 R213): the word's update, and whether the registration goes. -/
def arriveWord (s : State) (d a : BitVec 5) (sc : BitVec 3) (i : BitVec 10) (drop : Bool) : Out :=
  barRead s [a] a i (fun th f => do th.aRoom d; s.releasing th (th.relScope sc.toNat) f)
    (fun s th o =>
      let r := s.arriveBy th o (th.relScope sc.toNat) (if drop then Bar.drop else Bar.arrive)
      let s1 := if drop then r.1.modThread th.c th.t (·.unregister o) else r.1
      s1.finish th [a] (some (d, r.2)) (some r.2))

def execBarv (d a : BitVec 5) (sc : BitVec 3) (i : BitVec 10) (s : State) : Out := arriveWord s d a sc i false
def execBard (d a : BitVec 5) (sc : BitVec 3) (i : BitVec 10) (s : State) : Out := arriveWord s d a sc i true

/-- BEXP (08 R213, R214): a release only with `.arv`. -/
def execBexp (d a b : BitVec 5) (sc : BitVec 3) (v : BitVec 1) (s : State) : Out :=
  barRead s [a, b] a 0 (fun th f => do th.aRoom d; if v = 1 then s.releasing th (th.relScope sc.toNat) f else f s)
    (fun s th o =>
      let n := (th.aVal b).toInt
      if v = 1 then
        let r := s.arriveBy th o (th.relScope sc.toNat) (·.expect n true)
        r.1.finish th [a, b] (some (d, r.2)) (some r.2)
      else
        let ph : Word := ((s.core o.1).bar o.2).phase.setWidth 64
        (s.updBar o (·.expect n false)).finish th [a, b] (some (d, ph)) (some ph))

/-- BWAIT (08 R215). A wait that an update has ended is over as that update left it (08 R210, R212). -/
def execBwait (d a : BitVec 5) (sc : BitVec 3) (i : BitVec 10) (s : State) : Out :=
  barRead s [a, d] a i
    (fun th f => if fld (th.aVal d) 63 12 ≠ 0 then .error (.trap 0x11 (th.aVal d)) else do s.inOrder th; f s)
    (fun s th o =>
      let b := (s.core o.1).bar o.2
      let p := fld (th.aVal d) 11 0
      let rho := th.aVal a + i.setWidth 64
      match s.wokeOf th with
      | some .poison => .error (.trap 0x0A rho)
      | some .freed => s.finish th [a, d] none none
      | some _ => (s.acquire th sc.toNat (.obj o.1 o.2 p)).finish th [a, d] none none
      | none =>
        if b.poison then .error (.trap 0x0A rho)
        else if b.phase.toNat = p then .ok (s.updBar o (·.await th.c th.t (s.eff th)), some (some (.block rho)))
        else (s.acquire th sc.toNat (.obj o.1 o.2 p)).finish th [a, d] none none)

/-- BTEST (08 R216): where the phase differs from that of the thread's last arrival, it acquires what that phase has kept; a thread that
has made none acquires from the phase before. Log entry 31, DEDUCED. -/
def execBtest (d a : BitVec 5) (sc : BitVec 3) (i : BitVec 10) (s : State) : Out :=
  barRead s [a] a i (fun th f => do th.aRoom d; s.inOrder th; f s)
    (fun s th o =>
      let b := (s.core o.1).bar o.2
      let p := th.arrived.get (b.phase - 1).toNat (obKey o)
      let s1 := if th.arrived.find (obKey o) = some b.phase.toNat then s else s.acquire th sc.toNat (.obj o.1 o.2 p)
      s1.finish th [a] (some (d, b.word0)) (some b.word0))

/-! ### Full/empty words -/

/-- The tagged operations of 08 R220. -/
inductive TagOp where
  | ldf | ldfe | stef | stf | feset (full : Bool)
  deriving DecidableEq, Repr

/-- The tag that an operation waits for. -/
def TagOp.wants : TagOp → Option Bool
  | .ldf | .ldfe => some true
  | .stef => some false
  | _ => none

/-- The tag that it leaves. -/
def TagOp.leaves : TagOp → Bool
  | .ldf | .stef | .stf => true
  | .ldfe => false
  | .feset f => f

def TagOp.reads (op : TagOp) : Bool := op == .ldf || op == .ldfe
def TagOp.writes (op : TagOp) : Bool := op == .stef || op == .stf

/-- The word at hand waits in the queue of a tagged word. -/
def State.inTagq (s : State) (th : Thread) (c : Nat) : Bool :=
  (s.core c).tagq.any (fun q => q.c == th.c && q.t == th.t && q.seq == s.cur.e.seq)

/-- What a tagged word does at its bank: it is performed, or takes its place among those that wait (08 R220). Log entry 42, DEDUCED. -/
def State.atTag (s : State) (th : Thread) (op : TagOp) (d : BitVec 5) (srcs : List (BitVec 5)) (sc : Nat) (c off : Nat) (x : Word) :
    Held? :=
  match op.wants with
  | some w =>
    if w ≠ (s.core c).full off then
      let q : TagWait := { off := off, c := th.c, t := th.t, seq := s.cur.e.seq, want := w, leaves := op.leaves,
                           val := if op.writes then some (th.aVal d) else none, scope := sc }
      .ok (s.modCore c (fun k => { k with tagq := k.tagq ++ [q] }), some (some (.block x)))
    else if op.reads then do
      s.spClean c off 8
      let v := wd (s.spGet c off 8)
      ((s.acquire th sc (.word c off)).tagTo c off op.leaves).finish th srcs (some (d, v)) (some v)
    else (((s.spPut c off 8 (th.aVal d).toNat).raceRelease th sc (.word c off) false).tagTo c off op.leaves).finish th srcs none none
  | none =>
    let s1 := if op.writes then (s.spPut c off 8 (th.aVal d).toNat).raceRelease th sc (.word c off) false else s
    (s1.tagTo c off op.leaves).finish th srcs none none

/-- A tagged word (08 R219, R220). -/
def tagWord (s : State) (op : TagOp) (d a : BitVec 5) (sc : BitVec 3) (o : BitVec 10) : Out :=
  let srcs := if op.writes then [a, d] else [a]
  accessHold s (fun th => do
    th.aReady s.now s.cur.e.seq srcs
    let x := th.aVal a + 8 * o.signExtend 64
    match s.wokeOf th with
    | some (.served v) =>
      if op.reads then
        match v with
        | none => (match s.refGroup th.task th.group th.c x with
          | some g => let o := g.phys (fld x 20 0) / 8 * 8; .error (.consume 0 (dieOf g.c) (g.c % 32) o (wd o))
          | none => .error (.wait none))
        | some v => (if sc = 0 then s else s.acquireAt th.c sc.toNat).finish th srcs (some (d, v)) (some v)
      else s.finish th srcs none none
    | _ =>
      if op.reads then th.aRoom d else .ok ()
      if (match s.refGroup th.task th.group th.c x with
          | some g => s.inTagq th g.c
          | none => false) then .ok (s, some (some (.block x)))
      else
        let p ← s.spOnce th x 8 8
        let dir := if op.writes then 2 else 1
        let _ ← if op.reads || op.writes then s.spWatch th dir 8 [p] else .ok s
        let go (s : State) (scope : Nat) : Held? := s.reach th p.1.c (fun _ => do
          let s1 ← if op.reads || op.writes then s.spWatch th dir 8 [p] else .ok s
          s1.atTag th op d srcs scope p.1.c (p.1.phys p.2 / 8 * 8) x)
        if op.writes then s.releasing th (th.relScope sc.toNat) (fun s1 => go s1 (th.relScope sc.toNat))
        else if op.reads then do s.inOrder th; go s sc.toNat
        else go s 0)

def execLdf (d a : BitVec 5) (sc : BitVec 3) (o : BitVec 10) (s : State) : Out := tagWord s .ldf d a sc o
def execLdfe (d a : BitVec 5) (sc : BitVec 3) (o : BitVec 10) (s : State) : Out := tagWord s .ldfe d a sc o
def execStef (d a : BitVec 5) (sc : BitVec 3) (o : BitVec 10) (s : State) : Out := tagWord s .stef d a sc o
def execStf (d a : BitVec 5) (sc : BitVec 3) (o : BitVec 10) (s : State) : Out := tagWord s .stf d a sc o
def execFeset (f : BitVec 1) (a : BitVec 5) (o : BitVec 10) (s : State) : Out := tagWord s (.feset (f = 1)) 0 a 0 o

/-! ### Synchronising scratchpad accesses -/

/-- LDAQS (09 R243). -/
def execLdaqs (d a b : BitVec 5) (sc : BitVec 3) (w : BitVec 1) (s : State) : Out :=
  accessHold s (fun th => do
    th.aReady s.now s.cur.e.seq [a, b]
    th.aRoom d
    let n := wSize w
    let p ← s.spOnce th (th.aVal a + th.aVal b) n n
    let s0 ← s.spWatch th 1 n [p]
    s.inOrder th
    let off := p.1.phys p.2
    s.reach th p.1.c (fun _ => do
      s.spClean p.1.c off n
      let v := wd (s.spGet p.1.c off n)
      (s0.acquire th sc.toNat (.word p.1.c (off / 8 * 8))).finish th [a, b] (some (d, v)) (some v)))

/-- STRLS (09 R243). -/
def execStrls (d a b : BitVec 5) (sc : BitVec 3) (w : BitVec 1) (s : State) : Out :=
  accessHold s (fun th => do
    th.aReady s.now s.cur.e.seq [a, b, d]
    let n := wSize w
    let p ← s.spOnce th (th.aVal a + th.aVal b) n n
    let _ ← s.spWatch th 2 n [p]
    let off := p.1.phys p.2
    let scope := th.relScope sc.toNat
    s.releasing th scope (fun s1 => s1.reach th p.1.c (fun _ => do
      let s2 ← s1.spWatch th 2 n [p]
      ((s2.spPut p.1.c off n (th.aVal d).toNat).raceRelease th scope (.word p.1.c (off / 8 * 8)) false).finish th
        [a, b, d] none none)))

/-- A FENCE with release, once the thread's older accesses are performed: the count rises, and later synchronising writes are releases at
no narrower a scope (09 R229, R248). Log entry 30, DEDUCED. -/
def State.fenceRel (s : State) (th : Thread) (scope : Nat) : State :=
  (s.raceCount th).modThread th.c th.t (fun x => { x with issue := { x.issue with relAt := some (x.relScope scope) } })

/-- FENCE (09 R231, R244): kind 1 acquires, 2 releases, 3 does both. -/
def execFence (sc : BitVec 3) (k : BitVec 2) (s : State) : Out :=
  accessHold s (fun th =>
    let acq (s1 : State) : State :=
      if k.getLsbD 0 then (if sc = 0 then s1 else s1.acquireAt th.c sc.toNat).raceFence th sc.toNat else s1
    if k.getLsbD 1 then s.releasing th sc.toNat (fun s1 => .ok (acq (s1.fenceRel th sc.toNat), none))
    else do s.inOrder th; .ok (acq s, none))

/-! ### Home arithmetic on a value -/

/-- Bytes of the operand of an operation code of 11 Table 11.3. -/
def amoBytes (p : Nat) : Nat := laneBytes (opCode p).2

/-- The value that an atomic returns (11 R290): an i32 is sign-extended, every other is zero-extended. -/
def amoOld (p : Nat) (old : Nat) : Word :=
  if (opCode p).2 = 1 then (BitVec.ofNat 32 old).signExtend 64 else wd old

/-- What an atomic stores over `old`, if it stores: a compare and swap that fails writes nothing (11 R286, R293). -/
def amoNew (p : Nat) (old x y : Nat) : Option Nat :=
  let m := 2 ^ (8 * amoBytes p)
  let o := opCode p
  if o.1 = 8 then (if old = x % m then some (y % m) else none) else some (homeOp o.1 o.2 old (x % m))

/-- AMOS (11 R293): indivisible at the bank; the tag is untouched. A compare and swap takes its new value from A[d+1]. -/
def execAmos (d a b : BitVec 5) (sc : BitVec 3) (p : BitVec 5) (s : State) : Out :=
  let pair := (opCode p.toNat).1 = 8
  let srcs := if pair then [a, b, d, d + 1] else [a, b, d]
  accessHold s (fun th => do
    th.aReady s.now s.cur.e.seq srcs
    th.aRoom d
    let n := amoBytes p.toNat
    let q ← s.spOnce th (th.aVal a + th.aVal b) n n
    let _ ← s.spWatch th 3 n [q]
    let off := q.1.phys q.2
    let scope := th.relScope sc.toNat
    s.releasing th scope (fun s1 => s1.reach th q.1.c (fun _ => do
      let s2 ← s1.spWatch th 3 n [q]
      s2.spClean q.1.c off n
      let old := s2.spGet q.1.c off n
      let s3 := match amoNew p.toNat old (th.aVal d).toNat (th.aVal (d + 1)).toNat with
        | some v => s2.spPut q.1.c off n v
        | none => s2
      let l : KeptAt := .word q.1.c (off / 8 * 8)
      let v := amoOld p.toNat old
      let s4 := s3.acquire th sc.toNat l
      (match s4.thread? th.c th.t with
        | some x => s4.raceRelease x scope l true
        | none => s4).finish th srcs (some (d, v)) (some v))))

/-! ### Requests from other cores -/

/-- The meaning of a Y word whose request has reached its core. -/
def runRemote (i : Instr) (s : State) : Out :=
  match i with
  | .binit d a i => execBinit d a i s
  | .breg a i => execBreg a i s
  | .barv d a sc i => execBarv d a sc i s
  | .bard d a sc i => execBard d a sc i s
  | .bexp d a b sc v => execBexp d a b sc v s
  | .bwait d a sc i => execBwait d a sc i s
  | .btest d a sc i => execBtest d a sc i s
  | .ldf d a sc o => execLdf d a sc o s
  | .ldfe d a sc o => execLdfe d a sc o s
  | .stef d a sc o => execStef d a sc o s
  | .stf d a sc o => execStf d a sc o s
  | .feset f a o => execFeset f a o s
  | .ldaqs d a b sc w => execLdaqs d a b sc w s
  | .strls d a b sc w => execStrls d a b sc w s
  | .amos d a b sc p => execAmos d a b sc p s
  | _ => .next s

end Sys2Proof.Machine
end

