-- ==== Sys2Proof/Machine/Reach.lean ====
section
/-!
DEFINITION. How an access to tensor memory is made: the checks of its elements and tiles (10 R269), where a tile can be reached
(10 R264, 12 Table 12.1, R302, R305), the sectors that a load brings (09 R236, 11 R279, 12 R317, R322; 20 R486), and where a store,
a reduction or an atomic goes (09 R236, 11 R284-R292, 12 R302, 20 R478, R486).
-/

namespace Sys2Proof.Machine

/-! ### Elements -/

/-- The tensor that a register names, where its descriptor is defined (10 R269). -/
def State.tensorOf (s : State) (th : Thread) (x : Word) : Except Stop (Nat × Desc) :=
  let tid := fld x 11 0
  if fld x 63 12 ≠ 0 then .error (.trap 0x11 (faultVal tid 3 0))
  else match s.desc? th.svc tid with
    | none => .error (.trap 0x11 (faultVal tid 3 0))
    | some d => .ok (tid, d)

/-- The coordinates that a k register holds (10 R268). -/
def Thread.coords (th : Thread) (k : Nat) : List Nat :=
  (List.range 6).map (fun j => (Tab.get 0 (Tab.get [] th.f.k k) j).toNat)

/-- Position of an element, computed from its coordinates as given (10 R259). -/
def Desc.pos (d : Desc) (c : List Nat) : Nat := (d.loc c).1 * d.bytes + (d.loc c).2

/-- The coordinate check of an element and the alignment of its position (10 R257, R269): its tile and byte offset. -/
def Desc.elem (d : Desc) (tid : Nat) (c : List Nat) (al : Nat) : Except Stop (Nat × Nat) :=
  if !d.inside c then .error (.trap 0x11 (faultVal tid 0 (d.pos c)))
  else if (d.loc c).2 % al ≠ 0 then .error (.trap 0x05 (faultVal tid 0 (d.pos c)))
  else .ok (d.loc c)

/-- The lease and permission check of a tile (10 R261). -/
def Task.checkTile (k : Task) (d : Desc) (tid idx : Nat) (a : Access) : Except Stop Unit :=
  match k.leaseFails d tid idx a with
  | some r => .error (.trap 0x06 (faultVal tid r (idx * d.bytes)))
  | none => .ok ()

/-- FORMAT at a tile (10 R259). -/
def formatTrap (d : Desc) (tid idx : Nat) : Stop := .trap 0x0D (faultVal tid 4 (idx * d.bytes))

/-- `n` bytes of a tile at a byte offset, which stand at byte `at` of the register or vector. -/
structure Span where
  dst : Nat
  idx : Nat
  off : Nat
  n : Nat
  deriving DecidableEq, Repr

/-- The tiles of some spans, in order. -/
def tilesOfSpans (l : List Span) : List Nat := (l.map (·.idx)).eraseDups

/-- The sectors of tensor positions that spans touch, for the watchpoint test (21 R504). -/
def posSecs (d : Desc) (l : List Span) : List Nat := (l.map (fun x => (x.idx * d.bytes + x.off) / 32)).eraseDups

/-! ### Where a tile is reached -/

/-- How an access reaches a tile. -/
inductive Reach where
  /-- In a frame. -/
  | frame (base : Nat)
  /-- By an append, under a tag. -/
  | append (tag : Nat)
  /-- After a fetch, forced or joined. -/
  | fetch
  /-- After the first write of a guarded task has made the shadow: by a copy from a frame, or by zeros. -/
  | first (src : Option Nat)
  /-- When the tile is resident, or a batch or copy has ended. -/
  | wait
  /-- Never: its frame word was cleared after an uncorrectable error (12 R312). -/
  | dead
  deriving DecidableEq, Repr

/-- The handle of a class-9 address is recalled: no access is sent for it (20 R485). -/
def State.held9 (s : State) (pa : Nat) : Bool := s.paused.contains (pa / 2 ^ 21 % 2 ^ 27)

/-- An access that reads the tile as it stands: a load, a write with sideband, an atomic, a copy into a shadow. `after`: the
tile must have been fetched (12 R305). -/
def State.reachRead (s : State) (svc tid : Nat) (d : Desc) (idx : Nat) (w : Word) (must fetched : Bool) : Reach :=
  match resid? w true with
  | some .resident => if s.untagged d idx then .wait else .frame (frameBase w)
  | some .peer => if s.held9 (frameBase w) then .wait else .frame (frameBase w)
  | some .host => .frame (frameBase w)
  | some .arriving | some .departing => .wait
  | some .drawer =>
    if s.untagged d idx then .fetch
    else if must && (!fetched || s.fetching svc tid idx) then .fetch
    else .frame (frameBase w)
  | none => .dead

/-- A write or reduction that escrow takes where the tile is not resident (12 Table 12.1). -/
def State.reachWrite (s : State) (d : Desc) (idx : Nat) (w : Word) : Reach :=
  match resid? w true with
  | some .resident => if s.untagged d idx then .wait else .frame (frameBase w)
  | some .peer => if s.held9 (frameBase w) then .wait else .frame (frameBase w)
  | some .host => .frame (frameBase w)
  | some _ => .append 0
  | none => .dead

/-- How an access of a task reaches a tile that it holds. `side`: the access carries block sideband; `fetched`: it has had the tile
fetched. -/
def State.reachTile (s : State) (k : Task) (d : Desc) (tid idx : Nat) (a : Access) (side fetched : Bool) : Reach :=
  match k.held? tid idx with
  | none => .dead
  | some h =>
    let r := (k.rangesOn d tid idx).find? (fun r => r.admits a && r.mode ≠ 0)
    let staged := k.guarded && (match r with
      | some r => r.mode = 1 || r.mode = 2
      | none => false)
    match a with
    | .load =>
      if k.guarded && h.written then .frame (h.shadow.getD 0) else s.reachRead k.svc tid d idx h.frame false fetched
    | _ =>
      if staged then
        if h.written then .frame (h.shadow.getD 0)
        else if (match r with
            | some r => r.mode = 1 && r.covers d idx
            | none => false) then .first none
        else match s.reachRead k.svc tid d idx h.frame true fetched with
          | .frame b => .first (some b)
          | x => x
      else match a with
        | .atomic => s.reachRead k.svc tid d idx h.frame true fetched
        | .store => if side then s.reachRead k.svc tid d idx h.frame false fetched else s.reachWrite d idx h.frame
        | _ => if k.guarded then .append (escTag k.id) else s.reachWrite d idx h.frame

/-- The first write of a guarded task to a tile makes its shadow (10 R264). -/
def State.firstWrite (s : State) (k : Task) (d : Desc) (tid idx : Nat) (src : Option Nat) : State :=
  match (k.held? tid idx).bind (·.shadow) with
  | none => s
  | some sh =>
    let n := d.bytes / 32
    let s1 := s.dropLines (sh / 32) n
    let s2 := match src with
      | some b => s1.copyFrame (b / 32) (sh / 32) n
      | none => (List.range n).foldl (fun x i => x.sidePut (sh + 32 * i) 0) (s1.wrote sh d.bytes (s1.mem.clear sh d.bytes))
    s2.modTask k.id (fun k => { k with held := k.held.map (fun h =>
      if h.tid = tid && h.idx = idx then { h with written := true } else h) })

/-! ### Links -/

/-- The drawer link of a physical address (12 R316). -/
def linkOf (pa : Nat) : Nat := (List.range 4).foldl (fun n i => n + 2 ^ i * xorBits pa 4 16 (8 + i)) 0

/-- Some block of a drawer frame lies on a link in retraining (12 R321). -/
def State.linkHeld (s : State) (base bytes : Nat) : Bool :=
  base / 2 ^ 48 = 8 && (List.range (bytes / 256)).any (fun i => (s.link (linkOf (base + 256 * i))).st == .retraining)

/-- The drawer frame of a tile that lies in the drawer, or is arriving from it. -/
def State.drawerFrame? (s : State) (svc tid idx : Nat) (w : Word) : Option Nat :=
  if frameClass w = 8 then some (frameBase w)
  else (s.fetches.find? (fun f => f.svc == svc && f.tid == tid && f.idx == idx)).map (fun f => frameBase f.drawer)

/-- Why an access to a tile that is not ready waits: on a link in retraining, and on the fabric, the wait has a
limit (12 R322, 20 R487). -/
def State.tileWhy (s : State) (k : Task) (d : Desc) (tid idx : Nat) : Option WaitWhy :=
  match k.held? tid idx with
  | none => none
  | some h =>
    match s.drawerFrame? k.svc tid idx h.frame with
    | some b => if s.linkHeld b d.bytes then some (.link (faultVal tid 5 (idx * d.bytes))) else none
    | none => if frameClass h.frame = 9 then some (.link (faultVal tid 5 (idx * d.bytes))) else none

/-- A block of a drawer frame that lies on a failed link (12 R321): its address. -/
def State.linkDead (s : State) (base bytes : Nat) : Option Nat :=
  if base / 2 ^ 48 ≠ 8 then none
  else ((List.range (bytes / 256)).map (fun i => base + 256 * i)).find? (fun pa => (s.link (linkOf pa)).st == .failed)

/-- A tile that must come from the drawer over a failed link (12 R321). -/
def State.tileDead (s : State) (k : Task) (d : Desc) (tid idx : Nat) : Option Nat :=
  match k.held? tid idx with
  | none => none
  | some h => (s.drawerFrame? k.svc tid idx h.frame).bind (fun b => s.linkDead b d.bytes)

/-! ### Making tiles ready -/

/-- What an access finds: its value, or that it waits, in a state that its wait has changed. -/
inductive Came (α : Type) where
  | here (v : α)
  | held (why : Option WaitWhy)

/-- An uncorrectable error at a physical address of a tile (10 R259, 19 R467). -/
def consumeAt (d : Desc) (tid idx pa unit : Nat) : Stop :=
  .consume unit (homeDie pa) (homeSlice pa) pa (faultVal tid 6 (idx * d.bytes))

/-- What the making ready of tiles gives: the state, the tiles whose fetch has been forced, and how each tile is reached, or that the
access waits. -/
structure TilesReady where
  s : State
  forced : List (Nat × Nat)
  came : Came (List (Nat × Reach))

/-- Tiles are made ready for an access of a task: shadows are made, and fetches are forced or joined (12 R305). `forced`: the tiles, by
tensor and index, whose fetch the access has forced already. -/
def State.tilesReady (s : State) (task : Nat) (d : Desc) (tid : Nat) (a : Access) (side : Bool) (forced : List (Nat × Nat)) :
    List Nat → Except Stop TilesReady
  | [] => .ok { s := s, forced := forced, came := .here [] }
  | idx :: r =>
    match s.task? task with
    | none => .error (.wait none)
    | some k =>
      let more (s1 : State) (x : Reach) : Except Stop TilesReady :=
        match State.tilesReady s1 task d tid a side forced r with
        | .ok y => .ok (match y.came with
          | .here l => { y with came := .here ((idx, x) :: l) }
          | .held _ => y)
        | e => e
      match s.reachTile k d tid idx a side (forced.contains (tid, idx)) with
      | .dead => .error (consumeAt d tid idx (match k.held? tid idx with
          | some h => frameBase h.frame
          | none => 0) 6)
      | .wait => (match s.tileDead k d tid idx with
        | some pa => .error (consumeAt d tid idx pa 8)
        | none => .ok { s := s, forced := forced, came := .held (s.tileWhy k d tid idx) })
      | .fetch => (match s.tileDead k d tid idx with
        | some pa => .error (consumeAt d tid idx pa 8)
        | none => .ok { s := s.askFetch k.svc tid idx, forced := if forced.contains (tid, idx) then forced else forced ++ [(tid, idx)],
                        came := .held (s.tileWhy k d tid idx) })
      | .first src => more (s.firstWrite k d tid idx src) (.frame (((k.held? tid idx).bind (·.shadow)).getD 0))
      | x => more s x

/-- The tiles whose fetch the word at hand has forced. -/
def State.forcedBy (s : State) (c t : Nat) : List (Nat × Nat) :=
  match (s.thread? c t).bind (·.issue.fet) with
  | some (q, l) => if q = s.cur.e.seq then l else []
  | none => []

/-- Tiles are made ready for the word at hand. -/
def State.readyTiles (s : State) (c t task : Nat) (d : Desc) (tid : Nat) (a : Access) (side : Bool) (l : List Nat) :
    Except Stop (State × Came (List (Nat × Reach))) := do
  let forced := s.forcedBy c t
  let r ← s.tilesReady task d tid a side forced l
  .ok (if r.forced = forced then r.s
    else r.s.modThread c t (fun x => { x with issue := { x.issue with fet := some (s.cur.e.seq, r.forced) } }), r.came)

/-- How a tile is reached, once it is ready. -/
def reachOf (l : List (Nat × Reach)) (idx : Nat) : Option Reach := (l.find? (fun p => p.1 == idx)).map (·.2)

/-- The frame in which a tile is reached, once it is ready. -/
def baseOf (l : List (Nat × Reach)) (idx : Nat) : Nat :=
  match l.find? (fun p => p.1 == idx) with
  | some (_, .frame b) => b
  | _ => 0

/-- Physical address of a byte of a tile in a frame (10 R257). -/
def Desc.pa (d : Desc) (base off : Nat) : Nat := base + Machine.swz d.swz off

/-! ### Requests on the mesh -/

/-- What a request on a mesh is about. -/
inductive MeshKind where
  | msg | store | red | own
  deriving DecidableEq, Repr

/-- A request on its way, as the routers see it: its number, what it is, the port that sends it (a core's, or an engine's own, from 256
on), its core and thread, destination (a core, or 256 and above for a slice), its virtual channel, and its sector (11 R294, R295). -/
structure MeshReq where
  n : Nat
  kind : MeshKind
  src : Nat
  c : Nat
  t : Nat
  dst : Nat
  vc : Vc
  fast : Bool
  sec : Option Nat
  /-- It can be taken at its destination now. -/
  open_ : Bool
  deriving DecidableEq, Repr

/-- The number of a destination that is the home slice of an address. -/
def sliceDst (pa : Nat) : Nat := 256 + 32 * homeDie pa + homeSlice pa

/-- The number of the port from which an owner sends. -/
def Owner.src : Owner → Nat → Nat
  | .chan c ch, _ => 256 + 4 * c + ch
  | .strip d n, _ => 2048 + 8 * d + n
  | _, c => c

/-- A batch of escrow is being applied to a tile, by `tileKey`, in the frame that holds an address: what would be performed in that frame
waits (11 R284, 12 R307). -/
def State.batchAt (s : State) (tile : Option Nat) (pa : Nat) : Bool :=
  match tile with
  | none => false
  | some k =>
    let svc := k / 2 ^ 44
    let tid := k / 2 ^ 32 % 4096
    let idx := k % 2 ^ 32
    match s.desc? svc tid with
    | none => false
    | some d => s.untagged d idx &&
        (decide (pa / 2 ^ 48 ≤ 7) || s.fetches.any (fun f => f.begun && f.svc == svc && f.tid == tid && f.idx == idx))

def Msg.req (m : Msg) : MeshReq :=
  { n := m.n, kind := .msg, src := m.c, c := m.c, t := m.t, dst := m.dest, vc := { cls := m.cls, urgent := m.urgent },
    fast := m.urgent || m.fast, sec := none, open_ := true }

def State.reqOfStore (s : State) (q : StoreReq) : MeshReq :=
  { n := q.n, kind := .store, src := q.c, c := q.c, t := q.t, dst := sliceDst q.pa, vc := { cls := q.cls, urgent := q.urgent },
    fast := q.urgent || q.fast, sec := some (q.pa / 32),
    open_ := !q.host && s.admits q.pa q.cls && !(q.app.isNone && s.batchAt q.tile q.pa) }

def State.reqOfHome (s : State) (q : HomeReq) : MeshReq :=
  { n := q.n, kind := .red, src := q.c, c := q.c, t := q.t, dst := sliceDst q.pa, vc := { cls := q.cls, urgent := q.urgent },
    fast := q.urgent || q.fast, sec := some (q.pa / 32), open_ := s.admits q.pa q.cls && !(q.app.isNone && s.batchAt q.tile q.pa) }

def State.reqOfWait (s : State) (w : WaitReq) : MeshReq :=
  { n := w.n, kind := .own, src := w.who.src w.c, c := w.c, t := 8, dst := sliceDst w.pa, vc := w.vc, fast := w.vc.urgent || w.fast,
    sec := some (w.pa / 32), open_ := s.admits w.pa w.vc.cls }

/-- The requests that are on the mesh; stores to the host are not. -/
def State.meshReqs (s : State) : List MeshReq :=
  s.mesh.map Msg.req ++ (s.storeQ.filter (fun q => !q.host)).map s.reqOfStore ++ s.homeQ.map s.reqOfHome ++
    (s.waits.filter (·.got.isNone)).map s.reqOfWait

/-- An earlier request goes before a later one: of one port, destination and channel (11 R295); of one port on one sector (09 R225); of the
messages of one thread to one core (07 R203); and of the reductions of one thread (09 R225). -/
def MeshReq.leads (y x : MeshReq) : Bool :=
  decide (y.n < x.n) && y.src == x.src && ((y.dst == x.dst && y.vc == x.vc) || (x.sec.isSome && y.sec == x.sec) ||
    (y.kind == x.kind && y.t == x.t && (x.kind == .red || x.kind == .msg && y.dst == x.dst)))

/-- The requests of a die that can be granted: those of the urgent tier, if there are any (11 R297). Log entry 13, DESIGN CHOICE. -/
def State.meshHeads (s : State) (die : Nat) : List MeshReq :=
  let l := s.meshReqs
  let h := l.filter (fun x => dieOf x.c == die && x.open_ && !l.any (·.leads x))
  if h.any (·.fast) then h.filter (·.fast) else h

/-- Of two requests, the one that is granted: of the channel with more allowance left, then the older (11 R297). -/
def State.meshBest (s : State) (x y : MeshReq) : MeshReq :=
  let a := s.vcLeft (dieOf x.c) x.vc
  let b := s.vcLeft (dieOf y.c) y.vc
  if a < b then y else if b < a then x else if y.n < x.n then y else x

/-- The request that a die grants next. -/
def State.meshPick (s : State) (die : Nat) : Option MeshReq :=
  match s.meshHeads die with
  | [] => none
  | x :: r => some (r.foldl s.meshBest x)

/-- A grant lowers its channel's allowance; with that of every waiting channel used up, all of the tier are loaded first (11 R297). Where a
request of the normal tier that has waited competes in the urgent one, the rule leaves open which tier's allowances those are: they are those of
the granted request's own tier. Log entry 13, DESIGN CHOICE. -/
def State.meshGrant (s : State) (x : MeshReq) : State :=
  let die := dieOf x.c
  s.vcGrant die x.vc ((s.meshHeads die).all (fun y => s.vcLeft die y.vc == 0))

/-- A request that waits where its owner stands crosses: the slice gives its sector. -/
def State.grantWait (s : State) (w : WaitReq) : State :=
  let s0 := s.meshGrant (s.reqOfWait w)
  let s1 := if w.fill then s0.atSlice w.pa w.vc.cls else s0.allotTake w.pa w.vc.cls
  let v := if s.marked (w.pa / 32) then none else some (s.sectRead (w.pa / 32))
  { s1 with waits := s1.waits.map (fun x => if x.n = w.n then { x with got := some v } else x) }

/-- Posted writes and reductions of a core to a sector are on their way. -/
def State.storing (s : State) (c sec : Nat) : Bool := s.storeQ.any (fun r => r.c == c && r.pa / 32 == sec)
def State.reducing (s : State) (c sec : Nat) : Bool := s.homeQ.any (fun r => r.c == c && r.pa / 32 == sec)

/-- An append of the thread to a tile, which its younger reads must see, is on its way to the store or waits at it (09 R225, 12 R309). -/
def State.appending (s : State) (th : Thread) (svc tid idx : Nat) : Bool :=
  let here (a : Option AppendTo) : Bool := a.any (fun x => x.svc == svc && x.tid == tid && x.idx == idx && x.tag == 0)
  s.storeQ.any (fun q => q.c == th.c && q.t == th.t && q.task == th.task && here q.app) ||
    s.homeQ.any (fun q => q.c == th.c && q.t == th.t && q.task == th.task && here q.app) ||
    s.dies.any (fun p => p.2.defer.any (fun q => q.c == th.c && q.t == th.t && q.task == th.task && q.svc == svc && q.tid == tid &&
      q.idx == idx && q.tag == 0))

/-- The channel in which the word at hand sends its requests: that of its drawer reads, while they wait for slots and then fill (01 R33). -/
def State.chanOf (s : State) (th : Thread) : Vc :=
  match th.issue.sent with
  | some (q, v) => if q = s.cur.e.seq then v else s.vcOf th
  | none => s.vcOf th

/-! ### Bringing sectors -/

/-- The sectors that have arrived for the word at hand. -/
def State.arrivedFor (s : State) (c t : Nat) : List (Nat × BitVec 256) :=
  match s.thread? c t with
  | some th => (match th.issue.inp with
    | some (q, l) => if q = s.cur.e.seq then l else []
    | none => [])
  | none => []

/-- A sector has arrived for the word at hand. -/
def State.arriveFor (s : State) (c t sec : Nat) (v : BitVec 256) : State :=
  s.modThread c t (fun x => { x with issue := { x.issue with inp := some (s.cur.e.seq, s.arrivedFor c t ++ [(sec, v)]) } })

/-- The fill scope of a sector that a load of a task brings; none where the core keeps no line of it (09 R236, 20 R478, R482). -/
def Task.fillScope (k : Task) (d : Desc) (tid idx cls : Nat) (shadow : Bool) : Option Nat :=
  let rs := (k.rangesOn d tid idx).filter (fun r => r.mode = 0)
  if shadow then some 0
  else if cls = 9 || cls = 10 then
    (if rs.isEmpty then none else if cls = 10 && rs.any (fun r => !r.isOpen) then some 4 else some 0)
  else if rs.any (fun r => !r.isOpen) then some 4 else some 0

/-- A drawer read of the word at hand is still on its way (12 R317). -/
def State.reading (s : State) (who : Owner) : Bool :=
  s.links.any (fun p => (p.2.wait ++ p.2.sent).any (fun q => q.who == who))

/-- Asks for the drawer blocks of some sectors, as requests of a class (12 R317). -/
def State.askBlocks (s : State) (die cls : Nat) (who : Owner) (secs : List Nat) : State :=
  ((secs.map (· / 8)).eraseDups).foldl (fun s' b =>
    let q : DReq := { cls := cls, die := die, write := false, pa := 256 * b, who := who, slot := 0 }
    s'.modLink (linkOf (256 * b)) (fun l => { l with wait := l.wait ++ [q] })) s

/-- The state of the links of some sectors, each with its tile: a failed one, one in retraining, one that is not up (12 R321, R322). -/
def State.linkStop (s : State) (d : Desc) (tid : Nat) (secs : List (Nat × Nat)) : Option Stop :=
  let st (sec : Nat) : LinkSt := (s.link (linkOf (32 * sec))).st
  match secs.find? (fun x => st x.2 == .failed) with
  | some x => some (consumeAt d tid x.1 (32 * x.2) 8)
  | none =>
    match secs.find? (fun x => st x.2 == .retraining) with
    | some x => some (.wait (some (.link (faultVal tid 5 (x.1 * d.bytes)))))
    | none => if secs.any (fun x => st x.2 != .up) then some (.wait none) else none

/-- Drawer blocks that an access in place needs are read, or on their way (12 R317, R321), in a channel that the word keeps from then on (01
R33). `secs` are (tile, sector). -/
def State.needBlocks (s : State) (c t : Nat) (v : Vc) (d : Desc) (tid : Nat) (secs : List (Nat × Nat)) : Except Stop (State × Came Unit) :=
  if secs.isEmpty then .ok (s, .here ())
  else
    let asked := match s.thread? c t with
      | some th => th.issue.drw == some s.cur.e.seq
      | none => false
    match s.linkStop d tid secs with
    | some (.wait w) => .ok (s, .held w)
    | some x => .error x
    | none =>
      if !asked then
        .ok ((s.askBlocks (dieOf c) v.cls (.thread c t) (secs.map (·.2))).modThread c t (fun x =>
          { x with issue := { x.issue with drw := some s.cur.e.seq, sent := some (s.cur.e.seq, v) } }), .held none)
      else if s.reading (.thread c t) then .ok (s, .held none) else .ok (s, .here ())

/-- What an access to a sector of a tensor reads carries a poison mark: its data, or for a block type its sideband (19 R467). -/
def State.tainted (s : State) (d : Desc) (sec : Nat) : Bool := s.marked sec || (d.ty = 12 && s.sideMarked (32 * sec))

/-- Brings one sector of a tile for the word at hand: of its thread's own stores to the sector the newest is seen (09 R225). -/
def State.bringOne (s : State) (th : Thread) (v : Vc) (task : Nat) (d : Desc) (tid idx sec : Nat) (fill : Option Nat) :
    Except Stop (State × Came Unit) :=
  let pa := 32 * sec
  let c := th.c
  let t := th.t
  let who := Owner.thread c t
  if (s.arrivedFor c t).any (fun p => p.1 == sec) then .ok (s, .here ())
  else if s.storeQ.any (fun r => r.c == c && r.t == t && r.pa / 32 == sec) then .ok (s, .held none)
  else match (if fill.isSome then (s.core c).l1.find sec else none) with
  | some x =>
    if x.dirty.isSome && x.wmask ≠ BitVec.allOnes 32 && s.tainted d sec then .error (consumeAt d tid idx pa 1)
    else .ok (s.arriveFor c t sec x.data, .here ())
  | none =>
    if (s.storing c sec || s.reducing c sec) && !s.waits.any (·.for who s.cur.e.seq sec) then .ok (s, .held none)
    else if pa / 2 ^ 48 = 9 then
      if s.fab.any (fun f => f.who == who) then
        .ok (s, .held (some (.link (faultVal tid 5 (idx * d.bytes)))))
      else
        let q : FabReq := { id := s.nextFab, pkg := fld (wd pa) 47 38, kind := 0, addr := pa, op := 0, data := 0,
                            mask := BitVec.allOnes 32, who := who, since := s.now, sync := false, corr := s.cur.e.corr,
                            fill := fill.map (fun f => (f, task)) }
        .ok ({ s with fab := s.fab ++ [q], nextFab := s.nextFab + 1 }, .held (some (.link (faultVal tid 5 (idx * d.bytes)))))
    else match s.tryCross who s.cur.e.seq c pa v with
    | .held s1 => .ok (s1, .held none)
    | .over s1 got =>
      match (if s.tainted d sec then none else got.getD (some (s1.sectRead sec))) with
      | none => .error (consumeAt d tid idx pa (memUnit pa))
      | some x =>
        let s2 := s1.arriveFor c t sec x
        .ok (match fill with
          | some f => s2.l1Put c sec v { data := x, fill := f, dirty := none, wmask := 0, task := task, stamp := s.stamps.find sec,
                                         side := if d.ty = 12 then s1.sideGet pa else none }
          | none => s2, .here ())

/-- Brings sectors of tiles: (tile, sector, fill scope). -/
def State.bringAll (s : State) (th : Thread) (v : Vc) (task : Nat) (d : Desc) (tid : Nat) :
    List (Nat × Nat × Option Nat) → Except Stop (State × Came Unit)
  | [] => .ok (s, .here ())
  | (idx, sec, fill) :: r =>
    match s.bringOne th v task d tid idx sec fill with
    | .ok (s1, .here ()) => State.bringAll s1 th v task d tid r
    | .ok (s1, .held w) =>
      if (32 * sec) / 2 ^ 48 = 9 then .ok (s1, .held w)
      else (match State.bringAll s1 th v task d tid r with
        | .ok (s2, .here ()) => .ok (s2, .held w)
        | x => x)
    | .error e => .error e

/-- The stamps against which a load of sectors is tested: the line's where the L1 holds it, else the home's (09 R250). -/
def State.loadStamps (s : State) (c : Nat) (secs : List Nat) : List (Option Stamp) :=
  (secs.filter (fun x => 32 * x / 2 ^ 48 ≤ 8)).map (fun x => match (s.core c).l1.find x with
    | some l => l.stamp
    | none => s.stamps.find x)

/-- The bytes of spans, from the sectors that have arrived. -/
def gather (secs : List (Nat × BitVec 256)) (d : Desc) (at_ : List (Nat × Reach)) : List Span → Nat
  | [] => 0
  | x :: r =>
    let pa := d.pa (baseOf at_ x.idx) x.off
    let v := match secs.find? (fun p => p.1 == pa / 32) with
      | some p => p.2.toNat / 2 ^ (8 * (pa % 32)) % 2 ^ (8 * x.n)
      | none => 0
    v * 2 ^ (8 * x.dst) + gather secs d at_ r

/-- The sectors of spans whose tiles are ready: tile and sector, each once. -/
def spanSecs (d : Desc) (at_ : List (Nat × Reach)) (l : List Span) : List (Nat × Nat) :=
  (l.map (fun x => (x.idx, d.pa (baseOf at_ x.idx) x.off / 32))).eraseDups

/-- A load of spans by the word at hand, all checks made: the bytes as one natural value. A synchronising load at `.gang` or wider
reads at the home and passes the L1 by; the core's own dirty sector is written back first (09 R236). `sync` is its scope. -/
def State.loadSpans (s : State) (th : Thread) (k : Task) (d : Desc) (tid : Nat) (l : List Span) (sync : Option Nat) :
    Except Stop (State × Came Nat) := do
  let (s1, r) ← s.readyTiles th.c th.t k.id d tid .load (d.ty = 12) (tilesOfSpans l)
  match r with
  | .held w => .ok (s1, .held w)
  | .here at_ =>
    let secs := spanSecs d at_ l
    let v := s.chanOf th
    let home := match sync with
      | some sc => decide (1 ≤ sc)
      | none => false
    match (if sync.isNone then s1.raceTest th (s1.loadStamps th.c (secs.map (·.2))) false else none) with
    | some x => .error (.trap 0x09 x)
    | none =>
      if (tilesOfSpans l).any (s1.appending th k.svc tid) then .ok (s1, .held none)
      else
        let s2 := if home then secs.foldl (fun x p => x.l1Clean th.c p.2 v) s1 else s1
        let fills := secs.map (fun p =>
          let sh := match k.held? tid p.1 with
            | some h => k.guarded && h.written
            | none => false
          (p.1, p.2, if home then none else k.fillScope d tid p.1 (32 * p.2 / 2 ^ 48) sh))
        let need := (fills.filter (fun f => 32 * f.2.1 / 2 ^ 48 = 8 && !s2.cached f.2.1 &&
          (f.2.2.isNone || ((s2.core th.c).l1.find f.2.1).isNone) && !(s2.arrivedFor th.c th.t).any (fun p => p.1 == f.2.1)))
        let (s3, r3) ← s2.needBlocks th.c th.t v d tid (need.map (fun f => (f.1, f.2.1)))
        match r3 with
        | .held w => .ok (s3, .held w)
        | .here () =>
          let (s4, r4) ← s3.bringAll th v k.id d tid fills
          match r4 with
          | .held w => .ok (s4, .held w)
          | .here () => .ok (s4, .here (gather (s4.arrivedFor th.c th.t) d at_ l))

/-! ### Stores -/

/-- What an access writes into one sector of a tile. -/
structure Piece where
  idx : Nat
  /-- Sector of the tile, as stored in the frame. -/
  sect : Nat
  data : Nat
  mask : Nat
  side : Option (BitVec 32)
  deriving DecidableEq, Repr

/-- Puts `n` bytes into the piece of their sector; where bytes coincide, the later stand (10 R272). -/
def addPiece (idx sect byte n v : Nat) : List Piece → List Piece
  | [] => [{ idx := idx, sect := sect, data := v * 2 ^ (8 * byte), mask := (2 ^ n - 1) * 2 ^ byte, side := none }]
  | p :: r =>
    if p.idx = idx && p.sect = sect then
      let m := (2 ^ n - 1) * 2 ^ byte
      let bits := (2 ^ (8 * n) - 1) * 2 ^ (8 * byte)
      { p with data := (p.data ||| bits) ^^^ bits ||| v * 2 ^ (8 * byte), mask := p.mask ||| m } :: r
    else p :: addPiece idx sect byte n v r

/-- The pieces of spans of a value, in ascending order of the spans. -/
def piecesOf (d : Desc) (v : Nat) (l : List Span) : List Piece :=
  l.foldl (fun ps x =>
    let o := swz d.swz x.off
    addPiece x.idx (o / 32) (o % 32) x.n (v / 2 ^ (8 * x.dst) % 2 ^ (8 * x.n)) ps) []

/-- Bytes of a sector, with some of them replaced. -/
def mergeSect (old : BitVec 256) (data mask : Nat) : BitVec 256 :=
  BitVec.ofNat 256 ((Memory.putMask (Memory.putN [] 0 32 old.toNat) 0 32 data mask).getN 0 32)

/-- The frame in which the tiles of a task lie that an access reaches in their own frames, not in a shadow: by `tileKey`. -/
def Task.ownTile (k : Task) (tid idx base : Nat) : Option Nat :=
  match k.held? tid idx with
  | some h => if frameBase h.frame = base then some (tileKey k.svc tid idx) else none
  | none => none

/-- A store to a peer's tile (20 R486). -/
def State.storePeer (s : State) (th : Thread) (pa : Nat) (p : Piece) (sync : Bool) : State :=
  let q : FabReq := { id := s.nextFab, pkg := fld (wd pa) 47 38, kind := 1, addr := pa / 32 * 32, op := 0, data := BitVec.ofNat 256 p.data,
                      mask := BitVec.ofNat 32 p.mask, who := .thread th.c th.t, since := s.now, sync := sync, corr := s.cur.e.corr,
                      fill := none }
  { s with fab := s.fab ++ [q], nextFab := s.nextFab + 1 }.modCore th.c (fun z => { z with l1 := z.l1.del (pa / 32) })

/-- A store into the L1: the sector becomes dirty at `.grp` (09 R236). -/
def State.storeL1 (s : State) (th : Thread) (k : Task) (sec : Nat) (v : Vc) (p : Piece) : State :=
  let stamp := s.stampOf th
  let mask := BitVec.ofNat 32 p.mask
  let old := (s.sideAt th.c (32 * sec)).getD 0
  let side (x : Option (BitVec 32)) : Option (BitVec 32) := match p.side with
    | some v => some (mergeSide old mask v)
    | none => x
  s.l1Put th.c sec v (match (s.core th.c).l1.find sec with
    | some x => { x with data := mergeSect x.data p.data p.mask, dirty := some 0, wmask := x.wmask ||| mask, side := side x.side,
                         stamp := if stamp.isSome then stamp else x.stamp }
    | none => { data := mergeSect (s.sectRead sec) p.data p.mask, fill := 0, dirty := some 0, wmask := mask, side := side none, task := k.id,
                stamp := stamp })

/-- A write of the word at hand on its way to its home, or to the host. -/
def State.storeReq (s : State) (th : Thread) (pa : Nat) (v : Vc) (p : Piece) (sync : Bool) (tile : Option Nat) (rel : Option Leaves)
    (app : Option AppendTo) : State :=
  let q : StoreReq := { n := s.nextMsg, urgent := v.urgent, fast := false, since := s.now, tile := tile, rel := rel, pa := pa / 32 * 32,
                        data := BitVec.ofNat 256 p.data, mask := BitVec.ofNat 32 p.mask, c := th.c, t := th.t, cls := v.cls,
                        host := pa / 2 ^ 48 = 10, sync := sync, side := p.side, wb := false, bad := false, task := th.task, seq := s.cur.e.seq,
                        corr := s.cur.e.corr, app := app, eng := none }
  { s with storeQ := s.storeQ ++ [q], nextMsg := s.nextMsg + 1 }

/-- A store sent to its home slice, or to the host: the core's own dirty bytes go before it (09 R236, 20 R478). -/
def State.storeHome (s : State) (th : Thread) (pa : Nat) (v : Vc) (p : Piece) (sync : Bool) (tile : Option Nat) (rel : Option Leaves) : State :=
  let sec := pa / 32
  let stamp := s.stampOf th
  ((s.l1Clean th.c sec v).storeReq th pa v p sync tile rel none).modCore th.c (fun z => { z with l1 := match z.l1.find sec with
    | some x => if stamp.isSome && !sync then z.l1.set sec { x with stamp := stamp } else z.l1
    | none => z.l1 })

/-- A store stays in the L1: an ordinary one at `.grp` (09 R236), to memory of this package. -/
def inL1 (pa scope : Nat) (sync : Bool) : Bool := scope = 0 && !sync && decide (pa / 2 ^ 48 ≤ 8)

/-- An ordinary or synchronising store to a sector of a frame (09 R236, 20 R478, R486). -/
def State.storeSector (s : State) (th : Thread) (k : Task) (pa : Nat) (v : Vc) (p : Piece) (scope : Nat) (sync : Bool) (tile : Option Nat)
    (rel : Option Leaves) : State :=
  if pa / 2 ^ 48 = 9 then (s.storePeer th pa p sync).putLeaves rel
  else if inL1 pa scope sync then s.storeL1 th k (pa / 32) v p
  else s.storeHome th pa v p sync tile rel

/-- A read for a fill of a sector's block is on its way from the drawer, but for a fetch (12 R302). -/
def State.filling (s : State) (sec : Nat) : Bool :=
  s.links.any (fun p => (p.2.wait ++ p.2.sent).any (fun q => !q.write && q.pa / 256 == sec / 8 && (match q.who with
    | .fetch _ _ _ => false
    | _ => true)))

/-- The address of a sector of a tile that lies in the drawer: where a write of it meets a slice that holds it, or a fill (12 R302). -/
def Task.drawerSect? (k : Task) (tid idx sect : Nat) : Option Nat :=
  match k.held? tid idx with
  | some h => if resid? h.frame true = some .drawer then some (frameBase h.frame + 32 * sect) else none
  | none => none

/-- Where a piece goes: to an address of a frame, or, with its tag, to escrow (12 R302). -/
inductive Goes where
  | frame (pa : Nat)
  | escrow (tag : Nat)
  deriving DecidableEq, Repr

/-- Where a piece of a write or reduction goes: an untagged one to a sector of a drawer tile that its slice holds is performed there (12
R302). -/
def State.goes (s : State) (k : Task) (tid : Nat) (at_ : List (Nat × Reach)) (p : Piece) : Goes :=
  match reachOf at_ p.idx with
  | some (.append tag) =>
    (match (if tag = 0 then k.drawerSect? tid p.idx p.sect else none) with
    | some pa => if s.cached (pa / 32) then .frame pa else .escrow tag
    | none => .escrow tag)
  | _ => .frame (baseOf at_ p.idx + 32 * p.sect)

/-- The piece meets a fill of its sector on its way: it waits for that (12 R302). -/
def State.meetsFill (s : State) (k : Task) (tid : Nat) (at_ : List (Nat × Reach)) (p : Piece) : Bool :=
  match reachOf at_ p.idx with
  | some (.append 0) => (k.drawerSect? tid p.idx p.sect).any (fun pa => s.filling (pa / 32))
  | _ => false

/-- The sector of a piece, as the frame that its tile has names it. -/
def Task.sectorOf (k : Task) (tid : Nat) (at_ : List (Nat × Reach)) (p : Piece) : Nat :=
  (match reachOf at_ p.idx with
  | some (.frame b) => b
  | _ => match k.held? tid p.idx with
    | some h => frameBase h.frame
    | none => 0) / 32 + p.sect

/-- The log to which a piece is appended. -/
def Piece.appendTo (p : Piece) (svc tid tag : Nat) : AppendTo := { svc := svc, tid := tid, idx := p.idx, sect := p.sect, tag := tag }

/-- An append of the word at hand, the core's own copy of the sector having gone: it is made at once where its request crosses, else it is
posted as `post` says (11 R279, R294; 12 R302). -/
def State.sendAppend (s : State) (th : Thread) (d : Desc) (pa : Nat) (v : Vc) (q : Deferred) (rel : Option Leaves) (post : State → State) : State :=
  let y := s.l1Yield th.c (pa / 32) v
  if y.crosses th.c pa v then ((y.crossTo th.c pa v).appendOr d q).putLeaves rel else post y

/-- What an append of the word at hand brings to the store. -/
def State.deferredOf (s : State) (th : Thread) (a : AppendTo) (o : Nat × Nat) (mask : BitVec 32) (data : BitVec 256) (v : Vc) (sync : Bool) :
    Deferred :=
  { svc := a.svc, tid := a.tid, idx := a.idx, sect := a.sect, op := o.1, ty := o.2, mask := mask, data := data, tag := a.tag,
    epc := s.cur.e.addr, c := th.c, t := th.t, task := th.task, seq := s.cur.e.seq, sync := sync, cls := v.cls, corr := s.cur.e.corr }

/-- The pieces that go to frames: tile and sector. -/
def State.framePieces (s : State) (k : Task) (tid : Nat) (at_ : List (Nat × Reach)) (ps : List Piece) : List (Nat × Nat) :=
  ps.filterMap (fun p => match s.goes k tid at_ p with
    | .frame pa => some (p.idx, pa / 32)
    | .escrow _ => none)

/-- A store of pieces by the word at hand, all checks made (09 R223, 10 R269): into frames, or appended to escrow, behind the thread's own
appends to a tile (09 R225); in a drawer frame once the blocks are there (12 R317). `rel`: what it leaves as a release, at a location whose home
the last one gives. -/
def State.storePieces (s : State) (th : Thread) (k : Task) (d : Desc) (tid : Nat) (ps : List Piece) (scope : Nat) (sync : Bool)
    (rel : Option Leaves) : Except Stop (State × Came Unit) := do
  let side := ps.any (·.side.isSome)
  let (s0, r) ← s.readyTiles th.c th.t k.id d tid .store side ((ps.map (·.idx)).eraseDups)
  match r with
  | .held w => .ok (s0, .held w)
  | .here at_ =>
    let v := s.chanOf th
    let k0 := (s0.task? k.id).getD k
    let far := (s0.framePieces k0 tid at_ ps).filter (fun x => 32 * x.2 / 2 ^ 48 = 8 && !s0.cached x.2 &&
      !(inL1 0 scope sync && ((s0.core th.c).l1.find x.2).isSome))
    let (s1, r1) ← s0.needBlocks th.c th.t v d tid far
    match r1 with
    | .held w => .ok (s1, .held w)
    | .here () =>
      let k1 := (s1.task? k.id).getD k
      let secs := (ps.map (k1.sectorOf tid at_)).filter (fun x => 32 * x / 2 ^ 48 ≤ 8)
      if ps.any (s1.meetsFill k1 tid at_) || secs.any (fun x => s1.reducing th.c x) ||
          (s1.framePieces k1 tid at_ ps).any (fun x => s1.appending th k.svc tid x.1) then .ok (s1, .held none)
      else if inL1 0 scope sync && secs.any (fun x => s1.storing th.c x) then .ok (s1, .held none)
      else match (if sync then none else s1.raceTest th (secs.map (fun x => s1.stamps.find x)) true) with
      | some x => .error (.trap 0x09 x)
      | none =>
        let s2 := ps.foldl (fun x p =>
          match x.goes k1 tid at_ p with
          | .escrow tag =>
            let a := p.appendTo k.svc tid tag
            let pa := 32 * k1.sectorOf tid at_ p
            x.sendAppend th d pa v (s.deferredOf th a (0, 0) (BitVec.ofNat 32 p.mask) (BitVec.ofNat 256 p.data) v sync) rel
              (fun y => y.storeReq th pa v p sync none rel (some a))
          | .frame pa =>
            let near := match reachOf at_ p.idx with
              | some (.frame _) => true
              | _ => false
            x.storeSector th k pa v p (if near then scope else max 1 scope) sync (k1.ownTile tid p.idx (pa - 32 * p.sect)) rel) s1
        .ok (if sync then s2 else s2.stampSectors th secs, .here ())

/-! ### Reductions and atomics -/

/-- A reduction sent to a peer (20 R486). -/
def State.redPeer (s : State) (th : Thread) (pa op : Nat) (data : BitVec 256) (mask : BitVec 32) : State :=
  let g : FabReq := { id := s.nextFab, pkg := fld (wd pa) 47 38, kind := 3, addr := pa, op := op, data := data, mask := mask,
                      who := .thread th.c th.t, since := s.now, sync := true, corr := s.cur.e.corr, fill := none }
  { s with fab := s.fab ++ [g], nextFab := s.nextFab + 1 }.modCore th.c (fun z => { z with l1 := z.l1.del (pa / 32) })

/-- A reduction of the word at hand on its way to its home. -/
def State.redReq (s : State) (th : Thread) (pa : Nat) (v : Vc) (o : Nat × Nat) (data : BitVec 256) (mask : BitVec 32) (tile : Option Nat)
    (rel : Option Leaves) (val : Word) (app : Option AppendTo) : State :=
  let h : HomeReq := { n := s.nextMsg, urgent := v.urgent, fast := false, since := s.now, tile := tile, rel := rel, epc := s.cur.e.addr,
                       val := val, pa := pa, op := o.1, ty := o.2, mask := mask, data := data, c := th.c, t := th.t, cls := v.cls,
                       task := th.task, seq := s.cur.e.seq, corr := s.cur.e.corr, app := app }
  { s with homeQ := s.homeQ ++ [h], nextMsg := s.nextMsg + 1 }

/-- A reduction posted to its home: the core's own copy goes first (11 R284). -/
def State.redHome (s : State) (th : Thread) (pa : Nat) (v : Vc) (o : Nat × Nat) (data : BitVec 256) (mask : BitVec 32) (tile : Option Nat)
    (rel : Option Leaves) (val : Word) : State :=
  (s.l1Yield th.c (pa / 32) v).redReq th pa v o data mask tile rel val none

/-- Reductions of pieces by the word at hand, all checks made (11 R291, R292): posted to the homes, sent to a peer, or appended, behind the
thread's own that are on their way to homes (09 R225). `p` is the operation code of 11 Table 11.3; `rel` is what the first leaves. -/
def State.reducePieces (s : State) (th : Thread) (k : Task) (d : Desc) (tid : Nat) (ps : List Piece) (p : Nat) (rel : Option Leaves) :
    Except Stop (State × Came Unit) := do
  let o := opCode p
  let (s1, r) ← s.readyTiles th.c th.t k.id d tid (.red p) false ((ps.map (·.idx)).eraseDups)
  match r with
  | .held w => .ok (s1, .held w)
  | .here at_ =>
    let k1 := (s1.task? k.id).getD k
    let v := s.chanOf th
    let secs := ps.map (k1.sectorOf tid at_)
    let own := s1.homeQ.any (fun q => q.c == th.c && q.t == th.t)
    let frames := s1.framePieces k1 tid at_ ps
    if ps.any (s1.meetsFill k1 tid at_) || secs.any (fun x => s1.storing th.c x) || frames.any (fun x => s1.appending th k.svc tid x.1) ||
        (own && frames.any (fun x => 32 * x.2 / 2 ^ 48 = 9)) then .ok (s1, .held none)
    else
      .ok (ps.zipIdx.foldl (fun x z =>
        let q := z.1
        let rel := if z.2 = 0 then rel else none
        let mask := BitVec.ofNat 32 q.mask
        let data := BitVec.ofNat 256 q.data
        let val := faultVal tid 6 (q.idx * d.bytes)
        match x.goes k1 tid at_ q with
        | .escrow tag =>
          let a := q.appendTo k.svc tid tag
          let pa := 32 * k1.sectorOf tid at_ q
          x.sendAppend th d pa v (s.deferredOf th a o mask data v true) rel (fun y => y.redReq th pa v o data mask none rel val (some a))
        | .frame pa =>
          if pa / 2 ^ 48 = 9 then (x.redPeer th pa p data mask).putLeaves rel
          else x.redHome th pa v o data mask (k1.ownTile tid q.idx (pa - 32 * q.sect)) rel val) s1, .here ())

/-- The bytes of a value-returning atomic. -/
structure AtomicAt where
  idx : Nat
  off : Nat
  n : Nat
  deriving DecidableEq, Repr

/-- A value-returning atomic of the word at hand, all checks made (11 R284, R290): its old value. `f` gives the new bytes, if any
are written; `p`, `x` and `y` say the same to a peer. -/
def State.atomicAt (s : State) (th : Thread) (k : Task) (d : Desc) (tid : Nat) (a : AtomicAt) (f : Nat → Option Nat) (p x y : Nat) :
    Except Stop (State × Came Nat) := do
  let (s1, r) ← s.readyTiles th.c th.t k.id d tid .atomic false [a.idx]
  match r with
  | .held w => .ok (s1, .held w)
  | .here at_ =>
    let pa := d.pa (baseOf at_ a.idx) a.off
    let sec := pa / 32
    let old (v : BitVec 256) : Nat := v.toNat / 2 ^ (8 * (pa % 32)) % 2 ^ (8 * a.n)
    if pa / 2 ^ 48 = 9 then
      match (s1.arrivedFor th.c th.t).find? (fun q => q.1 == sec) with
      | some q => .ok (s1.modCore th.c (fun z => { z with l1 := z.l1.del sec }), .here (old q.2))
      | none =>
        let why := some (.link (faultVal tid 5 (a.idx * d.bytes)))
        if s1.fab.any (fun g => g.who == .thread th.c th.t) then .ok (s1, .held why)
        else
          let q : FabReq := { id := s1.nextFab, pkg := fld (wd pa) 47 38, kind := 2, addr := pa, op := p,
                              data := BitVec.ofNat 256 (x + 2 ^ 64 * y), mask := BitVec.ofNat 32 ((2 ^ a.n - 1) * 2 ^ (pa % 32)),
                              who := .thread th.c th.t, since := s1.now, sync := true, corr := s1.cur.e.corr, fill := none }
          .ok ({ s1 with fab := s1.fab ++ [q], nextFab := s1.nextFab + 1 }, .held why)
    else
      let (s2, r2) ← s1.needBlocks th.c th.t (s1.chanOf th) d tid (if pa / 2 ^ 48 = 8 && !s1.cached sec then [(a.idx, sec)] else [])
      match r2 with
      | .held w => .ok (s2, .held w)
      | .here () =>
        let v := s2.chanOf th
        let s3 := s2.l1Yield th.c sec v
        if s3.storing th.c sec || s3.reducing th.c sec || s3.appending th k.svc tid a.idx then .ok (s3, .held none)
        else match s3.tryCross (.thread th.c th.t) s3.cur.e.seq th.c pa v with
        | .held s4 => .ok (s4, .held none)
        | .over s4 _ =>
          if s4.marked sec then .error (consumeAt d tid a.idx pa (memUnit pa))
          else
            let o := old (s4.sectRead sec)
            .ok (match f o with
              | some v => s4.sectWrite sec (BitVec.ofNat 256 (v * 2 ^ (8 * (pa % 32)))) (BitVec.ofNat 32 ((2 ^ a.n - 1) * 2 ^ (pa % 32)))
              | none => s4, .here o)

end Sys2Proof.Machine
end

