-- ==== Sys2Proof/Machine/TensorWords.lean ====
section
/-!
DEFINITION. The words on tensor space: coordinates (10 R268), loads, stores, gathers, scatters and prefetch (10 R269-R273), LDAQ and
STRL (09 R242), atomics and reductions (11 R287-R292); and the steps of the homes: ATOMIC_APPLY, HOME_SLICE_WRITE, HOST_STORE_ACK.
-/

namespace Sys2Proof.Machine

/-! ### Coordinate registers -/

/-- No k register that a word reads carries a poison mark (19 R467). -/
def Thread.kClean (th : Thread) (ks : List (BitVec 3)) : Except Stop Unit := th.clean (ks.map (64 + ·.toNat))

/-- A word that reads k registers and writes one. -/
def kRegWord (s : State) (srcs : List (BitVec 5)) (ks : List (BitVec 3)) (d : BitVec 3) (f : Thread → List Nat) : Out :=
  accessWord s (fun th => do
    th.aReady s.now s.cur.e.seq srcs
    th.kClean ks
    let v : Tab (BitVec 32) := ((f th).zipIdx.map (fun p => (p.2, BitVec.ofNat 32 p.1)))
    .ok (s.setThread ((th.aPop srcs).putK d v)))

/-- KSET (10 R268). -/
def execKset (d : BitVec 3) (a : BitVec 5) (p : BitVec 2) (s : State) : Out :=
  kRegWord s [a] [d] d (fun th =>
    setAt (setAt (th.coords d.toNat) (2 * p.toNat) (fld (th.aVal a) 31 0)) (2 * p.toNat + 1) (fld (th.aVal a) 63 32))

/-- KADD (10 R268). -/
def execKadd (d a b : BitVec 3) (s : State) : Out :=
  kRegWord s [] [a, b] d (fun th => ((th.coords a.toNat).zip (th.coords b.toNat)).map (fun p => p.1 + p.2))

/-- KADDI (10 R268): the delta is the merged immediate shifted right by 3. -/
def execKaddi (d a : BitVec 3) (e : BitVec 10) (j : BitVec 3) (pre : Option (BitVec 29)) (s : State) : Out :=
  kRegWord s [] [a] d (fun th =>
    let c := th.coords a.toNat
    setAt c j.toNat (c.getD j.toNat 0 + ((immS e pre).setWidth 32).toNat))

/-- KCLR (10 R268). -/
def execKclr (d : BitVec 3) (s : State) : Out := kRegWord s [] [] d (fun _ => [0, 0, 0, 0, 0, 0])

/-! ### What tensor words share -/

/-- A tensor word: its descriptor is checked first (10 R269). -/
def tensorWord (s : State) (srcs : List (BitVec 5)) (a : BitVec 5) (kr : BitVec 3) (room : Thread → Except Stop Unit)
    (body : Thread → Task → Nat → Desc → Held?) : Out :=
  accessHold s (fun th => do
    th.aReady s.now s.cur.e.seq srcs
    room th
    th.kClean [kr]
    let (tid, d) ← s.tensorOf th (th.aVal a)
    match s.task? th.task with
    | none => .error (.wait none)
    | some k => body th k tid d)

/-- Goes on with what an access of a thread has found. The watchpoints of its positions are tested first (21 R504), and a record is written
once, with what the access does. -/
def State.performed {α : Type} (s : State) (th : Thread) (tid dir : Nat) (secs : List Nat) (r : Except Stop (State × Came α))
    (f : State → α → Held?) : Held? := do
  let _ ← s.watchTensor th tid dir secs
  match ← r with
  | (s1, .held w) => .ok (s1, some w)
  | (s1, .here v) => do
    let s2 ← s1.watchTensor th tid dir secs
    f s2 v

/-- One element of `n` bytes: coordinates, alignment, lease, then the types that take FORMAT (10 R269, 09 R242, 11 R289). -/
def oneElem (k : Task) (tid : Nat) (d : Desc) (c : List Nat) (n : Nat) (a : Access) (bad : Bool) :
    Except Stop (Nat × Nat) := do
  let r ← d.elem tid c n
  k.checkTile d tid r.1 a
  if bad then .error (formatTrap d tid r.1) else .ok r

/-- The elements of a run along place 0 that lie within the extent, as bytes of a vector (10 R271): pairs of 4-bit elements share a
byte, and blocks of a type-12 tensor go as 16 bytes. -/
def Desc.run (d : Desc) (c : List Nat) : List Span :=
  let j := d.dim 0
  let c0 := c.getD j 0
  let w := elemBits d.ty
  let e := min (2048 / w) (d.ext.getD j 0 - c0)
  let step := if d.ty = 12 then 32 else if w = 4 then 2 else 1
  let n := if d.ty = 12 then 16 else if w = 4 then 1 else w / 8
  (List.range ((e + step - 1) / step)).map (fun i =>
    let r := d.loc (setAt c j (c0 + step * i))
    { dst := n * i, idx := r.1, off := r.2, n := n })

/-- The bits of a vector that a run's elements occupy. -/
def Desc.runMask (d : Desc) (c : List Nat) (v : Nat) : Nat :=
  let j := d.dim 0
  let w := elemBits d.ty
  v % 2 ^ (w * min (2048 / w) (d.ext.getD j 0 - c.getD j 0))

/-- The checks of a run's start element (10 R271). -/
def Desc.runStart (d : Desc) (tid : Nat) (c : List Nat) : Except Stop Unit := do
  let _ ← d.elem tid c 1
  let m := if d.ty = 12 then 32 else if elemBits d.ty = 4 then 2 else 1
  if c.getD (d.dim 0) 0 % m ≠ 0 then .error (.trap 0x05 (faultVal tid 0 (d.pos c))) else .ok ()

/-- The frame whose sectors a type-12 access meets: a shadow for a staged write, the tile's frame otherwise. -/
def Task.frameFor (k : Task) (tid idx : Nat) (write : Bool) : Nat :=
  match k.held? tid idx with
  | none => 0
  | some h => if k.guarded && (h.written || write) then h.shadow.getD (frameBase h.frame) else frameBase h.frame

/-- The checks of the tiles that a run touches, in order: lease, then minted sectors for a type-12 tensor (10 R271, 03 R93). -/
def State.runTiles (s : State) (c : Nat) (k : Task) (tid : Nat) (d : Desc) (a : Access) (l : List Span) : Except Stop Unit :=
  (tilesOfSpans l).foldlM (fun _ idx => do
    k.checkTile d tid idx a
    if d.ty = 12 && (l.filter (·.idx == idx)).any (fun x => (s.sideAt c (d.pa (k.frameFor tid idx (a ≠ .load)) x.off)).isNone) then
      .error (formatTrap d tid idx)
    else .ok ()) ()

/-- Sideband of the 16-byte block at a physical address, from that of its sector. -/
def sideOf (v : Option (BitVec 32)) (pa : Nat) : Nat := (v.getD 0).toNat / 2 ^ (16 * (pa / 16 % 2)) % 65536

/-- Sideband of the 16-byte block at a physical address, at its home. -/
def State.blockSide (s : State) (pa : Nat) : Nat := sideOf (s.sideGet pa) pa

/-! ### Loads and stores -/

/-- TLD (10 R270). -/
def execTld (d a : BitVec 5) (kr : BitVec 3) (x : BitVec 1) (n : BitVec 2) (s : State) : Out :=
  let nb := 2 ^ n.toNat
  tensorWord s [a] a kr (·.aRoom d) (fun th k tid ds => do
    let (idx, o) ← oneElem k tid ds (th.coords kr.toNat) nb .load (11 ≤ ds.ty)
    let l : List Span := [{ dst := 0, idx := idx, off := o, n := nb }]
    s.performed th tid 1 (posSecs ds l) (s.loadSpans th k ds tid l none) (fun s1 v =>
      let w : Word := if x = 1 then (BitVec.ofNat (8 * nb) v).signExtend 64 else wd v
      s1.finish th [a] (some (d, w)) none))

/-- TST (10 R270). -/
def execTst (d a : BitVec 5) (kr : BitVec 3) (sc : BitVec 3) (n : BitVec 2) (s : State) : Out :=
  let nb := 2 ^ n.toNat
  tensorWord s [a, d] a kr (fun _ => .ok ()) (fun th k tid ds => do
    let (idx, o) ← oneElem k tid ds (th.coords kr.toNat) nb .store (11 ≤ ds.ty)
    let l : List Span := [{ dst := 0, idx := idx, off := o, n := nb }]
    s.performed th tid 2 (posSecs ds l) (s.storePieces th k ds tid (piecesOf ds (th.aVal d).toNat l) sc.toNat false none) (fun s1 _ =>
      s1.finish th [a, d] none none))

/-- TLDV (10 R271). -/
def execTldv (d a : BitVec 5) (kr : BitVec 3) (s : State) : Out :=
  tensorWord s [a] a kr (·.lqRoom d) (fun th k tid ds => do
    if d = 29 && ds.ty = 12 then .error (.trap 0x01 (s.cur.e.ins.encodeWord.setWidth 64)) else .ok ()
    if ds.ty = 12 then th.lqRoom 29 else .ok ()
    let c := th.coords kr.toNat
    ds.runStart tid c
    let l := ds.run c
    s.runTiles th.c k tid ds .load l
    s.performed th tid 1 (posSecs ds l) (s.loadSpans th k ds tid l none) (fun s1 v => do
      let (s2, _) ← s1.finish th [a] none none
      let s3 := s2.deliverLq th.c th.t d (BitVec.ofNat 2048 (ds.runMask c v))
      .ok (if ds.ty = 12 then s3.deliverLq th.c th.t 29 (BitVec.ofNat 2048 ((l.map (fun x =>
          let pa := ds.pa (k.frameFor tid x.idx false) x.off
          sideOf (s1.sideAt th.c pa) pa * 2 ^ x.dst)).foldl (· + ·) 0))
        else s3, none)))

/-- Two entries of `sq` can pop. -/
def Thread.sqReady2 (th : Thread) (now : Nat) : Except Stop Unit :=
  if headReady now th.q.sq && headReady now th.q.sq.tail then .ok () else .error (.wait (some (.block 30)))

/-- Sideband of the pieces of a store to a type-12 tensor: block k's at bytes 2k and 2k + 1 of a vector (10 R271). -/
def withSide (d : Desc) (l : List Span) (v : Nat) (ps : List Piece) : List Piece :=
  ps.map (fun p => { p with side := some (BitVec.ofNat 32 ((l.map (fun x =>
    let o := swz d.swz x.off
    if x.idx = p.idx && o / 32 = p.sect then v / 2 ^ x.dst % 65536 * 2 ^ (16 * (o / 16 % 2)) else 0)).foldl (· + ·) 0)) })

/-- TSTV (10 R271). -/
def execTstv (a : BitVec 5) (kr : BitVec 3) (sc : BitVec 3) (s : State) : Out :=
  tensorWord s [a] a kr (·.sqReady s.now) (fun th k tid ds => do
    if ds.ty = 12 then th.sqReady2 s.now else .ok ()
    let c := th.coords kr.toNat
    ds.runStart tid c
    let l := ds.run c
    s.runTiles th.c k tid ds .store l
    let ps := piecesOf ds (ds.runMask c (headVal 0 th.q.sq).toNat) l
    let ps1 := if ds.ty = 12 then withSide ds l (headVal 0 th.q.sq.tail).toNat ps else ps
    s.performed th tid 2 (posSecs ds l) (s.storePieces th k ds tid ps1 sc.toNat false none) (fun s1 _ => do
      let (s2, _) ← s1.finish th [a] none none
      .ok (s2.modThread th.c th.t (fun x => if ds.ty = 12 then x.sqPop.sqPop else x.sqPop), none)))

/-! ### Gathers and scatters -/

/-- The checks of the elements of a gather or scatter, in order, and their bytes (10 R272). With every index skipped no element is checked, so
that not even a type without single elements traps. Log entry 90, DESIGN CHOICE. -/
def gatherSpans (k : Task) (tid : Nat) (d : Desc) (c : List Nat) (j : Nat) (a : Access) : List (Nat × Nat) →
    Except Stop (List Span)
  | [] => .ok []
  | (i, x) :: r => do
    if x = 2 ^ 32 - 1 then gatherSpans k tid d c j a r
    else
      let p ← oneElem k tid d (setAt c j ((c.getD j 0 + x) % 2 ^ 32)) 1 a (11 ≤ d.ty)
      let l ← gatherSpans k tid d c j a r
      let n := elemBits d.ty / 8
      .ok ({ dst := n * i, idx := p.1, off := p.2, n := n } :: l)

/-- The index lanes of a gather or scatter (10 R272). -/
def lanesOf (d : Desc) (v : Vec) : List (Nat × Nat) :=
  (List.range (min 64 (2048 / elemBits d.ty))).map (fun i => (i, v.toNat / 2 ^ (32 * i) % 2 ^ 32))

/-- A dimension at or above the rank (10 R272). -/
def Desc.dimOk (d : Desc) (tid : Nat) (c : List Nat) (j : Nat) : Except Stop Unit :=
  if d.rank ≤ j then .error (.trap 0x11 (faultVal tid 0 (d.pos c))) else .ok ()

/-- TLDG (10 R272). -/
def execTldg (d a : BitVec 5) (kr j : BitVec 3) (s : State) : Out :=
  tensorWord s [a] a kr (fun th => do th.vaqReady s.now; th.lqRoom d) (fun th k tid ds => do
    let c := th.coords kr.toNat
    ds.dimOk tid c j.toNat
    let l ← gatherSpans k tid ds c j.toNat .load (lanesOf ds (headVal 0 th.q.vaq))
    s.performed th tid 1 (posSecs ds l) (s.loadSpans th k ds tid l none) (fun s1 v => do
      let (s2, _) ← s1.finish th [a] none none
      .ok ((s2.modThread th.c th.t (·.vaqPop)).deliverLq th.c th.t d (BitVec.ofNat 2048 v), none)))

/-- TSTG (10 R272). -/
def execTstg (a : BitVec 5) (kr sc j : BitVec 3) (s : State) : Out :=
  tensorWord s [a] a kr (fun th => do th.vaqReady s.now; th.sqReady s.now) (fun th k tid ds => do
    let c := th.coords kr.toNat
    ds.dimOk tid c j.toNat
    let l ← gatherSpans k tid ds c j.toNat .store (lanesOf ds (headVal 0 th.q.vaq))
    s.performed th tid 2 (posSecs ds l) (s.storePieces th k ds tid (piecesOf ds (headVal 0 th.q.sq).toNat l) sc.toNat false none) (fun s1 _ => do
      let (s2, _) ← s1.finish th [a] none none
      .ok (s2.modThread th.c th.t (fun x => x.vaqPop.sqPop), none)))

/-! ### Prefetch -/

/-- The sectors of a near frame are brought to their homes in the shared cache, as far as their requests cross (10 R273). -/
def State.warmFrame (s : State) (c base n : Nat) (v : Vc) : State :=
  (List.range n).foldl (fun z i => if z.crosses c (base + 32 * i) v then z.cross c (base + 32 * i) v else z) s

/-- The blocks of a drawer frame are asked for, toward their homes: of each one whose link is up and that is not there (10 R273, 12 R317). -/
def State.warmDrawer (s : State) (c base n : Nat) (v : Vc) : State :=
  s.askBlocks (dieOf c) v.cls .none (((List.range n).map (fun i => base / 32 + i)).filter (fun x =>
    !s.cached x && (s.link (linkOf (32 * x))).st == .up))

/-- What a TPF does, if every check passes (10 R273): the sectors of a tile go toward the shared cache of their homes, of a drawer tile with no
untagged entry in its log as its blocks come (12 R302); with promote, the fetch of a drawer tile is asked for instead. -/
def State.prefetch (s : State) (th : Thread) (x : Word) (c : List Nat) (promote : Bool) : State :=
  match s.tensorOf th x, s.task? th.task with
  | .ok (tid, d), some k =>
    match oneElem k tid d c 1 .load false with
    | .ok (idx, _) =>
      (match k.held? tid idx with
      | none => s
      | some h => match resid? h.frame true with
        | some .resident => s.warmFrame th.c (frameBase h.frame) (d.bytes / 32) (s.vcOf th)
        | some .drawer =>
          if promote then s.askFetch k.svc tid idx
          else if s.untagged d idx then s else s.warmDrawer th.c (frameBase h.frame) (d.bytes / 32) (s.vcOf th)
        | _ => s)
    | .error _ => s
  | _, _ => s

/-- TPF (10 R273). -/
def execTpf (a : BitVec 5) (kr : BitVec 3) (p : BitVec 1) (s : State) : Out :=
  accessWord s (fun th => do
    th.aClean [a]
    th.kClean [kr]
    .ok (s.prefetch th (th.aVal a) (th.coords kr.toNat) (p = 1)))

/-! ### Synchronising accesses -/

/-- Where the detector keeps a table for bytes of a tile: by service, tensor and position, in the stamp store of the slice that is home to
the bytes (09 R248; log entry 32, DEDUCED). -/
def Task.keptOf (k : Task) (d : Desc) (tid idx off : Nat) : KeptAt :=
  .mem (tileKey k.svc tid idx * 2 ^ 21 + off / 8 * 8) (storeOf (d.pa (k.frameFor tid idx false) off))

/-- LDAQ (09 R242). -/
def execLdaq (d a : BitVec 5) (kr sc : BitVec 3) (w : BitVec 1) (s : State) : Out :=
  let n := wSize w
  tensorWord s [a] a kr (·.aRoom d) (fun th k tid ds => do
    let (idx, o) ← oneElem k tid ds (th.coords kr.toNat) n .load (ds.ty = 12)
    let l : List Span := [{ dst := 0, idx := idx, off := o, n := n }]
    let _ ← s.watchTensor th tid 1 (posSecs ds l)
    s.inOrder th
    s.performed th tid 1 (posSecs ds l) (s.loadSpans th k ds tid l (some sc.toNat)) (fun s1 v =>
      (s1.acquire th sc.toNat (k.keptOf ds tid idx o)).finish th [a] (some (d, wd v)) (some (wd v))))

/-- STRL (09 R242): what it leaves for the detector goes with it, and stands at its location once it is performed. -/
def execStrl (d a : BitVec 5) (kr sc : BitVec 3) (w : BitVec 1) (s : State) : Out :=
  let n := wSize w
  tensorWord s [a, d] a kr (fun _ => .ok ()) (fun th k tid ds => do
    let (idx, o) ← oneElem k tid ds (th.coords kr.toNat) n .store (ds.ty = 12)
    let l : List Span := [{ dst := 0, idx := idx, off := o, n := n }]
    let _ ← s.watchTensor th tid 2 (posSecs ds l)
    let scope := th.relScope sc.toNat
    s.releasing th scope (fun s0 =>
      s0.performed th tid 2 (posSecs ds l) (s0.storePieces th k ds tid (piecesOf ds (th.aVal d).toNat l) scope true
          (s0.leavesAt th scope (k.keptOf ds tid idx o) false)) (fun s1 _ =>
        (s1.raceCount th).finish th [a, d] none none)))

/-- An atomic or reduction is a release: it says so, or a FENCE with release stands before it (09 R229, 11 R287). -/
def Thread.releases (th : Thread) (r : BitVec 2) : Bool := r.getLsbD 1 || th.issue.relAt.isSome

/-- The scope at which an atomic or reduction is a release: its own where it says so, or that of the FENCE (09 R229). -/
def Thread.rmwScope (th : Thread) (r : BitVec 2) (sc : BitVec 3) : Nat := if r.getLsbD 1 then th.relScope sc.toNat else th.relScope 0

/-- The ordering of an atomic or reduction: 0 relaxed, 1 acquire, 2 release, 3 both (11 R287). An older synchronising access is
performed first, and with release every older access (09 R225, R230); a reduction, which is `posted`, may follow others to their homes. -/
def State.rmwAfter (s : State) (th : Thread) (r : BitVec 2) (sc : BitVec 3) (posted : Bool) (f : State → Held?) : Held? :=
  if th.releases r then s.releasing th (th.rmwScope r sc) f
  else if posted then
    (if s.storeQ.any (fun q => q.c == th.c && q.t == th.t && (q.sync || !q.host)) || s.mesh.any (fun m => m.c == th.c && m.t == th.t) ||
        s.fab.any (fun g => g.who == .thread th.c th.t && g.sync) || (s.deferred? th).any (·.sync) then .error (.wait none) else f s)
  else do s.inOrder th; f s

/-- What an atomic does to the tables of the detector, and its acquire (09 R229, R238, R248). -/
def State.afterAtomic (s : State) (th : Thread) (r : BitVec 2) (sc : BitVec 3) (l : KeptAt) : State :=
  let acq := r.getLsbD 0
  let s1 := (if acq && sc ≠ 0 then s.acquireAt th.c sc.toNat else s).raceRead th (if acq then some sc.toNat else none) l
  match s1.thread? th.c th.t with
  | some x => if th.releases r then s1.raceRelease x (th.rmwScope r sc) l true else s1
  | none => s1

/-- AMO and AMOC (11 R290): `srcs` are the registers read, `p` the operation code. -/
def atomicWord (s : State) (srcs : List (BitVec 5)) (d a : BitVec 5) (r : BitVec 2) (kr sc : BitVec 3) (p : Nat)
    (old : Nat → Word) : Out :=
  let n := amoBytes p
  tensorWord s srcs a kr (·.aRoom d) (fun th k tid ds => do
    let (idx, o) ← oneElem k tid ds (th.coords kr.toNat) n .atomic (11 ≤ ds.ty)
    let secs := [(idx * ds.bytes + o) / 32]
    let _ ← s.watchTensor th tid 3 secs
    let x := (th.aVal d).toNat
    let y := (th.aVal (d + 1)).toNat
    s.rmwAfter th r sc false (fun s1 =>
      s1.performed th tid 3 secs (s1.atomicAt th k ds tid { idx := idx, off := o, n := n } (fun v => amoNew p v x y) p x y) (fun s2 v =>
        (s2.afterAtomic th r sc (k.keptOf ds tid idx o)).finish th srcs (some (d, old v)) (some (old v)))))

/-- AMO (11 R290). -/
def execAmo (d a : BitVec 5) (r : BitVec 2) (kr sc : BitVec 3) (p : BitVec 5) (s : State) : Out :=
  atomicWord s [a, d] d a r kr sc p.toNat (amoOld p.toNat)

/-- AMOC (11 R290): a compare and swap of 4 or 8 bytes. -/
def execAmoc (d a : BitVec 5) (r : BitVec 2) (kr sc : BitVec 3) (w : BitVec 1) (s : State) : Out :=
  atomicWord s [a, d, d + 1] d a r kr sc (if w = 0 then 0x18 else 0x19) wd

/-- Reductions of pieces by a word (11 R291, R292): what it leaves for the detector as a release goes with them, from the element at tile
`idx` and offset `o`. -/
def State.redWord (s : State) (th : Thread) (k : Task) (ds : Desc) (tid : Nat) (l : List Span) (ps : List Piece) (p : Nat) (r : BitVec 2)
    (sc : BitVec 3) (idx o : Nat) (f : State → Held?) : Held? := do
  let _ ← s.watchTensor th tid 3 (posSecs ds l)
  s.rmwAfter th r sc true (fun s1 =>
    let rel := if th.releases r then s1.leavesAt th (th.rmwScope r sc) (k.keptOf ds tid idx o) true else none
    s1.performed th tid 3 (posSecs ds l) (s1.reducePieces th k ds tid ps p rel) (fun s2 _ =>
      f (if th.releases r then s2.raceCount th else s2)))

/-- RED (11 R291). -/
def execRed (d a : BitVec 5) (r : BitVec 2) (kr sc : BitVec 3) (p : BitVec 5) (s : State) : Out :=
  let n := amoBytes p.toNat
  tensorWord s [a, d] a kr (fun _ => .ok ()) (fun th k tid ds => do
    let (idx, o) ← oneElem k tid ds (th.coords kr.toNat) n (.red p.toNat) (11 ≤ ds.ty)
    let l : List Span := [{ dst := 0, idx := idx, off := o, n := n }]
    s.redWord th k ds tid l (piecesOf ds (th.aVal d).toNat l) p.toNat r sc idx o (fun s1 => s1.finish th [a, d] none none))

/-- The checks of the tiles of a REDV, in order; its type is checked at the first (11 R289, R292). -/
def redvTiles (k : Task) (tid : Nat) (d : Desc) (p ty : Nat) (l : List Span) : Except Stop Unit :=
  (tilesOfSpans l).foldlM (fun _ idx => do
    k.checkTile d tid idx (.red p)
    if d.ty ≠ ty then .error (formatTrap d tid idx) else .ok ()) ()

/-- The elements of a REDV within the extent (11 R292). -/
def Desc.redvRun (d : Desc) (c : List Nat) (n : Nat) : List Span :=
  let j := d.dim 0
  (List.range (min (256 / n) (d.ext.getD j 0 - c.getD j 0))).map (fun i =>
    let r := d.loc (setAt c j (c.getD j 0 + i))
    { dst := n * i, idx := r.1, off := r.2, n := n })

/-- REDV (11 R292). -/
def execRedv (a : BitVec 5) (r : BitVec 2) (kr sc : BitVec 3) (y : BitVec 1) (s : State) : Out :=
  let p := if y = 0 then 3 else 4
  let ty := if y = 0 then 6 else 8
  let n := if y = 0 then 4 else 2
  tensorWord s [a] a kr (·.sqReady s.now) (fun th k tid ds => do
    let c := th.coords kr.toNat
    let (idx, o) ← ds.elem tid c 32
    let l := ds.redvRun c n
    redvTiles k tid ds p ty l
    s.redWord th k ds tid l (piecesOf ds (headVal 0 th.q.sq).toNat l) p r sc idx o (fun s1 => do
      let (s2, _) ← s1.finish th [a] none none
      .ok (s2.modThread th.c th.t (·.sqPop), none)))

/-! ### The steps of the homes -/

/-- The request that a die grants next, where it is of a kind: of the lowest die that has one. -/
def State.meshNext (s : State) (ok : MeshReq → Bool) : Option MeshReq := (List.range 8).findSome? (fun d => (s.meshPick d).filter ok)

/-- What an append on its way brings to the store. -/
def StoreReq.deferred (q : StoreReq) (a : AppendTo) : Deferred :=
  { svc := a.svc, tid := a.tid, idx := a.idx, sect := a.sect, op := 0, ty := 0, mask := q.mask, data := q.data, tag := a.tag, epc := 0, c := q.c,
    t := q.t, task := q.task, seq := q.seq, sync := q.sync, cls := q.cls, corr := q.corr }

def HomeReq.deferred (q : HomeReq) (a : AppendTo) : Deferred :=
  { svc := a.svc, tid := a.tid, idx := a.idx, sect := a.sect, op := q.op, ty := q.ty, mask := q.mask, data := q.data, tag := a.tag, epc := q.epc,
    c := q.c, t := q.t, task := q.task, seq := q.seq, sync := true, cls := q.cls, corr := q.corr }

/-- A message has reached the core that it names (07 R203, 08 R220). -/
def State.msgArrives (s : State) (m : Msg) : Out :=
  match m.what with
  | .store c off k v => .next ((s.useBanks c 13 (wordsOf off k)).spPut c off k v)
  | .yword q =>
    match s.thread? m.c m.t with
    | none => .next s
    | some th =>
      match th.aq with
      | [] => .next s
      | e :: _ =>
        if e.seq = q && th.issue.far = some (q, false) then
          runRemote e.ins ({ (s.setThread { th with issue := { th.issue with far := some (q, true) } }) with
            cur := { c := th.c, t := th.t, front := false, e := e, ev := s.cur.ev, unit := none, stalled := false } })
        else .next s

/-- REMOTE_REQUEST_ARRIVE (07 R203, 08 R220): message `n` of the mesh has reached the core that it names. -/
def execRemoteRequestArrive (s : State) : Out :=
  match s.cur.ev with
  | some (.remoteRequestArrive n) =>
    (match s.mesh[n]? with
    | none => .next s
    | some m => State.msgArrives { s.meshGrant m.req with mesh := s.mesh.eraseIdx n } m)
  | _ => .fault .noEvent

/-- The reduction that a home unit applies next, and those that stay (11 R284). -/
def State.nextHome (s : State) : Option (HomeReq × State) :=
  (s.meshNext (·.kind == .red)).bind (fun x => (s.homeQ.find? (fun q => q.n == x.n)).map (fun q =>
    (q, { s.meshGrant x with homeQ := s.homeQ.filter (fun y => y.n ≠ q.n) })))

/-- A posted reduction is applied at its home, or reaches the store of a log, and leaves what it carries; one that reads marked data is an
uncorrectable error of its task (19 R467, 21 R499). -/
def State.applyRed (s : State) (q : HomeReq) : State :=
  match q.app with
  | some a => ((s.allotTake q.pa q.cls).reachStore (q.deferred a)).putLeaves q.rel
  | none =>
    let s1 := s.atSlice q.pa q.cls
    if s.marked (q.pa / 32) then s1.consume q.task q.c q.t q.epc q.corr (memUnit q.pa) (homeDie q.pa) (homeSlice q.pa) q.pa q.val
    else (s1.homeApply (q.pa / 32) q.op q.ty q.mask q.data).putLeaves q.rel

/-- ATOMIC_APPLY (11 R284, R286, R291): the home unit applies one posted reduction. -/
def execAtomicApply (s : State) : Out :=
  match s.cur.ev with
  | some .atomicApply =>
    match s.nextHome with
    | none => .next s
    | some (q, s0) => .next (s0.applyRed q)
  | _ => .fault .noEvent

/-- The write-through that a home slice applies next, and those that stay (09 R225, R233). Log entry 14, DESIGN CHOICE. -/
def State.nextStore (s : State) : Option (StoreReq × State) :=
  (s.meshNext (·.kind == .store)).bind (fun x => (s.storeQ.find? (fun q => q.n == x.n)).map (fun q =>
    (q, { s.meshGrant x with storeQ := s.storeQ.filter (fun y => y.n ≠ q.n) })))

/-- A write-through is applied at its home, and seen from then on; the line of its core takes it, but for a write-back of that line (09 R233,
R236). -/
def State.applyStore (s : State) (q : StoreReq) : State :=
  let sec := q.pa / 32
  let s1 := s.sectWrite sec q.data q.mask
  let s2 := match q.side with
    | some v => s1.putSide q.pa q.mask v
    | none => s1
  if q.wb then (if q.bad then s2.mark sec else s2)
  else (s2.modCore q.c (fun k => { k with l1 := match k.l1.find sec with
    | some x => k.l1.set sec { x with data := mergeSect x.data q.data.toNat q.mask.toNat,
                                      side := match x.side, q.side with
                                        | some o, some v => some (mergeSide o q.mask v)
                                        | o, _ => o }
    | none => k.l1 })).putLeaves q.rel

/-- A write reaches its home slice: it is applied there, or reaches the store of a log (12 R302). -/
def State.homeStore (s : State) (q : StoreReq) : State :=
  match q.app with
  | some a => ((s.allotTake q.pa q.cls).reachStore (q.deferred a)).putLeaves q.rel
  | none => (s.atSlice q.pa q.cls).applyStore q

/-- HOME_SLICE_WRITE (09 R233): a write-through is applied at its home slice. -/
def execHomeSliceWrite (s : State) : Out :=
  match s.cur.ev with
  | some .homeSliceWrite =>
    match s.nextStore with
    | none => .next s
    | some (q, s0) => .next (s0.homeStore q)
  | _ => .fault .noEvent

end Sys2Proof.Machine
end

