-- ==== Sys2Proof/Machine/Engine.lean ====
section
/-!
DEFINITION. What copy channels and drains share: the reading of a unit's source elements (13 R331, 12 R305, R321; 20 R486), the
conversions of 13 Table 13.2, and the landing of the unit at its target (13 R334, R344, R347; 12 R302; 15 R375).
-/

namespace Sys2Proof.Machine

/-- What an engine meets at the unit that it is to write. -/
inductive Met (α : Type) where
  | here (s : State) (r : Run) (v : α)
  /-- It waits, in a state that its wait has changed. -/
  | held (s : State) (r : Run)
  /-- A check fails (13 R335). -/
  | fault (cause : BitVec 6)
  /-- It meets data with a poison mark (19 R467). -/
  | marked (u die core loc : Nat) (val : Word)

/-- Goes on with what an engine has met. -/
def Met.next {α β : Type} (m : Met α) (f : State → Run → α → Met β) : Met β :=
  match m with
  | .here s r v => f s r v
  | .held s r => .held s r
  | .fault c => .fault c
  | .marked u d c l v => .marked u d c l v

/-- A stop, as an engine meets it. -/
def Met.ofStop {α : Type} (s : State) (r : Run) : Stop → Met α
  | .trap c _ => .fault c
  | .consume u d c l v => .marked u d c l v
  | _ => .held s r

/-! ### Sources -/

/-- The tensor bytes that a unit reads: identifier, tile and byte offset. -/
def Sector.reads (x : Sector) : List (Nat × Nat × Nat) :=
  (x.parts.flatMap (fun p => (p.els.take p.n).filterMap (fun e => match e.src with
    | .tensor t i o => some (t, i, o)
    | _ => none))).eraseDups

/-- Runs of bytes that a unit reads of scratchpads, elements and their sideband: core, offset and length. -/
def Sector.spReads (x : Sector) (bits : Nat) : List (Nat × Nat × Nat) :=
  x.parts.flatMap (fun p => (p.els.take p.n).flatMap (fun e => match e.src with
    | .sp c o side => (c, o, max 1 (bits / 8)) :: (side.map (fun b => (c, b, 2))).toList
    | _ => []))

/-- Scratchpad words of a unit's source that carry a poison mark: the first. -/
def State.sourceMark (s : State) (x : Sector) (bits : Nat) : Option (Nat × Nat) :=
  (x.spReads bits).findSome? (fun p => (s.spPoisoned p.1 p.2.1 p.2.2).map (fun w => (p.1, w)))

/-- Sends a fabric access of an engine. Log entry 71, DEDUCED. -/
def State.sendFab (s : State) (who : Owner) (kind pa op : Nat) (data : BitVec 256) (mask corr : BitVec 32) : State :=
  let q : FabReq := { id := s.nextFab, pkg := fld (wd pa) 47 38, kind := kind, addr := pa, op := op, data := data, mask := mask,
                      who := who, since := s.now, sync := false, corr := corr, fill := none }
  { s with fab := s.fab ++ [q], nextFab := s.nextFab + 1 }

/-- The channel in which a run sends its requests: the service's class, kept by those that have waited for drawer slots, and the tier of the
thread that steered its command (01 R33, 11 R294). -/
def Run.vcAt (r : Run) (s : State) : Vc := r.vc.getD { cls := s.svcCls r.svc, urgent := r.e.urgent }

/-- The core at which an engine's requests enter a mesh: for a strip the first of its die. -/
def Owner.home : Owner → Nat
  | .thread c _ | .chan c _ => c
  | .strip d _ => 32 * d
  | _ => 0

/-- The sectors of a unit's source cross from their home slices, as the meshes grant the requests: what it has then, and whether that is all;
or the tile and sector of one that carries a poison mark. -/
def State.engineCross (s : State) (r : Run) (who : Owner) (d : Desc) (v : Vc) : List (Nat × Nat) → State × Run × Bool ⊕ Nat × Nat
  | [] => .inl (s, r, true)
  | p :: l =>
    if 32 * p.2 / 2 ^ 48 = 9 then
      match State.engineCross s r who d v l with
      | .inl z => .inl (z.1, z.2.1, false)
      | x => x
    else match s.tryCross who 0 who.home (32 * p.2) v with
      | .held s1 =>
        (match State.engineCross s1 r who d v l with
        | .inl z => .inl (z.1, z.2.1, false)
        | x => x)
      | .over s1 got =>
        match (if s.tainted d p.2 then none else got.getD (some (s1.sectRead p.2))) with
        | none => .inr p
        | some x => State.engineCross s1 { r with inp := r.inp ++ [(p.2, x)] } who d v l

/-- The sectors of a unit's source arrive, from their homes, from the drawer or from peers. `secs` are (tile, sector). -/
def State.engineBring (s : State) (r : Run) (who : Owner) (die : Nat) (d : Desc) (tid : Nat) (secs : List (Nat × Nat)) : Met Unit :=
  let v := r.vcAt s
  let need := secs.filter (fun p => !r.inp.any (fun q => q.1 == p.2))
  let far := need.filter (fun p => 32 * p.2 / 2 ^ 48 = 8 && !s.cached p.2)
  let drawer := far.map (·.2)
  match s.linkStop d tid far with
  | some x => Met.ofStop s r x
  | none =>
    if !drawer.isEmpty && !r.drw then .held (s.askBlocks die v.cls who drawer) { r with drw := true, vc := some v }
    else if !drawer.isEmpty && s.reading who then .held s r
    else
      let peers := need.filter (fun p => 32 * p.2 / 2 ^ 48 = 9)
      let s0 := if peers.isEmpty || s.fab.any (fun f => f.who == who) then s
        else peers.foldl (fun x p => x.sendFab who 0 (32 * p.2) 0 0 (BitVec.allOnes 32) r.e.corr) s
      match s0.engineCross r who d v need with
      | .inl z => if z.2.2 then .here z.1 z.2.1 () else .held z.1 z.2.1
      | .inr p => .marked (memUnit (32 * p.2)) (homeDie (32 * p.2)) (homeSlice (32 * p.2)) (32 * p.2) (faultVal tid 6 (p.1 * d.bytes))

/-- Makes ready what a unit reads: the frames of its source tiles, with their sectors in `inp`. -/
def State.engineSource (s : State) (r : Run) (who : Owner) (die : Nat) (x : Sector) : Met (List (Nat × Reach)) :=
  match s.sourceMark x r.sBits with
  | some (c, o) => .marked 0 (dieOf c) (c % 32) o (wd o)
  | none =>
    match x.reads with
    | [] => .here s r []
    | (tid, i, o) :: l =>
      match s.desc? r.svc tid with
      | none => .fault 0x11
      | some d =>
        let l := (tid, i, o) :: l
        match s.tilesReady r.e.task d tid .load (d.ty = 12) r.fet ((l.map (·.2.1)).eraseDups) with
        | .error e => Met.ofStop s r e
        | .ok y =>
          let r1 := { r with fet := y.forced }
          match y.came with
          | .held _ => .held y.s r1
          | .here at_ =>
            (y.s.engineBring r1 who die d tid ((l.map (fun p => (p.2.1, d.pa (baseOf at_ p.2.1) p.2.2 / 32))).eraseDups)).next
              (fun s2 r2 _ => .here s2 r2 at_)

/-- The bits of a source element. -/
def State.elVal (s : State) (r : Run) (at_ : List (Nat × Reach)) (e : SrcEl) : Nat :=
  let cut (v : Nat) : Nat := (if e.hi then v / 2 ^ r.sBits else v) % 2 ^ r.sBits
  match e.src with
  | .zero => 0
  | .val v _ => v % 2 ^ r.sBits
  | .sp c o _ => cut (s.spGet c o (max 1 (r.sBits / 8)))
  | .tensor tid i o =>
    match s.desc? r.svc tid with
    | none => 0
    | some d =>
      let pa := d.pa (baseOf at_ i) o
      match r.inp.find? (fun q => q.1 == pa / 32) with
      | some q => cut (q.2.toNat / 2 ^ (8 * (pa % 32)))
      | none => 0

/-- The sideband of the block that a source element stands in: scale below, special above. -/
def State.elSide (s : State) (r : Run) (at_ : List (Nat × Reach)) (e : SrcEl) : Nat :=
  match e.src with
  | .val _ side => side
  | .sp c _ (some o) => s.spGet c o 2
  | .tensor tid i o =>
    match s.desc? r.svc tid with
    | none => 0
    | some d => if d.ty = 12 then s.blockSide (d.pa (baseOf at_ i) o / 16 * 16) else 0x007F
  | _ => 0x007F

/-! ### Conversions -/

/-- Source and destination types of a conversion code (13 Table 13.2); 12 is a block. -/
def convTypes : Nat → Nat × Nat
  | 1 => (6, 8) | 2 => (6, 7) | 3 => (8, 6) | 4 => (7, 6) | 5 => (6, 9) | 6 => (6, 10) | 7 => (8, 9) | 8 => (8, 10)
  | 9 => (9, 8) | 10 => (10, 8) | 11 => (6, 12) | 12 => (8, 12) | _ => (12, 8)

/-- Packs elements of `w` bits, the first lowest. -/
def packBits (w : Nat) : List Nat → Nat
  | [] => 0
  | x :: r => x % 2 ^ w + 2 ^ w * packBits w r

/-- Converts the elements of a part (13 R333): their bits packed, and the sideband of the block that they form. RNE, no flag. -/
def convPart (conv : Nat) (sat : Bool) (dBits : Nat) (vals : List Nat) (side : Nat) : Nat × Nat :=
  if conv = 0 then (packBits dBits vals, side)
  else
    let t := convTypes conv
    if t.2 = 12 then
      let q := quantBlock (vals.map (laneFV t.1))
      (packBits 4 q.1, q.2.1 + 256 * q.2.2.1)
    else if t.1 = 12 then
      (packBits dBits (vals.map (fun v => (roundTy t.2 0 false (Ex.of (blockElem v (side % 256) (side / 256)))).1)), 0)
    else (packBits dBits (vals.map (fun v => (convLane t.1 t.2 0 sat false v 0).1)), 0)

/-- A unit's bytes, its byte mask, and the sideband of its parts, 16 bits each. -/
def State.unitData (s : State) (r : Run) (at_ : List (Nat × Reach)) (x : Sector) : Nat × Nat × List Nat :=
  x.parts.foldl (fun z p =>
    let els := p.els.take p.n
    let side := match els with
      | e :: _ => s.elSide r at_ e
      | [] => 0
    let y := convPart r.conv r.sat r.dBits (els.map (s.elVal r at_)) side
    let n := (p.n * r.dBits + 7) / 8
    (z.1 + y.1 * 2 ^ (8 * p.off), z.2.1 + (2 ^ n - 1) * 2 ^ p.off, z.2.2 ++ [y.2])) (0, 0, [])

/-! ### Landing -/

/-- Writes the bytes of `v` that a mask names, at most `n` of them, into a core's scratchpad. -/
def State.spMask (s : State) (c off n v mask : Nat) : State :=
  (List.range (n / 8)).foldl (fun z i =>
    let m := mask / 2 ^ (8 * i) % 256
    if m = 0 then z
    else
      let old := z.spGet c (off + 8 * i) 8
      let new := (Memory.putMask (Memory.putN [] 0 8 old) 0 8 (v / 2 ^ (64 * i) % 2 ^ 64) m).getN 0 8
      if m = 255 then z.spPut c (off + 8 * i) 8 new
      else (List.range 8).foldl (fun y j => if m.testBit j then y.spPut c (off + 8 * i + j) 1 (new / 2 ^ (8 * j) % 256) else y) z) s

/-- The sideband of a sector's two blocks from those of its parts. -/
def joinSide (x : Sector) (l : List Nat) : Nat :=
  ((x.parts.zip l).map (fun p => p.2 * 2 ^ (16 * (p.1.off / 16 % 2)))).foldl (· + ·) 0

/-- An engine's store to the host: its run goes on once the host has performed it (20 R478). -/
def State.hostStore (s : State) (r : Run) (who : Owner) (pa : Nat) (data : BitVec 256) (mask : BitVec 32) : State :=
  let v := r.vcAt s
  let q : StoreReq := { n := s.nextMsg, urgent := v.urgent, fast := false, since := s.now, tile := none, rel := none, pa := pa, data := data,
                        mask := mask, c := who.home, t := 8, cls := v.cls, host := true, sync := false, side := none, wb := false, bad := false,
                        task := r.e.task, seq := r.e.seq, corr := r.e.corr, app := none, eng := some who }
  { s with storeQ := s.storeQ ++ [q], nextMsg := s.nextMsg + 1 }

/-- A store, or a reduction, of a unit's bytes to a sector of a frame at its home (13 R334, R344, 20 R478, R486): a sector of a drawer frame is
there once its block has been read (12 R317, R321). -/
def State.landFrame (s : State) (r : Run) (who : Owner) (d : Desc) (tid idx pa : Nat) (v : Nat × Nat × List Nat) (x : Sector) : Met Unit :=
  let data := BitVec.ofNat 256 v.1
  let mask := BitVec.ofNat 32 v.2.1
  let sec := pa / 32
  if pa / 2 ^ 48 = 9 then
    if r.sent then .held s r
    else .held (s.sendFab who (if r.red.isSome then 3 else 1) pa (r.red.getD 0) data mask r.e.corr) { r with sent := true }
  else if pa / 2 ^ 48 = 10 then
    if r.sent then .held s r else .held (s.hostStore r who pa data mask) { r with sent := true }
  else
    let far := pa / 2 ^ 48 = 8 && !s.cached sec
    match (if far then s.linkStop d tid [(idx, sec)] else none) with
    | some x => Met.ofStop s r x
    | none =>
      if far && !r.drt then
        let c := r.vcAt s
        .held (s.askBlocks (dieOf who.home) c.cls who [sec]) { r with drt := true, vc := some c }
      else if far && s.reading who then .held s r
      else match s.tryCross who 1 who.home pa (r.vcAt s) with
      | .held s1 => .held s1 r
      | .over s2 _ =>
        if d.ty = 12 && !s.minted pa then .fault 0x0D
        else match r.red with
        | some p =>
          if s2.marked sec then .marked (memUnit pa) (homeDie pa) (homeSlice pa) pa (faultVal tid 6 (idx * d.bytes))
          else .here (s2.homeApply sec (opCode p).1 (opCode p).2 mask data) r ()
        | none =>
          let s3 := s2.sectWrite sec data mask
          .here (if d.ty = 12 then s3.putSide pa mask (BitVec.ofNat 32 (joinSide x v.2.2)) else s3) r ()

/-- The address at which a unit's append to a tile enters its home slice: that of the sector in the tile's frame. -/
def Task.appendPa (k : Task) (tid idx off : Nat) : Nat :=
  match k.held? tid idx with
  | some h => frameBase h.frame + off / 32 * 32
  | none => 0

/-- A store, or a reduction, of a unit's bytes to a sector of a tensor (12 R302, 13 R334, R344): one of a drawer tile that its slice holds is
written there, and one that is on its way there is waited for. Log entry 15, DESIGN CHOICE. -/
def State.landTensor (s : State) (r : Run) (who : Owner) (svc tid idx off : Nat) (v : Nat × Nat × List Nat) (x : Sector) :
    Met Unit :=
  match s.desc? svc tid with
  | none => .fault 0x11
  | some d =>
    let a : Access := match r.red with
      | some p => .red p
      | none => .store
    match s.tilesReady r.e.task d tid a (d.ty = 12) r.fet [idx] with
    | .error e => Met.ofStop s r e
    | .ok y =>
      let r1 := { r with fet := y.forced }
      let data := BitVec.ofNat 256 v.1
      let mask := BitVec.ofNat 32 v.2.1
      match y.came with
      | .held _ => .held y.s r1
      | .here at_ =>
        match reachOf at_ idx with
        | some (.append tag) =>
          let near := if tag = 0 then ((y.s.task? r.e.task).bind (·.drawerSect? tid idx (off / 32))) else none
          if near.any (fun pa => y.s.filling (pa / 32)) then .held y.s r1
          else match near.filter (fun pa => y.s.cached (pa / 32)) with
          | some pa => y.s.landFrame r1 who d tid idx pa v x
          | none =>
          let o := match r.red with
            | some p => opCode p
            | none => (0, 0)
          let e : Entry := { sect := off / 32, op := o.1, ty := o.2, mask := mask, data := data, tag := tag }
          let pa := ((y.s.task? r.e.task).map (·.appendPa tid idx off)).getD 0
          if y.s.behindDefer svc tid d idx (off / 32) || (y.s.append? svc tid d idx e).isNone then .held (y.s.askFetch svc tid idx) r1
          else match y.s.tryReach who 1 who.home pa (r1.vcAt s) with
          | .held s2 => .held s2 r1
          | .over s2 _ =>
            match s2.append? svc tid d idx e with
            | some s3 => .here s3 r1 ()
            | none => .held (s2.askFetch svc tid idx) r1
        | _ => y.s.landFrame r1 who d tid idx (baseOf at_ idx + off) v x

/-- The requester of an engine's access to a core's scratchpad (21 R503). -/
def Owner.port (w : Owner) (c : Nat) : Nat :=
  match w with
  | .chan c' ch => if c' = c then 8 + ch else 13
  | .strip _ _ => 12
  | _ => 13

/-- An engine's access to runs of bytes of scratchpads takes their banks (07 R184). -/
def State.runBanks (s : State) (who : Owner) (l : List (Nat × Nat × Nat)) : State :=
  ((l.map (·.1)).eraseDups).foldl (fun z c =>
    z.useBanks c (who.port c) ((l.filter (fun p => p.1 = c)).flatMap (fun p => wordsOf p.2.1 p.2.2))) s

/-- The banks that a unit takes of the scratchpads from which it reads and to which it goes, sideband with the elements (07 R184). -/
def State.unitBanks (s : State) (who : Owner) (x : Sector) (bits : Nat) : State :=
  let s1 := s.runBanks who (x.spReads bits)
  match x.tgt with
  | .sp c off => s1.runBanks who ((c, off, 32) :: x.side.map (fun b => (c, b, 2)))
  | _ => s1

/-- A unit lands at its target. A part of it goes nowhere before all of it can. An entry for the queue of a strip that scrubs goes with
that queue (14 R358). Log entry 51, DEDUCED. -/
def State.landUnit (s : State) (r : Run) (who : Owner) (x : Sector) (v : Nat × Nat × List Nat) : Met Unit :=
  match x.tgt with
  | .tensor svc tid idx off => s.landTensor r who svc tid idx off v x
  | .sp c off =>
    let s1 := s.spMask c off 32 v.1 v.2.1
    .here ((x.side.zip v.2.2).foldl (fun z p => z.spPut c p.1 2 p.2) s1) r ()
  | .slot die strip n sect =>
    .here (s.modStrip die strip (fun y =>
      let sl := y.slots.get Slot.init n
      let sb := (x.parts.zip v.2.2).foldl (fun m p => m.putN (4 * sect + 2 * (p.1.off / 16 % 2)) 2 p.2) sl.sb
      let side := match r.slot with
        | some (_, _, _, ty) => ty == 11
        | none => false
      { y with slots := y.slots.set n { sl with data := sl.data.putMask (32 * sect) 32 v.1 v.2.1,
                                                sb := if side then sb else sl.sb } })) r ()
  | .metaQ die strip =>
    if (s.strip die strip).st = .scrubbing then .here s r ()
    else if 64 ≤ (s.strip die strip).mq.length then .held s r
    else .here (s.modStrip die strip (fun y => { y with mq := y.mq ++ [BitVec.ofNat 2048 v.1] })) r ()
  | .peer grant off =>
    if r.sent then .held s r
    else
      let g := s.mem.word (fld (s.reg (.svcFab r.svc)) 51 16 * 65536 + 0x8000 + 8 * grant)
      let q : FabReq := { id := s.nextFab, pkg := fld g 57 48, kind := 4, addr := fld g 11 0 * 2 ^ 32 + off, op := 0,
                          data := BitVec.ofNat 256 v.1, mask := BitVec.ofNat 32 v.2.1, who := who, since := s.now, sync := false,
                          corr := r.e.corr, fill := none }
      .held { s with fab := s.fab ++ [q], nextFab := s.nextFab + 1 } { r with sent := true }
  | .fetched svc tid idx =>
    match s.task? r.e.task, s.desc? svc tid with
    | some k, some d =>
      (match (k.held? tid idx).bind (fun h => resid? h.frame true), s.tileDead k d tid idx with
      | some .arriving, some pa | some .departing, some pa | some .drawer, some pa =>
        .marked 8 (homeDie pa) (homeSlice pa) pa (faultVal tid 6 (idx * d.bytes))
      | some .arriving, none | some .departing, none => .held s r
      | some .drawer, none =>
        if r.fet.contains (tid, idx) && !s.fetching svc tid idx then .here s r ()
        else .held (s.askFetch svc tid idx) { r with fet := [(tid, idx)] }
      | _, _ => .here s r ())
    | _, _ => .here s r ()
  | .none => .here s r ()

/-- The target is written. -/
def Target.writes : Target → Bool
  | .none | .fetched _ _ _ => false
  | _ => true

/-- Flips the tiles of a run at its end (13 R334, R335). -/
def State.flipEnd (s : State) (r : Run) (ok : Bool) : State :=
  r.flips.foldl (fun z f => (z.setTile f.1 f.2.1 (if ok then f.2.2.1 else f.2.2.2)).reapTile f.1 f.2.1) s

/-- Flips the slot of a run at its end (15 R376). -/
def State.slotEnd (s : State) (r : Run) (ok : Bool) : State :=
  match r.slot with
  | none => s
  | some (die, strip, n, ty) =>
    s.modStrip die strip (fun y =>
      let sl := y.slots.get Slot.init n
      if sl.st = some .filling then
        { y with slots := y.slots.set n { sl with st := some (if ok then .ready else .empty), ty := ty } } else y)

/-- A unit has landed: it is counted at its object, tiles and slot flip with the last, and the run goes on with the next (13 R334, 08
R217, 15 R376). -/
def State.landed (s : State) (r : Run) : State × Run :=
  match r.left with
  | [] => (s, r)
  | x :: l =>
    let r1 : Run := { r with
      left := l, done := r.done + (if x.tgt.writes then x.count / 32 else 0), fet := [], drw := false, drt := false, inp := [], sent := false,
      vc := none,
      units := r.units + 1 }
    let last := l.isEmpty && r.fault.isNone
    let s1 := if last then (s.flipEnd r true).slotEnd r true else s
    (match x.obj with
      | some o => s1.updBar o (·.deliver x.count)
      | none => s1,
     if last then { r1 with flips := [], slot := none } else r1)

/-- An engine's next unit: it is read, converted and lands. -/
def State.engineStep (s : State) (r : Run) (who : Owner) (die : Nat) : Met Unit :=
  match r.left with
  | [] => .here s r ()
  | x :: _ =>
    if r.sent then .held s r
    else
      (s.engineSource r who die x).next (fun s1 r1 at_ =>
        match s1.landUnit r1 who x (s1.unitData r1 at_ x) with
        | .here s2 r2 _ =>
          let z := (s2.unitBanks who x r.sBits).landed r2
          .here z.1 z.2 ()
        | .held s2 r2 => .held (if r2.sent then s2.unitBanks who x r.sBits else s2) r2
        | m => m)

/-- Leaves a state as it stands after a unit that waits (04 R106). -/
def State.stall (s : State) : State := { s with cur := { s.cur with stalled := true } }

/-- Poisons objects (13 R335). -/
def State.poisonObjs (s : State) (l : List (Nat × Nat)) : State := l.foldl (fun z o => z.updBar o Bar.setPoison) s

/-- Records a fault of a C command in `cerr` of its thread (13 R336). -/
def State.putCerr (s : State) (r : Run) (ch : Nat) (cause : BitVec 6) : State :=
  let op := r.e.ins.encodeWord.toNat / 2 ^ 23 % 64
  let v := wd (min r.done (2 ^ 32 - 1) * 2 ^ 32 + seq16 r.e.seq * 2 ^ 16 + 2 ^ 15 + op * 2 ^ 9 + ch * 2 ^ 7 + cause.toNat)
  match s.thread? r.e.c r.e.t with
  | some th => if r.e.ofThread th then s.setThread { th with csr := { th.csr with cerr := v } } else s
  | none => s

end Sys2Proof.Machine
end

