-- ==== Sys2Proof/Machine/Plan.lean ====
section
/-!
DEFINITION. The plan of an engine's writes: endpoints and their checks (13 R329), the elements of runs (13 R331), and the sectors of a
run in write order, each with the first failed check that concerns it (13 R334, R335).
-/

namespace Sys2Proof.Machine

/-- The result of a check of a C word or a drain: the cause of its fault (13 R335). -/
abbrev Chk (α : Type) := Except (BitVec 6) α

/-- The cause of a check that words share with engines. -/
def chkOf {α : Type} (r : Except Stop α) : Chk α :=
  match r with
  | .ok v => .ok v
  | .error (.trap c _) => .error c
  | .error _ => .error 0x11

/-! ### Endpoints -/

/-- Where an engine reads or writes. -/
inductive EndPt where
  | tensor (tid : Nat) (d : Desc)
  /-- Tile: group, table entry, entry contents, and those of its side tile; keep. -/
  | tile (g : Group) (e : Nat) (x : Tile) (side : Option (Nat × Tile)) (keep : Bool)
  | peer (grant : Nat)
  | slot (die strip n : Nat)
  | mdata (die strip : Nat)
  deriving DecidableEq, Repr

/-- A position at an endpoint: coordinates of a tensor, byte offset at the others. -/
structure At where
  c : List Nat
  o : Int
  deriving DecidableEq, Repr

/-- Element type, 12 for blocks with their sideband (13 R333): a raw copy between a type-11 tile with a side tile and a type-11 endpoint
without sideband is one of two types. Log entry 92, DESIGN CHOICE. -/
def EndPt.ty : EndPt → Nat
  | .tensor _ d => d.ty
  | .tile _ _ x (some _) _ => if x.ty = 11 then 12 else x.ty.toNat
  | .tile _ _ x none _ => x.ty.toNat
  | _ => 3

/-- The endpoint is a tensor. -/
def EndPt.isTensor : EndPt → Bool
  | .tensor _ _ => true
  | _ => false

/-- FORMAT at a tensor, LAYOUT at the others (13 R333). -/
def EndPt.mismatch (x : EndPt) : BitVec 6 := if x.isTensor then 0x0D else 0x08

/-- The group named by a tile endpoint (13 R329, 07 R181). -/
def State.endGroupOf (s : State) (task j c : Nat) (w : Word) : Chk Group :=
  match (if bit w 23 then s.groupOn? task (32 * dieOf c + fld w 28 24) else s.group? task j) with
  | some g => .ok g
  | none => .error 0x11

/-- A tile endpoint in a group, its captured values given (13 R329). `mask`: the third value is a core mask. -/
def State.tileEnd (s : State) (g : Group) (v : List Word) (dest mask : Bool) : Chk (EndPt × At) := do
  let w := v.getD 0 0
  let v2 := v.getD 2 0
  if fld w 63 37 ≠ 0 || fld w 11 8 ≠ 0 || fld (v.getD 1 0) 63 32 ≠ 0 || fld v2 63 32 ≠ 0 || (!mask && v2 ≠ 0) ||
      v.getD 3 0 ≠ 0 || (dest && bit w 14) then .error 0x11
  let get (t : Nat) : Chk (Nat × Tile) :=
    match g.tile? t with
    | none => .error 0x11
    | some e => match (s.core g.c).tiles.find e with
      | none => .error 0x07
      | some x => .ok (e, x)
  let x ← get (fld w 7 0)
  let ty := fld w 22 19
  if ty ≠ x.2.ty.toNat || fld w 18 15 ≠ x.2.swz.toNat then .error 0x08
  let at_ : At := { c := [], o := (fld (v.getD 1 0) 31 0 : Nat) }
  let sd := fld w 36 29
  if sd = 0 then .ok (.tile g x.1 x.2 none (bit w 14), at_)
  else if ty ≠ 11 then .error 0x08
  else
    let y ← get sd
    if y.2.ty ≠ x.2.ty then .error 0x08
    else .ok (.tile g x.1 x.2 (some y) (bit w 14), at_)

/-- An endpoint of a thread's command (13 R329, Table 13.1). -/
def State.endPt (s : State) (svc task j c : Nat) (v : List Word) (dest : Bool) : Chk (EndPt × At) := do
  let w := v.getD 0 0
  let x (i : Nat) : Word := v.getD i 0
  let k := fld w 13 12
  if k = 0 then
    if fld w 63 14 ≠ 0 then .error 0x11
    else match s.desc? svc (fld w 11 0) with
      | none => .error 0x11
      | some d =>
        .ok (.tensor (fld w 11 0) d,
          { c := [fld (x 1) 31 0, fld (x 1) 63 32, fld (x 2) 31 0, fld (x 2) 63 32, fld (x 3) 31 0, fld (x 3) 63 32], o := 0 })
  else if k = 1 then
    let g ← s.endGroupOf task j c w
    s.tileEnd g v dest false
  else if k = 2 then
    if fld w 63 14 ≠ 0 || fld (x 1) 63 48 ≠ 0 || x 2 ≠ 0 || x 3 ≠ 0 then .error 0x11
    else .ok (.peer (fld w 11 0), { c := [], o := (fld (x 1) 47 0 : Nat) })
  else .error 0x11

/-- The object of S[b] (13 R330): none where `o` is clear. -/
def State.endObj (s : State) (task j c : Nat) (b : Word) : Chk (Option (Nat × Nat)) :=
  if bit b 30 then (chkOf (s.objRef task j c (wd (fld b 29 0)) 0)).map some
  else if fld b 29 0 ≠ 0 then .error 0x11
  else .ok none

/-- The coordinate of a position at a place, stepped modulo 2^32 (13 R332). -/
def At.step (a : At) (d : Desc) (place : Nat) (n : Int) : At :=
  let j := if place < d.rank then d.dim place else place
  { a with c := setAt a.c j (((a.c.getD j 0 : Int) + n) % 2 ^ 32).toNat }

/-- One level of a nest moves an origin (13 R332). A step of a tile that is no multiple of 32, for which no cause is given, faults with ALIGN
at the first iteration that it moves. Log entry 92, DESIGN CHOICE. -/
def EndPt.adv (x : EndPt) (a : At) (l ii : Nat) (st : Int) : Chk At :=
  match x with
  | .tensor _ d => .ok (a.step d (l + 1) (ii * st))
  | _ => if ii ≠ 0 && st % 32 ≠ 0 then .error 0x05 else .ok { a with o := a.o + ii * st }

/-! ### Elements of a run -/

/-- The conditions of a whole run of `n` elements of `w` bits at an endpoint (13 R331), coordinates before alignment (10 R269). `free`:
the run need hold no whole sectors (13 R341). -/
def EndPt.runChk (x : EndPt) (a : At) (n w : Nat) (free : Bool) : Chk Unit :=
  match x with
  | .tensor _ d =>
    let here := a.c.getD (d.dim 0) 0 < d.ext.getD (d.dim 0) 0
    if here && !d.inside a.c then .error 0x11
    else if !free && (n * w % 256 ≠ 0 || 2 ^ d.tlg.getD (d.dim 0) 0 * w < 256 || (here && (d.place a.c).2 * elemBits d.ty % 256 ≠ 0)) then .error 0x05
    else .ok ()
  | _ =>
    if a.o < 0 then .error 0x11
    else if (if free then a.o % (max 1 (w / 8) : Nat) ≠ 0 else a.o % 32 ≠ 0 || n * w % 256 ≠ 0) then .error 0x05
    else .ok ()

/-- Every byte of a tile run that spans a number of bytes lies within the tile, and its sideband within the side tile (13 R331). -/
def EndPt.runEnd (x : EndPt) (a : At) (bytes : Nat) : Chk Unit :=
  match x with
  | .tile _ _ y side _ =>
    let e := a.o.toNat + bytes
    if 512 * y.size < e || side.any (fun z => decide (512 * z.2.size < (e + 15) / 16 * 2)) then .error 0x11 else .ok ()
  | _ => .ok ()

/-- The read of element `i` of a run at a source (13 R331, R335). Beyond the extent it is zero, with its sideband. Log entry 45,
DEDUCED. -/
def State.srcElem (s : State) (k : Task) (x : EndPt) (a : At) (i w : Nat) : Chk SrcEl :=
  match x with
  | .tensor tid d =>
    let j := d.dim 0
    let v := a.c.getD j 0 + i
    if d.ext.getD j 0 ≤ v then .ok { src := if d.ty = 12 then .val 0 0 else .zero, hi := false }
    else
      let c := setAt a.c j v
      if !d.inside c then .error 0x11
      else
        let p := d.place c
        let off := p.2 * w / 8
        match k.leaseFails d tid p.1 .load with
        | some _ => .error 0x06
        | none =>
          if d.ty = 12 && !s.minted (d.pa (k.frameFor tid p.1 false) off) then .error 0x0D
          else .ok { src := .tensor tid p.1 off, hi := w = 4 && p.2 % 2 = 1 }
  | .tile g _ y side _ =>
    let o := a.o.toNat + i * w / 8
    let so := o / 16 * 2
    if 512 * y.size ≤ o then .error 0x11
    else match side with
      | none => .ok { src := .sp g.c (g.phys (y.lo + swz y.swz.toNat o)) none, hi := w = 4 && i % 2 = 1 }
      | some (_, z) =>
        if 512 * z.size ≤ so then .error 0x11
        else .ok { src := .sp g.c (g.phys (y.lo + swz y.swz.toNat o)) (some (g.phys (z.lo + swz z.swz.toNat so))),
                   hi := w = 4 && i % 2 = 1 }
  | _ => .error 0x11

/-! ### Where a chunk goes -/

/-- The place of 16 bytes of a run at a destination: order of the unit in the run, target, byte offset in the unit, sideband
offsets, elements that are written, and the first check of the write that fails. -/
structure Spot where
  key : Nat
  tgt : Target
  off : Nat
  side : List Nat
  n : Nat
  fault : Option (BitVec 6)
  deriving DecidableEq, Repr

/-- The place of chunk `q` of a run of elements of `w` bits; none beyond the extent (13 R331, R334). -/
def State.spot (s : State) (k : Task) (x : EndPt) (acc : Access) (a : At) (q w : Nat) : Option Spot :=
  let per := 128 / w
  match x with
  | .tensor tid d =>
    let j := d.dim 0
    let v := a.c.getD j 0 + q * per
    if d.ext.getD j 0 ≤ v then none
    else
      let c := setAt a.c j v
      let r := d.loc c
      let st := swz d.swz r.2
      let fault : Option (BitVec 6) :=
        if !d.inside c then some 0x11
        else match k.leaseFails d tid r.1 acc with
          | some _ => some 0x06
          | none => if d.ty = 12 && !s.minted (d.pa (k.frameFor tid r.1 true) r.2) then some 0x0D else none
      some { key := r.1 * 2 ^ 17 + st / 32, tgt := .tensor k.svc tid r.1 (32 * (st / 32)), off := st % 32, side := [],
             n := min per (d.ext.getD j 0 - v), fault := fault }
  | .tile g _ y side _ =>
    let o := a.o.toNat + 16 * q
    let st := swz y.swz.toNat o
    let so : List Nat := match side with
      | some (_, z) => [g.phys (z.lo + swz z.swz.toNat (o / 8))]
      | none => []
    let out := 512 * y.size < o + 16 || (match side with
      | some (_, z) => 512 * z.size < o / 8 + 2
      | none => false)
    some { key := st / 32, tgt := .sp g.c (g.phys (y.lo + st) / 32 * 32), off := st % 32, side := so, n := per,
           fault := if out then some 0x11 else none }
  | .peer grant =>
    let o := a.o.toNat + 16 * q
    some { key := o / 32, tgt := .peer grant (o / 32 * 32), off := o % 32, side := [], n := per, fault := none }
  | .slot die strip n =>
    let o := a.o.toNat + 16 * q
    some { key := o / 32, tgt := .slot die strip n (o / 32), off := o % 32, side := [], n := per, fault := none }
  | .mdata die strip =>
    some { key := 16 * q / 256, tgt := .metaQ die strip, off := 16 * q % 256, side := [], n := per, fault := none }

/-! ### The sectors of a run -/

/-- A unit of a plan, with the fault of the first check that fails on it. -/
abbrev Planned := Sector × Option (BitVec 6)

/-- A plan that ends with a fault at once. -/
def faultPlan (c : BitVec 6) : List Planned := [({ tgt := .none, parts := [], side := [], count := 0, obj := none }, some c)]

/-- Adds a chunk to the unit that it stands in. -/
def addChunk (t : Tab Planned) (p : Spot) (obj : Option (Nat × Nat)) (els : List SrcEl) (bad : Option (BitVec 6)) : Tab Planned :=
  let part : Part := { off := p.off, els := els, n := p.n }
  let count := match p.tgt with
    | .metaQ _ _ => 256
    | _ => 32
  let fault := bad.orElse (fun _ => p.fault)
  match t.find p.key with
  | some (x, f) => t.set p.key ({ x with parts := x.parts ++ [part], side := x.side ++ p.side }, f.orElse (fun _ => fault))
  | none => t.set p.key ({ tgt := p.tgt, parts := [part], side := p.side, count := count, obj := obj }, fault)

/-- The first failure in a list of checks, and the values. -/
def chkAll {α : Type} : List (Chk α) → List α × Option (BitVec 6)
  | [] => ([], none)
  | .ok v :: r => (v :: (chkAll r).1, (chkAll r).2)
  | .error c :: _ => ([], some c)

/-- A run of `n` elements of `w` bits as they are written, with the reads of its elements: its units in write order (13 R334). `src`: the
conditions of the run at the source, which fault it after its last unit where none of its units meets the fault (13 R331, R335). -/
def State.planRun (s : State) (k : Task) (x : EndPt) (acc : Access) (obj : Option (Nat × Nat)) (a : At) (n w : Nat)
    (src : Chk Unit) (els : Nat → Chk SrcEl) : List Planned :=
  match x.runChk a n w false with
  | .error c => faultPlan c
  | .ok () =>
    let per := 128 / w
    let us := ((List.range (n * w / 128)).foldl (fun (t : Tab Planned) q =>
      match s.spot k x acc a q w with
      | none => t
      | some p =>
        let r := chkAll ((List.range p.n).map (fun i => els (q * per + i)))
        addChunk t p obj r.1 r.2) []).map (·.2)
    us ++ (match src with
    | .error c => faultPlan c
    | .ok () => [])

/-- The units up to the first fault, and the fault (13 R335). -/
def upTo : List Planned → List Sector × Option (BitVec 6)
  | [] => ([], none)
  | (x, none) :: r => (x :: (upTo r).1, (upTo r).2)
  | (_, some c) :: _ => ([], some c)

/-! ### States of tiles and slots -/

/-- Table entries that an endpoint names: core and entry. -/
def EndPt.entries : EndPt → List (Nat × Nat)
  | .tile g e _ side _ => (g.c, e) :: (match side with
    | some (e2, _) => [(g.c, e2)]
    | none => [])
  | _ => []

/-- The tiles of a destination wait for empty, those of a source for ready (07 R186). -/
def State.tilesIn (s : State) (l : List (Nat × Nat)) (st : TileSt) : Bool :=
  l.all (fun p => match (s.core p.1).tiles.find p.2 with
    | some x => x.st == st
    | none => false)

/-- The flips at a start of the tiles of an endpoint. -/
def State.flipStart (s : State) (l : List (Nat × Nat)) (st : TileSt) : State := l.foldl (fun z p => z.setTile p.1 p.2 st) s

/-- The flips at the end of the tiles of an endpoint, for success and after a fault (07 R186). -/
def EndPt.flips (x : EndPt) (dest : Bool) : List (Nat × Nat × TileSt × TileSt) :=
  let keep := match x with
    | .tile _ _ _ _ k => k
    | _ => false
  x.entries.map (fun p => (p.1, p.2, if dest then .ready else if keep then .ready else .empty, if dest then .empty else .ready))

/-! ### Leave -/

/-- Entry `i` of the energy table, in nJ (18 R449). -/
def State.energy (s : State) (i : Nat) : Nat := fld (s.regVal (.enTab i)) 31 0

/-- Energy of `bytes` bytes in µJ, by the path of the destination (18 Table 18.1). -/
def State.moveCost (s : State) (bytes path : Nat) : Nat := (bytes * s.energy path + 1024 * 1000 - 1) / (1024 * 1000)

/-- Entry of the energy table for a destination: near, drawer, peer or host, scratchpad only (18 Table 18.1). Log entry 46, DEDUCED. -/
def Task.pathOf (k : Task) (x : EndPt) (a : At) : Nat :=
  match x with
  | .tensor tid d =>
    (match k.held? tid (d.loc a.c).1 with
     | some h => if frameClass h.frame ≤ 7 then 7 else if frameClass h.frame = 8 then 8 else 9
     | none => 7)
  | .peer _ => 9
  | _ => 10

end Sys2Proof.Machine
end

