-- ==== Sys2Proof/Machine/Copy.lean ====
section
/-!
DEFINITION. The copy channels (13): the C words, which the front captures and steers (02 R39, 13 R326, R332, R338), and the steps of a
channel: COPY_COMMAND_START, SECTOR_LANDS and COPY_COMMAND_COMPLETE (13 R327, R328, R334, R335), CPRO (12 R315), CREM with CREM_ACK and
HOLD_NOTICE (20 R487, R491, R492), and the all-reduce with COLLECTIVE_RESULT (20 R494).
-/

namespace Sys2Proof.Machine

/-! ### Steering -/

/-- The registers of an endpoint field (02 R45). -/
def Thread.capEnd (th : Thread) (r : BitVec 5) : List Word := (List.range 4).map (fun i => th.f.s.get 0 (r.toNat + i))

/-- The registers of the endpoint fields of a word (02 R45). -/
def endRegs (d a : BitVec 5) (de ae : Bool) : List Nat :=
  let regs (r : BitVec 5) : List Nat := (List.range 4).map (r.toNat + ·)
  (if de then regs d else []) ++ (if ae then regs a else [])

/-- Captured values: of an endpoint field the four registers, of another its value (02 R39). -/
def Thread.capture (th : Thread) (r : BitVec 5) (isEnd : Bool) : List Word := if isEnd then th.capEnd r else [th.sVal r]

/-- Steers a C word to its channel (02 R37, R39; 13 R326). `de` and `ae`: the field is an endpoint. `leased`: the word needs the group's
lease (13 R346, R347, 15 R373). `plain`: the word takes no nest (13 R332). -/
def steerC (s : State) (ch : BitVec 2) (d a b : BitVec 5) (de ae leased plain : Bool) : Out :=
  frontWord s (fun th => do
    let n := ch.toNat
    let nest := th.nests.find n
    let lease := match s.groupOf? th with
      | some g => if g.mask = 0 then 0 else g.lease
      | none => 0
    let srcs := (if de then [] else [d]) ++ (if ae then [] else [a]) ++ [b]
    if plain && nest.isSome then .error (.trap 0x01 s.cur.e.wordVal)
    else if leased && lease = 0 then .error (.trap 0x12 s.cur.e.wordVal)
    else
      th.sReady s.now srcs
      th.clean (endRegs d a de ae)
      if 32 ≤ (s.chan th.c n).q.length then .error (.wait none)
      else
        let e : QEntry := { s.cur.e with
          capD := th.capture d de, capA := th.capture a ae, capB := th.sVal b, nest := nest, lease := lease }
        let th1 := th.sPop srcs
        let th2 := if nest.isSome then { th1.log (.nest n nest) with nests := th1.nests.del n } else th1
        .ok ((s.setThread th2).modChan th.c n (fun x => { x with q := x.q ++ [e] }), none))

/-- CNEST (13 R332): the splitter holds the nest for the thread's next C word on the channel. -/
def execCnest (d a b : BitVec 5) (c : BitVec 2) (s : State) : Out :=
  sWord s (fun th => do
    let srcs := [d, a, b]
    th.sReady s.now srcs
    let x : Nest := { counts := th.sVal d, src := th.sVal a, dst := th.sVal b }
    let th1 := (th.sPop srcs).log (.nest c.toNat (th.nests.find c.toNat))
    .ok ({ th1 with nests := th1.nests.set c.toNat x }, none))

/-- CCPY (13 R339). -/
def execCcpy (d a b : BitVec 5) (c : BitVec 2) (_v : BitVec 4) (_o _t : BitVec 1) (s : State) : Out :=
  steerC s c d a b true true false false
/-- CST (13 R340). -/
def execCst (d a b : BitVec 5) (c : BitVec 2) (_v : BitVec 4) (_o _t : BitVec 1) (s : State) : Out :=
  steerC s c d a b true true false false
/-- CCPYS (13 R341). -/
def execCcpys (d a b : BitVec 5) (c : BitVec 2) (_v : BitVec 4) (_o _t : BitVec 1) (s : State) : Out :=
  steerC s c d a b true true false false
/-- CMC (13 R342). -/
def execCmc (d a b : BitVec 5) (c : BitVec 2) (_v : BitVec 4) (_o _t : BitVec 1) (s : State) : Out :=
  steerC s c d a b true true false false
/-- CGTH (13 R343). -/
def execCgth (d a b : BitVec 5) (c : BitVec 2) (_v : BitVec 4) (_o _t : BitVec 1) (s : State) : Out :=
  steerC s c d a b true true false false
/-- COPF (13 R346). -/
def execCopf (d a b : BitVec 5) (c : BitVec 2) (_v : BitVec 4) (_o _t : BitVec 1) (s : State) : Out :=
  steerC s c d a b false true true true
/-- CMETA (13 R347). -/
def execCmeta (d a b : BitVec 5) (c : BitVec 2) (_o : BitVec 1) (s : State) : Out := steerC s c d a b false true true true
/-- CRED (13 R344). -/
def execCred (d a b : BitVec 5) (c : BitVec 2) (_p : BitVec 4) (_o : BitVec 1) (s : State) : Out :=
  steerC s c d a b true true false false
/-- CSET (13 R345). -/
def execCset (d a b : BitVec 5) (c : BitVec 2) (_o : BitVec 1) (s : State) : Out := steerC s c d a b true false false false
/-- CREM (13 R348). -/
def execCrem (d a b : BitVec 5) (c : BitVec 2) (_v : BitVec 4) (_o _t : BitVec 1) (s : State) : Out :=
  steerC s c d a b true true false false
/-- CPRO (12 R314). -/
def execCpro (d a b : BitVec 5) (c : BitVec 2) (_o : BitVec 1) (s : State) : Out := steerC s c d a b true false false true

/-! ### Commands -/

/-- What a C word does. -/
inductive COp where
  | cpy | st | cpys | mc | gth | opf | mdata | red | set | rem | pro
  deriving DecidableEq, Repr

/-- The function fields of a C word (13 R338). -/
structure CForm where
  op : COp
  conv : Nat
  sat : Bool
  ord : Bool
  deriving DecidableEq, Repr

/-- The form of a steered word; none for another. -/
def cForm : Instr → Option CForm
  | .ccpy _ _ _ _ v o t => some { op := .cpy, conv := v.toNat, sat := t = 1, ord := o = 1 }
  | .cst _ _ _ _ v o t => some { op := .st, conv := v.toNat, sat := t = 1, ord := o = 1 }
  | .ccpys _ _ _ _ v o t => some { op := .cpys, conv := v.toNat, sat := t = 1, ord := o = 1 }
  | .cmc _ _ _ _ v o t => some { op := .mc, conv := v.toNat, sat := t = 1, ord := o = 1 }
  | .cgth _ _ _ _ v o t => some { op := .gth, conv := v.toNat, sat := t = 1, ord := o = 1 }
  | .copf _ _ _ _ v o t => some { op := .opf, conv := v.toNat, sat := t = 1, ord := o = 1 }
  | .cmeta _ _ _ _ o => some { op := .mdata, conv := 0, sat := false, ord := o = 1 }
  | .cred _ _ _ _ p o => some { op := .red, conv := p.toNat, sat := false, ord := o = 1 }
  | .cset _ _ _ _ o => some { op := .set, conv := 0, sat := false, ord := o = 1 }
  | .crem _ _ _ _ v o t => some { op := .rem, conv := v.toNat, sat := t = 1, ord := o = 1 }
  | .cpro _ _ _ _ o => some { op := .pro, conv := 0, sat := false, ord := o = 1 }
  | _ => none

/-- A nest's counts and steps (13 R332): 0 counts as 1, steps are 21-bit signed. A CST without a CNEST, for which 13 Table 13.3 requires
level 0 and gives no result, runs with n0 = 1. Log entry 92, DESIGN CHOICE. -/
def nestOf (n : Option Nest) : List Nat × List Int × List Int :=
  match n with
  | none => ([1, 1, 1], [0, 0, 0], [0, 0, 0])
  | some n =>
    let st (w : Word) : List Int := (List.range 3).map (fun i => (BitVec.ofNat 21 (fld w (21 * i + 20) (21 * i))).toInt)
    ((List.range 3).map (fun i => max 1 (fld n.counts (16 * i + 15) (16 * i))), st n.src, st n.dst)

/-- Where the sectors of a command are counted (13 R330, R342): one object, or one for each core of a multicast. -/
def State.cObjs (s : State) (e : QEntry) (g : Group) (op : COp) : Chk (List (Option (Nat × Nat))) :=
  if op = .mc then
    let m := fld (e.capD.getD 2 0) 31 0
    if fld (e.capD.getD 0 0) 13 12 ≠ 1 || m = 0 || fld e.capB 29 21 ≠ 0 then .error 0x11
    else ((List.range 32).filter (fun c => m.testBit c)).mapM (fun c =>
      match s.groupOn? e.task (32 * dieOf e.c + c) with
      | none => .error 0x11
      | some x => s.endObj e.task x.j x.c e.capB)
  else (s.endObj e.task g.j g.c e.capB).map (fun o => [o])

/-- A command with its checked operands. -/
structure Cmd where
  op : COp
  src : Option (EndPt × At)
  dsts : List (EndPt × At × Option (Nat × Nat))
  counts : List Nat
  u : List Int
  v : List Int
  e : Nat
  conv : Nat
  sat : Bool
  sBits : Nat
  dBits : Nat
  red : Option Nat
  /-- FORMAT or LAYOUT of types that do not fit: the last check of each sector (10 R269, 13 R333). -/
  bad : Option (BitVec 6)
  /-- The value of CSET; the element stride of CCPYS. -/
  val : Nat
  stride : Nat
  /-- The index tile of CGTH: its entry, and the indices. -/
  index : List (Nat × Nat)
  idx : List Nat
  slot : Option (Nat × Nat × Nat × BitVec 4)
  /-- A contribution to a collective: its number and operation (20 R494). -/
  coll : Option (Nat × Nat)
  deriving DecidableEq, Repr

/-- The strip that COPF and CMETA name: the k-th of the lease (13 R346, R347). -/
def Group.nthStrip (g : Group) (k : Nat) : Option Nat := (maskStrips g.mask)[k]?

/-- The destinations of a command, with what each counts at. -/
def State.cDsts (s : State) (svc : Nat) (e : QEntry) (g : Group) (f : CForm) (objs : List (Option (Nat × Nat))) :
    Chk (List (EndPt × At × Option (Nat × Nat))) := do
  let o := objs.headD none
  let die := dieOf g.c
  let w := e.capD.getD 0 0
  match f.op with
  | .mc =>
    let cs := (List.range 32).filter (fun c => (fld (e.capD.getD 2 0) 31 0).testBit c)
    (cs.zip objs).mapM (fun p =>
      match s.groupOn? e.task (32 * die + p.1) with
      | none => .error 0x11
      | some x => (s.tileEnd x e.capD true true).map (fun y => (y.1, y.2, p.2)))
  | .opf =>
    if fld w 63 7 ≠ 0 then .error 0x11
    else match g.nthStrip (fld w 6 4) with
      | none => .error 0x11
      | some n => .ok [(.slot die n (fld w 3 0), { c := [], o := 0 }, o)]
  | .mdata =>
    if fld w 63 3 ≠ 0 then .error 0x11
    else match g.nthStrip (fld w 2 0) with
      | none => .error 0x11
      | some n => .ok [(.mdata die n, { c := [], o := 0 }, o)]
  | _ =>
    let x ← s.endPt svc e.task g.j g.c e.capD true
    let peer := match x.1 with
      | .peer _ => true
      | _ => false
    if peer ≠ (f.op == .rem) || (f.op == .red && !x.1.isTensor) then .error 0x11
    else .ok [(x.1, x.2, o)]

/-- The types of a command (13 R333): bits of the elements of source and destination, the operation of a reduction, the destination's type,
and FORMAT or LAYOUT where the types do not fit. -/
structure CTypes where
  sBits : Nat
  dBits : Nat
  red : Option Nat
  ty : Nat
  bad : Option (BitVec 6)
  deriving DecidableEq, Repr

/-- The operation that CRED names by its code on a type, none for a type that it does not admit (13 R344). -/
def credOp (code ty : Nat) : Option Nat :=
  let i? : Option Nat := if ty = 2 then some 0 else if ty = 5 then some 1 else if ty = 6 then some 3 else if ty = 8 then some 4 else none
  match i? with
  | none => none
  | some i => if code < 3 then some (5 * code + i) else if i < 3 then some (0x0F + 2 * (code - 3)) else none

/-- Types of source and destination under a conversion (13 R333, R344, R345, R340, R341). A CST on a type of less than 8 bits or on blocks is
refused with n0 = 1 too, where another sentence makes it a CCPY. Log entry 92, DESIGN CHOICE. -/
def cTypes (f : CForm) (src : Option EndPt) (dsts : List EndPt) : Chk CTypes :=
  let typed := dsts.filter (fun x => match x with
    | .tensor _ _ | .tile _ _ _ _ _ => true
    | _ => false)
  match src, typed with
  | none, [] => .error 0x11
  | none, x :: _ =>
    .ok { sBits := elemBits x.ty, dBits := elemBits x.ty, red := none, ty := x.ty, bad := if x.ty = 12 then some x.mismatch else none }
  | some a, _ =>
    if f.op = .red then
      match typed with
      | [] => .error 0x11
      | x :: _ =>
        let op := credOp f.conv x.ty
        .ok { sBits := elemBits a.ty, dBits := elemBits x.ty, red := some (op.getD 0), ty := x.ty,
              bad := if op.isNone then some 0x0D else if a.ty ≠ x.ty then some a.mismatch else none }
    else
      let t : Nat × Nat := if f.conv = 0 then (a.ty, a.ty) else convTypes f.conv
      let off := typed.find? (fun x => x.ty ≠ t.2)
      let bad : Option (BitVec 6) :=
        if (f.op = .st || f.op = .cpys) && elemBits a.ty < 8 then some (if f.op = .cpys then 0x0D else a.mismatch)
        else if a.ty ≠ t.1 then some a.mismatch
        else match off with
          | some x =>
            some (if f.conv = 0 && x.ty + a.ty = 23 && ((a.isTensor && a.ty = 12) || (x.isTensor && x.ty = 12)) then 0x0D else x.mismatch)
          | none => if f.op = .st && elemBits t.2 < 8 then some ((typed.map EndPt.mismatch).headD 0x0D) else none
      .ok { sBits := elemBits a.ty, dBits := (off.map (fun x => elemBits x.ty)).getD (elemBits t.2), red := none, ty := t.2, bad := bad }

/-- The index tile of CGTH and its indices (13 R343). -/
def State.cIndex (s : State) (g : Group) (t n : Nat) : Chk (List (Nat × Nat) × List Nat) :=
  match g.tile? t with
  | none => .error 0x11
  | some e => match (s.core g.c).tiles.find e with
    | none => .error 0x07
    | some x =>
      if x.ty ≠ 2 && x.ty ≠ 5 then .error 0x08
      else if 512 * x.size < 4 * n then .error 0x11
      else .ok ([(g.c, e)], (List.range n).map (fun q => s.spGet g.c (g.phys (x.lo + swz x.swz.toNat (4 * q))) 4))

/-- The grant of a CREM (20 R492, R494): the collective's number and operation for kind 1. -/
def State.cGrant (s : State) (e : QEntry) (svc grant : Nat) (f : CForm) (src : Option (EndPt × At)) (n : Nat) :
    Chk (Option (Nat × Nat)) :=
  let w := s.mem.word (fld (s.reg (.svcFab svc)) 51 16 * 65536 + 0x8000 + 8 * grant)
  if !bit w 63 || !s.portOpen then .error 0x11
  else if !bit w 62 then .ok none
  else
    let op := fld w 44 40
    let c := nestOf e.nest
    if f.conv ≠ 0 || c.1 ≠ [1, 1, 1] || 0x14 < op || e.capD.getD 1 0 ≠ 0 then .error 0x11
    else match src with
      | some (.tile g y x sd k, at_) =>
        if g.c ≠ e.c then .error 0x11
        else
          let ok := match (opCode op).2 with
            | 1 => x.ty = 2
            | 2 => x.ty = 5
            | 4 => x.ty = 6
            | 5 => x.ty = 8
            | 6 => x.ty = 2 || x.ty = 5
            | _ => false
          let bytes := n * elemBits x.ty.toNat / 8
          if !ok then .error 0x08
          else match (EndPt.tile g y x sd k).runChk at_ n (elemBits x.ty.toNat) false with
            | .error c => .error c
            | .ok () => if bytes < 32 || 256 < bytes || 512 * x.size < at_.o.toNat + bytes then .error 0x11
                else .ok (some (fld w 11 0, op))
      | _ => .error 0x11

/-- The operands of a command at the head of its channel (13 R329, R330, R332, R333), its object found already. Nonzero reserved bits in a
nest's values, for which no cause is given, fault with BOUNDS. Log entry 92, DESIGN CHOICE. -/
def State.parse (s : State) (k : Task) (g : Group) (e : QEntry) (f : CForm) (objs : List (Option (Nat × Nat))) : Chk Cmd := do
  let n := nestOf e.nest
  let bad := match e.nest with
    | some n => fld n.counts 63 48 ≠ 0 || bit n.src 63 || bit n.dst 63
    | none => false
  let x := fld e.capB 39 31
  let e0 := fld e.capB 63 40
  let xBad := if f.op = .cpys then x = 0 else if f.op = .gth then 256 ≤ x else x ≠ 0
  if bad || xBad then .error 0x11
  let dsts ← s.cDsts k.svc e g f objs
  let src ← if f.op = .set then .ok none else (s.endPt k.svc e.task g.j g.c e.capA false).map some
  match src with
  | some (.peer _, _) => .error 0x11
  | _ => .ok ()
  if f.op = .gth && !((src.map (fun a => a.1.isTensor)).getD false) then .error 0x11
  let t ← cTypes f (src.map (·.1)) (dsts.map (·.1))
  let sB := t.sBits
  let dB := t.dBits
  let es ← (if f.op = .opf then (if e0 ≠ 0 then .error 0x11 else .ok (4096 / dB))
    else if f.op = .mdata then (if e0 = 0 || 64 < e0 then .error 0x11 else .ok (e0 * 2048 / dB))
    else if e0 = 0 then .error 0x11 else .ok e0 : Chk Nat)
  if f.op ≠ .red && 11 ≤ f.conv && es % 64 ≠ 0 then .error 0x05
  let ix ← if f.op = .gth then s.cIndex g (x % 256) (n.1.getD 0 1) else .ok ([], [])
  let coll ← (match dsts with
    | [(.peer grant, _, _)] => s.cGrant e k.svc grant f src es
    | _ => .ok none : Chk (Option (Nat × Nat)))
  let slot : Option (Nat × Nat × Nat × BitVec 4) := match dsts with
    | [(.slot d st i, _, _)] => some (d, st, i, BitVec.ofNat 4 (if t.ty = 12 then 11 else t.ty))
    | _ => none
  let srcT := match src with
    | some a => a.1.entries
    | none => []
  if srcT.any (fun p => (dsts.flatMap (fun d => d.1.entries)).contains p) then .error 0x11
  .ok { op := f.op, src := src, dsts := dsts, counts := if f.op = .opf then [256, 1, 1] else n.1, u := n.2.1, v := n.2.2, e := es,
        conv := if f.op = .red then 0 else f.conv, sat := f.sat, sBits := sB, dBits := dB, red := t.red, bad := t.bad,
        val := (e.capA.getD 0 0).toNat % 2 ^ sB, stride := if f.op = .cpys then x else 1, index := ix.1, idx := ix.2,
        slot := slot, coll := coll }

/-- The lease that a COPF or a CMETA was steered under is still the group's (15 R373). -/
def Group.leaseChk (g : Group) (e : QEntry) (f : CForm) : Chk Unit :=
  if (f.op = .opf || f.op = .mdata) && (g.mask = 0 || g.lease ≠ e.lease) then .error 0x12 else .ok ()

/-- A command at the head of its channel, checked: its lease (15 R373), what it counts at, and its operands. -/
def State.command (s : State) (k : Task) (g : Group) (e : QEntry) (f : CForm) : Chk Cmd := do
  g.leaseChk e f
  let objs ← s.cObjs e g f.op
  s.parse k g e f objs

/-! ### The plan of a command -/

/-- The origin of run (i0, i1, i2) at the source (13 R332, R343, R346). -/
def Cmd.srcAt (m : Cmd) (x : EndPt) (a : At) (i0 i1 i2 : Nat) : Chk At := do
  let a0 ← match m.op with
    | .opf => (match x with
      | .tensor _ d => .ok (a.step d 1 i0)
      | _ => .ok { a with o := a.o + (i0 * 512 * m.sBits / m.dBits : Nat) } : Chk At)
    | .gth => (match x with
      | .tensor _ d => .ok (a.step d 1 (m.idx.getD i0 0 : Nat))
      | _ => .error 0x11 : Chk At)
    | _ => x.adv a 0 i0 (m.u.getD 0 0)
  let a1 ← x.adv a0 1 i1 (m.u.getD 1 0)
  x.adv a1 2 i2 (m.u.getD 2 0)

/-- The origin of a run at a destination: for a transposing command, run `i0` counts elements of the source run (13 R340).
Log entry 45, DEDUCED. -/
def Cmd.dstAt (m : Cmd) (x : EndPt) (a : At) (i0 i1 i2 : Nat) : Chk At := do
  let a0 ← match m.op with
    | .opf => (.ok { a with o := a.o + (512 * i0 : Nat) } : Chk At)
    | .st => if m.counts.getD 0 1 = 1 then .ok a else (match x with
      | .tensor _ d => .ok (a.step d 1 i0)
      | _ => .ok { a with o := a.o + (i0 * (m.counts.getD 0 1 * m.dBits / 8) : Nat) } : Chk At)
    | _ => x.adv a 0 i0 (m.v.getD 0 0)
  let a1 ← x.adv a0 1 i1 (m.v.getD 1 0)
  x.adv a1 2 i2 (m.v.getD 2 0)

/-- The conditions of source run (i0, i1, i2) (13 R331). `whole`: with those on its last byte. -/
def Cmd.srcRun (m : Cmd) (i0 i1 i2 : Nat) (whole : Bool) : Chk Unit :=
  match m.src with
  | none => .ok ()
  | some (x, a) => do
    let a1 ← m.srcAt x a i0 i1 i2
    x.runChk a1 m.e m.sBits (m.op = .cpys)
    if whole then x.runEnd a1 (((m.e - 1) * m.stride + 1) * m.sBits / 8) else .ok ()

/-- The read of element `i` of source run (i0, i1, i2). -/
def State.cElem (s : State) (k : Task) (m : Cmd) (i0 i1 i2 i : Nat) : Chk SrcEl :=
  match m.src with
  | none => .ok { src := .val m.val 0x007F, hi := false }
  | some (x, a) => do
    let a1 ← m.srcAt x a i0 i1 i2
    x.runChk a1 m.e m.sBits (m.op = .cpys)
    s.srcElem k x a1 (m.stride * i) m.sBits

/-- The sectors of several destinations, each in its own order (13 R342). -/
def weave (ls : List (List Planned)) : List Planned :=
  (List.range (ls.foldl (fun n l => max n l.length) 0)).flatMap (fun i => ls.filterMap (fun l => l[i]?))

/-- A unit of elements whose types do not fit fails, after its other checks (10 R269, 13 R333). -/
def Cmd.mark (m : Cmd) (p : Planned) : Planned := if p.1.tgt = .none then p else (p.1, p.2.orElse (fun _ => m.bad))

/-- The plan of a command (13 R332, R334): its units in write order. `blind`: only the destinations are checked. -/
def State.plan (s : State) (k : Task) (m : Cmd) (blind : Bool) : List Planned :=
  let trans := m.op = .st && m.counts.getD 0 1 ≠ 1
  let n0 := if trans then m.e else m.counts.getD 0 1
  let n := if trans then m.counts.getD 0 1 else m.e
  let acc : Access := match m.red with
    | some p => .red p
    | none => .store
  (List.range (m.counts.getD 2 1)).flatMap (fun i2 => (List.range (m.counts.getD 1 1)).flatMap (fun i1 =>
    (List.range n0).flatMap (fun i0 =>
      if m.op = .gth && m.idx.getD i0 0 = 0xFFFFFFFF then
        (m.dsts.map (fun d =>
          (({ tgt := .none, parts := [], side := [], count := m.e * m.dBits / 8, obj := d.2.2 } : Sector), none)))
      else
        (weave (m.dsts.map (fun d =>
          match m.dstAt d.1 d.2.1 i0 i1 i2 with
          | .error c => faultPlan c
          | .ok a =>
            s.planRun k d.1 acc d.2.2 a n m.dBits
              (if blind then .ok ()
               else if trans then (List.range n).foldl (fun z i => z.bind (fun _ => m.srcRun i i1 i2 (i0 + 1 = n0))) (.ok ())
               else m.srcRun i0 i1 i2 true) (fun i =>
              if blind then .ok { src := .zero, hi := false }
              else if trans then s.cElem k m i i1 i2 i0
              else s.cElem k m i0 i1 i2 i)))).map m.mark)))

/-- The bytes that a command writes in all (13 R328). -/
def Cmd.bytes (m : Cmd) : Nat := prodN m.counts * m.e * m.dBits / 8 * m.dsts.length

/-! ### Starting -/

/-- No older C word of the thread is on a channel of its core (13 R328). -/
def State.ordered (s : State) (e : QEntry) : Bool :=
  (List.range 4).all (fun n =>
    let x := s.chan e.c n
    let old (y : QEntry) : Bool := y.c == e.c && y.t == e.t && y.task == e.task && older y.seq e.seq
    !x.q.any old && !((x.run.map (fun r => old r.e)).getD false))

/-- A queued word of an engine is at its thread's horizon (02 R40, 13 R328). -/
def State.atHorizonOf (s : State) (e : QEntry) : Bool :=
  match s.thread? e.c e.t with
  | some th => !e.ofThread th || th.atHorizon e.seq
  | none => true

/-- Asks for leave (18 R449), at the clock of a cluster of the die. -/
def State.askLeave (s : State) (die cluster svc cost dur : Nat) (e : QEntry) (who : LeaveFor) : State :=
  let r : LeaveReq := { id := s.nextLeave, cost := cost, dur := dur, mhz := s.mhz die cluster, current := true,
                        since := s.now, who := who, c := e.c, t := e.t, short := none, noticed := false }
  { s.modDie die (fun d => { d with leaveQ := d.leaveQ.set svc (d.leaveQ.get [] svc ++ [r]) }) with nextLeave := s.nextLeave + 1 }

/-- The bytes and path for which a command draws leave; none where it needs none (13 R328, 12 R315). -/
def leaveOf (k : Task) (m : Cmd) : Option (Nat × Nat) :=
  match m.dsts with
  | d :: _ => if 65536 < m.bytes then some (m.bytes, k.pathOf d.1 d.2.1) else none
  | [] => none

/-- A run of a command, before it writes. -/
def QEntry.run (e : QEntry) (svc grp : Nat) (objs : List (Nat × Nat)) (leaveId : Nat) : Run :=
  { e := e, svc := svc, grp := grp, left := [], done := 0, conv := 0, sat := false, sBits := 8, dBits := 8, red := none, fault := none,
    flips := [], slot := none, objs := objs, leaveId := leaveId, half := 0, fet := [], drw := false, inp := [], sent := false,
    drt := false, vc := none, units := 0, nest := none, coll := none, back := [] }

/-- A record of the start (kind 4) or the end (kind 5) of a command, in the trace ring of its thread's core (21 R498, Table 21.1): the
channel or strip index, the engine's die and core, and at an end whether it faulted and the sectors that it wrote. -/
def State.cmdTrace (s : State) (kind : Nat) (e : QEntry) (idx place : Nat) (fault : Bool) (done : Nat) : State :=
  match s.thread? e.c e.t with
  | none => s
  | some th =>
    if e.ofThread th && th.traces 4 then
      let w := e.ins.encodeWord.toNat
      let w1 := w / 2 ^ 23 % 64 + w / 2 ^ 29 % 8 * 2 ^ 6 + idx % 4 * 2 ^ 9
      s.trace e.c e.t kind e.seq e.corr (if kind = 5 && fault then w1 + 2 ^ 31 else w1) (wd (if kind = 4 then place else done)) 0
    else s

/-- The head of a channel starts as a run. -/
def State.startRun (s : State) (c ch : Nat) (q : List QEntry) (r : Run) : State :=
  (s.cmdTrace 4 r.e ch c false 0).modChan c ch (fun x => { x with q := q, run := some r, last := s.now + 1, leave := 0, granted := false })

/-- The units of the result of a command's collective, to be written back into the tile (20 R494): an element stands for the bit offset that
it has in the result. -/
def State.collPlan (s : State) (k : Task) (m : Cmd) : List Planned :=
  match m.src with
  | none => []
  | some (x, a) => s.planRun k x .store ((m.dsts.map (·.2.2)).headD none) a m.e m.sBits (.ok ()) (fun i =>
      .ok { src := .val (i * m.sBits) 0x007F, hi := false })

/-- The units of a result, with its values. -/
def Sector.filled (x : Sector) (bits : Nat) (vals : List (BitVec 256)) : Sector :=
  { x with parts := x.parts.map (fun p => { p with els := p.els.map (fun e => match e.src with
      | .val b side => { e with src := .val ((vals.getD (b / 256) 0).toNat / 2 ^ (b % 256) % 2 ^ bits) side }
      | _ => e) }) }

/-- The contributions of a command to a collective, and the tile flips of it (20 R494). -/
def State.startColl (s : State) (k : Task) (c ch : Nat) (m : Cmd) (num op : Nat) (r : Run) : State × Run :=
  match m.src with
  | none => (s, r)
  | some (x, a) =>
    let r1 := { r with sBits := m.sBits, dBits := m.sBits, sent := true, coll := some num, back := (upTo (s.collPlan k m)).1,
                       flips := x.entries.map (fun p => (p.1, p.2, TileSt.ready, TileSt.ready)) }
    let us := s.planRun k (.peer 0) .store none { c := [], o := 0 } m.e m.sBits (.ok ()) (fun i => s.srcElem k x a i m.sBits)
    let s1 := us.zipIdx.foldl (fun z p =>
      let v := z.unitData r1 [] p.1.1
      let q : FabReq := { id := z.nextFab, pkg := 0, kind := 5, addr := num * 2 ^ 32 + 32 * p.2, op := op, data := BitVec.ofNat 256 v.1,
                          mask := BitVec.ofNat 32 v.2.1, who := .chan c ch, since := z.now, sync := false, corr := r.e.corr, fill := none }
      { z with fab := z.fab ++ [q], nextFab := z.nextFab + 1 }) s
    (s1.flipStart x.entries .draining, r1)

/-- Starts a checked command whose conditions hold (13 R334, R335). Log entry 44, DEDUCED. -/
def State.startCmd (s : State) (k : Task) (c ch : Nat) (q : List QEntry) (m : Cmd) (r0 : Run) : State :=
  let whole := s.plan k m false
  let all := upTo whole
  let first := (upTo (s.plan k m true)).2
  let none_ := (k.guarded || m.op = .rem) && all.2.isSome
  let r : Run := { r0 with conv := m.conv, sat := m.sat, sBits := m.sBits, dBits := m.dBits, red := m.red }
  if none_ then s.startRun c ch q { r with fault := all.2 }
  else if m.op = .mc && first.isSome then s.startRun c ch q { r with fault := first }
  else
    let src := match m.src with
      | some a => a.1
      | none => .mdata 0 0
    let s1 := (s.flipStart src.entries .draining).flipStart m.index .draining
    let s2 := s1.flipStart (m.dsts.flatMap (fun d => d.1.entries)) .filling
    let s3 := match m.slot with
      | some (d, st, n, _) => s2.modStrip d st (fun y =>
          { y with slots := y.slots.set n { (y.slots.get Slot.init n) with st := some .filling, data := [], sb := [], marks := [] } })
      | none => s2
    s3.startRun c ch q { r with
      left := all.1, fault := all.2, slot := m.slot
      flips := src.flips false ++ m.index.map (fun p => (p.1, p.2, TileSt.ready, TileSt.ready)) ++
        m.dsts.flatMap (fun d => d.1.flips true) }

/-- The units of CPRO (12 R315). -/
def State.proPlan (s : State) (k : Task) (e : QEntry) (byteObj : Option (Nat × Nat)) : Chk (Desc × Nat × List Planned) := do
  let w := e.capD.getD 0 0
  let tid := fld w 11 0
  let aReg := match e.ins with
    | .cpro _ a _ _ _ => a
    | _ => 0
  let cnt := if aReg = 0 then 1 else (e.capA.getD 0 0).toNat
  match s.desc? k.svc tid with
  | none => .error 0x11
  | some d =>
    let x (i : Nat) : Word := e.capD.getD i 0
    let c := [fld (x 1) 31 0, fld (x 1) 63 32, fld (x 2) 31 0, fld (x 2) 63 32, fld (x 3) 31 0, fld (x 3) 63 32]
    if !d.inside c then .error 0x11
    else if cnt = 0 || 65536 < cnt then .error 0x11
    else
      let i0 := (d.loc c).1
      .ok (d, cnt, (List.range cnt).map (fun q =>
        let fault : Option (BitVec 6) :=
          if d.tiles ≤ i0 + q then some 0x11
          else if (k.held? tid (i0 + q)).isNone || (k.rangesOn d tid (i0 + q)).isEmpty then some 0x06 else none
        ({ tgt := .fetched k.svc tid (i0 + q), parts := [], side := [], count := d.bytes, obj := byteObj }, fault)))

/-- Leave for a command at its head: asked for, waited for, or granted. With a number, the command may start. -/
def State.leaveFor (s : State) (c ch : Nat) (k : Task) (e : QEntry) (need : Option (Nat × Nat)) : State × Option Nat :=
  match need with
  | none => (s, some 0)
  | some (bytes, path) =>
    let x := s.chan c ch
    if x.leave = 0 then
      ((s.askLeave (dieOf c) (clusterOf c) k.svc (s.moveCost bytes path) bytes e (.chan c ch)).modChan c ch (fun y =>
        { y with leave := s.nextLeave }), none)
    else if x.granted then (s, some x.leave) else (s, none)

/-- A command ends without having started: its fault is recorded at its completion. -/
def State.failCmd (s : State) (c ch : Nat) (q : List QEntry) (r : Run) (cause : BitVec 6) : State :=
  (s.dropLeave (dieOf c) (s.chan c ch).leave).startRun c ch q { r with fault := some cause }

/-- A word of the index tile that a gather reads carries a poison mark (19 R467). -/
def State.indexMark (s : State) (m : Cmd) : Option (Nat × Nat) :=
  m.index.findSome? (fun p => match (s.core p.1).tiles.find p.2, s.groups.find? (fun g => g.c == p.1 &&
      decide (8 * g.tbase ≤ p.2) && decide (p.2 < 8 * (g.tbase + g.tcnt))) with
    | some x, some g => (List.range m.idx.length).findSome? (fun q =>
        (s.spPoisoned g.c (g.phys (x.lo + swz x.swz.toNat (4 * q))) 4).map (fun o => (g.c, o)))
    | _, _ => none)

/-- The banks that the reading of a gather's index tile takes (07 R184). -/
def State.indexBanks (s : State) (who : Owner) (m : Cmd) : State :=
  s.runBanks who (m.index.flatMap (fun p => match (s.core p.1).tiles.find p.2, s.groups.find? (fun g => g.c == p.1 &&
      decide (8 * g.tbase ≤ p.2) && decide (p.2 < 8 * (g.tbase + g.tcnt))) with
    | some x, some g => (List.range m.idx.length).map (fun q => (g.c, g.phys (x.lo + swz x.swz.toNat (4 * q)), 4))
    | _, _ => []))

/-- What a command reads at its start carries a poison mark (19 R467): an entry of the tile table, or the index tile. -/
def State.startMark (s : State) (m : Cmd) : Option (Nat × Nat × Nat) :=
  let es := m.index ++ (match m.src with
    | some a => a.1.entries
    | none => []) ++ m.dsts.flatMap (fun d => d.1.entries)
  match es.find? (fun p => (((s.core p.1).tiles.find p.2).any (·.mark))) with
  | some p => some (9, p.1, entryLoc p.2)
  | none => (s.indexMark m).map (fun p => (0, p))

/-- Tries to start the command at the head of a channel: none while a condition of R328 does not hold. -/
def State.copyHead (s : State) (c ch : Nat) (e : QEntry) (q : List QEntry) : Option State :=
  let x := s.chan c ch
  match s.task? e.task, s.groupOn? e.task c, cForm e.ins with
  | some k, some g, some f =>
    if k.st == .saving || !s.atHorizonOf e || (f.ord && !s.ordered e) || (x.last ≠ 0 && decide (s.now + 1 < x.last + e.pace.toNat)) then none
    else if f.op = .pro then
      let o : Chk (Option (Nat × Nat)) := match e.ins with
        | .cpro _ _ b _ _ => if b = 0 then .ok none else (chkOf (s.objRef e.task g.j g.c e.capB 0)).map some
        | _ => .ok none
      let r := e.run k.svc g.j (match o with
        | .ok (some y) => [y]
        | _ => []) 0
      match (o.bind (fun o => s.proPlan k e o)) with
      | .error cause => some (s.failCmd c ch q r cause)
      | .ok (d, cnt, us) =>
        let l := s.leaveFor c ch k e (if 65536 < d.bytes then some (cnt * d.bytes, 7) else none)
        match l.2 with
        | none => if x.leave = 0 then some l.1 else none
        | some id =>
          let p := upTo us
          some (s.startRun c ch q { r with left := p.1, fault := p.2, leaveId := id })
    else
      let objs := s.cObjs e g f.op
      let os := match objs with
        | .ok l => l.filterMap id
        | .error _ => []
      let r := e.run k.svc g.j os 0
      match s.command k g e f with
      | .error cause => some (s.failCmd c ch q r cause)
      | .ok m =>
        let srcT := match m.src with
          | some a => a.1.entries
          | none => []
        let busy := match m.coll with
          | some (n, _) => s.cores.any (fun p => p.2.chans.any (fun q => q.2.run.any (fun r => r.coll == some n)))
          | none => false
        let slot := match m.slot with
          | some (d, st, n, _) => ((s.strip d st).slots.get Slot.init n).st
          | none => some .empty
        if slot.isNone then some (s.failCmd c ch q r 0x07)
        else if slot ≠ some .empty || busy || !s.tilesIn srcT .ready || !s.tilesIn m.index .ready ||
            !s.tilesIn (m.dsts.flatMap (fun d => d.1.entries)) .empty then none
        else
          let l := s.leaveFor c ch k e (leaveOf k m)
          match l.2 with
          | none => if x.leave = 0 then some l.1 else none
          | some id =>
            let r1 := { r with leaveId := id }
            match s.startMark m with
            | some (u, kc, o) =>
              some ((s.consume e.task e.c e.t e.addr e.corr u (dieOf kc) (kc % 32) o (wd o)).startRun c ch q r1)
            | none => match m.coll with
              | some (n, op) =>
                (match (upTo (s.collPlan k m)).2 with
                | some cause => some (s.startRun c ch q { r1 with fault := some cause })
                | none =>
                  let y := s.startColl k c ch m n op r1
                  some (y.1.startRun c ch q y.2))
              | none => some ((s.indexBanks (.chan c ch) m).startCmd k c ch q m r1)
  | _, _, _ => some (s.modChan c ch (fun y => { y with q := q }))

/-- COPY_COMMAND_START (13 R328). -/
def execCopyCommandStart (s : State) : Out :=
  match s.cur.ev with
  | some (.copyCommandStart c ch) =>
    let x := s.chan c ch
    match x.run, x.q with
    | none, e :: q => (match s.copyHead c ch e q with
      | some s1 => .next s1
      | none => .next s.stall)
    | _, _ => .next s.stall
  | _ => .fault .noEvent

/-! ### Running and ending -/

/-- The fabric accesses of an owner are no longer awaited. -/
def State.dropFab (s : State) (who : Owner) : State :=
  ({ s with fab := s.fab.filter (fun f => f.who ≠ who)
            storeQ := s.storeQ.map (fun q => if q.eng = some who then { q with eng := none } else q) } : State).dropWaits who

/-- A run ends: tiles and slot flip, and after a fault the objects are poisoned and `cerr` records it (13 R334-R336). -/
def State.endRun (s : State) (c ch : Nat) (r : Run) (ok : Bool) : State :=
  let s1 := (s.dropFab (.chan c ch)).modChan c ch (fun x => { x with run := none })
  let s2 := (((s1.flipEnd r ok).slotEnd r ok).settle (dieOf c) r.leaveId).cmdTrace 5 r.e ch c (!ok) r.done
  match r.fault with
  | some cause => (s2.poisonObjs r.objs).putCerr r ch cause
  | none => s2

/-- A run stops at a fault. -/
def Run.stop (r : Run) (cause : BitVec 6) : Run := { r with left := [], sent := false, fault := some cause }

/-- An unguarded command that has come to a unit at which a check failed makes it, and those that follow, again: it checks as it writes (13
R335). -/
def State.again (s : State) (c : Nat) (r : Run) : Run :=
  match r.fault, s.task? r.e.task, s.groupOn? r.e.task c, cForm r.e.ins with
  | some _, some k, some g, some f =>
    if k.guarded || !r.left.isEmpty || f.op = .rem || f.op = .pro then r
    else match s.command k g r.e f with
    | .ok m =>
      let p := upTo ((s.plan k m false).drop r.units)
      { r with left := p.1, fault := if p.1.isEmpty then r.fault else p.2 }
    | .error _ => r
  | _, _, _, _ => r

/-- SECTOR_LANDS (13 R334): the next unit of a channel's command is read, converted and lands. -/
def execSectorLands (s : State) : Out :=
  match s.cur.ev with
  | some (.sectorLands c ch) =>
    (match (s.chan c ch).run with
    | none => .next s.stall
    | some r =>
      let put (z : State) (r : Run) : State := z.modChan c ch (fun x => { x with run := some r })
      match s.engineStep r (.chan c ch) (dieOf c) with
      | .here s1 r1 () => .next (put s1 (s1.again c r1))
      | .held s1 r1 => .next (put s1 r1).stall
      | .fault cause => .next (put s (r.stop cause))
      | .marked u d k l v =>
        .next ((s.consume r.e.task r.e.c r.e.t r.e.addr r.e.corr u d k l v).endRun c ch { r with fault := none } false))
  | _ => .fault .noEvent

/-- COPY_COMMAND_COMPLETE (13 R327, R334, R335). -/
def execCopyCommandComplete (s : State) : Out :=
  match s.cur.ev with
  | some (.copyCommandComplete c ch) =>
    (match (s.chan c ch).run with
    | none => .next s.stall
    | some r => if r.left.isEmpty && !r.sent then .next (s.endRun c ch r r.fault.isNone) else .next s.stall)
  | _ => .fault .noEvent

/-! ### Answers from peers and switches -/

/-- CREM_ACK (20 R491, R492): the target has written the sector, or has refused it. -/
def execCremAck (s : State) : Out :=
  match s.cur.ev with
  | some (.cremAck c ch ok) =>
    (match (s.chan c ch).run with
    | none => .next s
    | some r =>
      if !s.portOpen || !s.fab.any (fun f => f.who == .chan c ch && f.kind == 4) then .next s
      else
        let s1 := (s.dropFab (.chan c ch))
        if ok then
          let z := s1.landed r
          .next (z.1.modChan c ch (fun x => { x with run := some z.2 }))
        else .next (s1.modChan c ch (fun x => { x with run := some (r.stop 0x11) })))
  | _ => .fault .noEvent

/-- HOLD_NOTICE (20 R491): the source's timeout restarts. -/
def execHoldNotice (s : State) : Out :=
  match s.cur.ev with
  | some (.holdNotice c ch) =>
    .next { s with fab := s.fab.map (fun f => if s.portOpen && f.who = .chan c ch then { f with since := s.now } else f) }
  | _ => .fault .noEvent

/-- COLLECTIVE_RESULT (20 R494): the result returns to be written back; none where the participants' lengths differ. -/
def execCollectiveResult (s : State) : Out :=
  match s.cur.ev with
  | some (.collectiveResult c ch vals) =>
    (match (s.chan c ch).run with
    | none => .next s
    | some r =>
      if !s.portOpen || !s.fab.any (fun f => f.who == .chan c ch && f.kind == 5) then .next s
      else
        let s1 := (s.dropFab (.chan c ch))
        match vals with
        | some l =>
          .next (s1.modChan c ch (fun x => { x with run := some { r with left := r.back.map (·.filled r.sBits l), sent := false } }))
        | none => .next (s1.modChan c ch (fun x => { x with run := some (r.stop 0x11) })))
  | _ => .fault .noEvent

end Sys2Proof.Machine
end

