-- ==== Sys2Proof/Machine/Pass.lean ====
section
/-!
DEFINITION. The arithmetic of a field: lines of slots and weight buffers (15 R375, R378), one pass into an accumulator element (03
R82-R84, 15 R393), sparsity metadata (15 R380) and the conversions of a drain (15 Table 15.6, R397).
-/

namespace Sys2Proof.Machine

/-! ### Lines -/

/-- Elements of 512 bytes of a type of 15 R388. -/
def lineLen (t : Nat) : Nat := 4096 / laneW t

/-- The numbers of a line: 512 bytes, with the sideband of its blocks for e2m1 (15 R375, 03 R71). -/
def lineVals (t v side : Nat) : List FV :=
  (List.range (lineLen t)).map (fun i =>
    let c := v / 2 ^ (laneW t * i) % 2 ^ laneW t
    if t = 11 then blockElem c (side / 2 ^ (16 * (i / 32)) % 256) (side / 2 ^ (16 * (i / 32) + 8) % 256) else laneFV t c)

/-- Line `l` of a slot or weight buffer. -/
def slotLine (t : Nat) (data sb : Memory) (l : Nat) : List FV := lineVals t (data.getN (512 * l) 512) (sb.getN (64 * l) 64)

/-- Column `c` of a weight buffer (15 R392). -/
def Weights.column (w : Weights) (t c : Nat) : List FV :=
  slotLine t w.lo w.loSb c ++ (if w.pair then slotLine t w.hi w.hiSb c else [])

/-- Operand and weight types that pair (15 R389). -/
def pairs (t u : Nat) : Bool :=
  let fp8 (x : Nat) : Bool := x = 9 || x = 10
  let i8 (x : Nat) : Bool := x = 0 || x = 3
  (fp8 t && fp8 u) || (i8 t && i8 u) || (t = 8 && u = 8) || (t = 11 && u = 11)

/-! ### Passes -/

/-- Rounds to a 48-bit significand, to nearest even (03 R83). -/
def round48 (x : FV) : FV :=
  match x with
  | .fin s m e =>
    let q : Int := e + bitLen m - 48
    if q ≤ e then x else .fin s (roundAt 0 s m e q false).1 q
  | y => y

/-- The value of an accumulator element under its tag (15 R379). -/
def accVal (tag : AccTag) (b : BitVec 32) : FV :=
  match tag with
  | .none => .fin false 0 0
  | .f32 => laneFV 6 b.toNat
  | .i32 => laneFV 2 b.toNat

/-- One pass into one element (03 R82-R84): `t` is the operand type. -/
def passElem (t : Nat) (acc : BitVec 32) (prods : List (FV × FV)) : BitVec 32 :=
  let ps := prods.map (fun p => (exMul p.1 p.2).v)
  let all := exSum 0 ps
  let f32 (l : List FV) : BitVec 32 := BitVec.ofNat 32 (Fmt.f32.round 0 false (exSum 0 l)).1
  let a := laneFV 6 acc.toNat
  if t = 0 || t = 3 then
    BitVec.ofInt 32 ((laneInt 2 acc.toNat) + (match all.v with
      | .fin _ _ _ => all.v.units 0
      | _ => 0))
  else match all.v with
    | .fin _ m _ =>
      if t = 9 || t = 10 then (if m = 0 then acc else f32 [a, all.v])
      else f32 [a, ps.foldl (fun w p => round48 (exSum 0 [w, p]).v) (.fin false 0 0)]
    | x => f32 [a, x]

/-- The pairs of kept elements of a sparse pass (15 R380): positions in the line and in the column; none for a bad nibble. -/
def keptPairs (e : Vec) (g : Nat) : Option (List (Nat × Nat)) :=
  (List.range g).foldr (fun i (r : Option (List (Nat × Nat))) =>
    let x := e.toNat / 2 ^ (4 * i) % 16
    if x % 4 < x / 4 then r.map (fun l => (2 * i, 4 * i + x % 4) :: (2 * i + 1, 4 * i + x / 4) :: l) else none) (some [])

/-- A half after a pass of 256 lines over 256 columns, of which `rows` and `cols` hold the factors of the products (15 R393). -/
def Acc.pass (a : Acc) (t : Nat) (rows cols : List (List FV)) : Acc :=
  { tag := if t = 0 || t = 3 then .i32 else .f32
    e := rows.zipIdx.flatMap (fun r => cols.zipIdx.filterMap (fun c =>
      let k := 256 * r.2 + c.2
      let old : BitVec 32 := if a.tag = .none then 0 else a.e.get 0 k
      let v := passElem t old (r.1.zip c.1)
      if v = 0 then none else some (k, v)))
    undrained := true, marks := [] }

/-- An element of a half. -/
def Acc.at (a : Acc) (row col : Nat) : BitVec 32 := if a.tag = .none then 0 else a.e.get 0 (256 * row + col)

/-! ### Drains -/

/-- A drained value (15 Table 15.6); a half of tag none drains zeros. -/
def drainVal (tag : AccTag) (t : Nat) (sat : Bool) (b : BitVec 32) : Nat :=
  match tag with
  | .none => 0
  | .f32 => if t = 6 then b.toNat else if isInt t then (fvToInt t 0 (laneFV 6 b.toNat)).1
    else (roundTy t 0 sat (Ex.of (laneFV 6 b.toNat))).1
  | .i32 => if t = 2 then b.toNat else if isInt t then (intLane t sat (laneInt 2 b.toNat)).1
    else (roundTy t 0 sat (Ex.of (laneFV 2 b.toNat))).1

/-- The pattern of the greatest magnitude among values, as f32 (15 R397). -/
def amaxOf (l : List FV) : BitVec 32 :=
  if l.any FV.isNan then BitVec.ofNat 32 Fmt.f32.nanBits
  else BitVec.ofNat 32 (Fmt.f32.round 0 false (Ex.of (l.foldl (fun m x =>
    if 0 < FV.cmp (x.withSign false) m then x.withSign false else m) (.fin false 0 0)))).1

end Sys2Proof.Machine
end

