-- ==== Sys2Proof/Machine/Fragment.lean ====
section
/-!
DEFINITION. Fragments of a lease (14 R350, R359): which strips a queue drives, how an M word is steered (15 R371), how it leaves the head
of its queue or is recorded or replayed in a nest (15 R382-R384), and fragment faults (14 R362, 15 R386, R387).
-/

namespace Sys2Proof.Machine

/-! ### Strips of a lease -/

/-- The strips of the lease that holds strip `n`, in ascending order (14 R349). -/
def State.leaseStrips (s : State) (die n : Nat) : List Nat :=
  let l := (s.strip die n).lease
  if l = 0 then [n] else (List.range 8).filter (fun i => (s.strip die i).lease == l)

/-- The strips of the fragment that strip `n` belongs to (14 R350): on a lease of one strip every mode acts as independent. -/
def State.fragOf (s : State) (die n : Nat) : List Nat :=
  let l := s.leaseStrips die n
  if (s.strip die n).mode = 0 || l.length ≤ 1 then [n] else l

/-- The strip whose sequencer drives the fragment of strip `n`. -/
def State.driverOf (s : State) (die n : Nat) : Nat := (s.fragOf die n).headD n

/-- The fragment of strip `n` runs in chained mode (14 R359). -/
def State.chained (s : State) (die n : Nat) : Bool := (s.strip die n).mode = 2 && decide (1 < (s.leaseStrips die n).length)

/-- Changes strips of a die. -/
def State.modFrag (s : State) (die : Nat) (fr : List Nat) (f : Strip → Strip) : State :=
  fr.foldl (fun z i => z.modStrip die i f) s

/-- The strips that a sequencer drives in a lease. -/
def State.drivers (s : State) (die n : Nat) : List Nat :=
  ((s.leaseStrips die n).map (s.driverOf die)).eraseDups

/-- Nothing runs on the sequencer (15 R383, R400). -/
def Strip.still (x : Strip) : Bool := x.run.isNone && x.drain.isNone && x.amax.isNone

/-! ### Steering -/

/-- The strip whose queue takes an M word of a thread (15 R371). -/
def Thread.target (th : Thread) (g : Group) : Nat :=
  let l := maskStrips g.mask
  if th.lmode = 0 || l.length ≤ 1 then l.getD th.msel (lowStrip g.mask) else lowStrip g.mask

/-- Steers an M word to its matrix queue (02 R37, R39, R40; 15 R371, R388). `de`: the field d is an endpoint. -/
def steerM (s : State) (d a b : BitVec 5) (de : Bool) : Out :=
  frontWord s (fun th =>
    match s.groupOf? th with
    | none => .error (.trap 0x12 s.cur.e.wordVal)
    | some g => do
      if g.mask = 0 then .error (.trap 0x12 s.cur.e.wordVal)
      let srcs := (if de then [] else [d]) ++ [a, b]
      th.sReady s.now srcs
      th.clean (endRegs d a de false)
      let n := th.target g
      if 64 ≤ (s.strip (dieOf th.c) n).q.length then .error (.wait none)
      let e : QEntry := { s.cur.e with
        capD := th.capture d de, capA := [th.sVal a], capB := th.sVal b, lease := g.lease }
      .ok ((s.setThread (th.sPop srcs)).modStrip (dieOf th.c) n (fun x => { x with q := x.q ++ [e] }), none))

/-! ### Leaving the head, and faults -/

/-- The word's gap after the previous one that left the queue has not passed (18 R458). -/
def Strip.paced (x : Strip) (now : Nat) (e : QEntry) : Bool := x.last ≠ 0 && decide (now + 1 < x.last + e.pace.toNat)

/-- Why an M word is not done. -/
inductive MStop where
  /-- Its condition is not met. -/
  | wait
  /-- It waits, in a state that its wait has changed. -/
  | hold (s : State)
  /-- It has begun. -/
  | more (s : State)
  /-- A fragment fault (15 R386). -/
  | fault (cause : BitVec 6)
  /-- A fragment fault, in a state that it has changed. -/
  | broke (s : State) (cause : BitVec 6)

/-- A check of an M word. -/
def mChk {α : Type} (r : Chk α) : Except MStop α :=
  match r with
  | .ok v => .ok v
  | .error c => .error (.fault c)

/-- The word at the head of a matrix queue leaves it (18 R458). A request for leave of its own is withdrawn, and leave granted to one that has
begun nothing goes back (18 R453). -/
def State.popM (s : State) (die n : Nat) : State :=
  let x := s.strip die n
  let id := if x.run.any (fun r => r.leaveId == x.leave) then 0 else x.leave
  (s.dropLeave die id).modStrip die n (fun x => { x with q := x.q.tail, last := s.now + 1, leave := 0, granted := false })

/-- A record of the start or the end of an M word of a fragment (21 Table 21.1). Log entry 50, DEDUCED. -/
def State.mTrace (s : State) (kind : Nat) (die n : Nat) (e : QEntry) (fault : Bool) (done : Nat) : State :=
  s.cmdTrace kind e ((s.leaseStrips die n).findIdx (· == n)) (32 * die) fault done

/-- A fragment fault of the fragment that strip `n` drives, at the word `e`, which has written `done` sectors (14 R362, 15 R386, R387): the nest
and a recording end, the completion object is poisoned, and the lease's group records it. Sectors of a drain that has started still land. Log
entry 47, DEDUCED. -/
def State.fragFault (s : State) (die n : Nat) (e : QEntry) (cause : BitVec 6) (done : Nat) : State :=
  let fr := s.fragOf die n
  let x := s.strip die n
  let k := (s.leaseStrips die n).findIdx (· == n)
  let s0 := s.mTrace 5 die n e true done
  let s1 := match x.run with
    | some r => (s0.settle die r.leaveId).mTrace 5 die n r.e true 0
    | none => s0
  let s2 := (s1.modFrag die fr (fun y => { y with fault := true })).modStrip die n (fun y => { y with recording := 0, run := none })
  let s3 := match x.compl with
    | some o => if (s.task? x.task).isSome then s2.updBar o Bar.setPoison else s2
    | none => s2
  let op := e.ins.encodeWord.toNat / 2 ^ 23 % 64
  let v := wd (k * 2 ^ 32 + seq16 e.seq * 2 ^ 16 + 2 ^ 15 + op * 2 ^ 9 + cause.toNat)
  s3.modGroup x.task x.group (fun g =>
    if g.lease = x.lease then { g with mferr := v, flt := g.flt ||| stripMask fr }
    else if g.lease = 0 then { g with mferr := v } else g)

/-- A word at the head of the queue of strip `n` that is executed there (15 R382, R384). `clears`: MMQCLR and MCONF, which a faulted
fragment executes (15 R400); they stay at the head while they end a fault. -/
def headWord (s : State) (die n : Nat) (clears : Bool) (body : Strip → Except MStop State) : Out :=
  let x := s.strip die n
  let e := s.cur.e
  if !s.atHorizonOf e || x.paced s.now e then .next s.stall
  else if x.fault && !clears then .next (s.popM die n)
  else if x.recording ≠ 0 then
    (if clears then .next (s.fragFault die n e 0x01 0) else .next ((s.fragFault die n e 0x01 0).popM die n))
  else match body x with
    | .ok s1 =>
      let s2 := s1.mTrace 4 die n e false 0
      .next ((if (s2.strip die n).run.isSome && x.run.isNone then s2 else s2.mTrace 5 die n e false 0).popM die n)
    | .error .wait => .next s.stall
    | .error (.hold s1) => .next s1.stall
    | .error (.more s1) => .next s1
    | .error (.fault c) => .next ((s.fragFault die n e c 0).popM die n)
    | .error (.broke s1 c) => .next ((s1.fragFault die n e c 0).popM die n)

/-- A body word at the head of the queue of strip `n`: it is recorded (15 R382). -/
def recordWord (s : State) (die n : Nat) : Out :=
  let x := s.strip die n
  let e := s.cur.e
  if !s.atHorizonOf e || x.paced s.now e then .next s.stall
  else if x.fault then .next (s.popM die n)
  else if x.recording = 0 then .next ((s.fragFault die n e 0x01 0).popM die n)
  else .next ((s.modStrip die n (fun y => { y with body := y.body ++ [e], recording := y.recording - 1 })).popM die n)

/-! ### The nest -/

/-- Iterations of a level (15 R381). -/
def Level.n (l : Level) : Nat := fld l.a 15 0 + 1

/-- A level that nothing has set: count 1, zero steps. -/
def Level.zero : Level := { a := 0, b := 0 }

/-- Level `i` of the active table. -/
def Strip.level (x : Strip) (i : Nat) : Level := x.active.get .zero i

/-- The reduction level of a nest, if any (15 R381). -/
def redLevel (t : Tab Level) (levels : Nat) : Option Nat :=
  (List.range levels).find? (fun i => bit (t.get .zero i).a 25)

/-- The sum over the levels of index × step (15 R383). -/
def Strip.sum (x : Strip) (r : NestRun) (step : Level → Nat) : Nat :=
  sumN ((r.idx.take r.levels).zipIdx.map (fun p => p.1 * step (x.level p.2)))

/-- The half of a body word in this iteration. -/
def Strip.halfOf (x : Strip) (r : NestRun) (h : BitVec 1) : Nat :=
  (h.toNat + x.sum r (fun l => fld l.a 24 24)) % 2

/-- The next index vector, level 0 innermost; none after the last (15 R383). -/
def nextIdx : List Nat → List Nat → Option (List Nat)
  | i :: is, n :: ns => if i + 1 < n then some ((i + 1) :: is) else (nextIdx is ns).map (0 :: ·)
  | _, _ => none

/-- The iteration is the first, and the last, of the reduction (15 R383). -/
def Strip.firstOfRed (x : Strip) (r : NestRun) : Bool :=
  match redLevel x.active r.levels with
  | none => true
  | some l => r.idx.getD l 0 = 0

def Strip.lastOfRed (x : Strip) (r : NestRun) : Bool :=
  match redLevel x.active r.levels with
  | none => true
  | some l => r.idx.getD l 0 + 1 = (x.level l).n

/-- A word of guard `g` is executed in this iteration (15 R383). -/
def Strip.guarded (x : Strip) (r : NestRun) (g : BitVec 2) : Bool :=
  g = 0 || (g = 1 && x.firstOfRed r) || (g = 2 && x.lastOfRed r)

/-- The nest stands at a retirement boundary (15 R385): a reduction loop has ended, and the next word is the first of the iteration that
begins another. -/
def Strip.retired (x : Strip) : Bool :=
  x.drain.isNone && x.amax.isNone && (match x.run with
    | none => true
    | some r => r.finished || (r.word = 0 && r.idx.any (· ≠ 0) && (match redLevel x.active r.levels with
      | none => true
      | some l => (r.idx.take (l + 1)).all (· == 0))))

/-- The nest goes on with the next word, or the next iteration (15 R383). -/
def NestRun.next (r : NestRun) (x : Strip) : NestRun :=
  if r.word + 1 < x.abody.length then { r with word := r.word + 1 }
  else match nextIdx r.idx ((List.range r.levels).map (fun i => (x.level i).n)) with
    | some l => { r with idx := l, word := 0 }
    | none => { r with finished := true }

/-- The nest of a fragment has done with a word. -/
def State.nestNext (s : State) (die n : Nat) : State :=
  s.modStrip die n (fun x => { x with run := x.run.map (·.next x) })

/-- Sectors that a body word writes as it is executed, without a drain that goes on: MDRC fills a slot (15 R398). -/
def slotSectors : Instr → Nat
  | .mdrc _ _ _ _ _ _ => 4096
  | _ => 0

/-- A body word of guard `g` in the running nest of strip `n` (15 R383). -/
def nestWord (s : State) (die n : Nat) (g : BitVec 2) (body : Strip → NestRun → Except MStop State) : Out :=
  let x := s.strip die n
  match x.run with
  | none => .next s.stall
  | some r =>
    if r.finished then .next s.stall
    else if !x.guarded r g then .next (s.nestNext die n)
    else
      let e := s.cur.e
      let wrote := (x.drain.map (·.done)).getD 0
      match body x r with
      | .ok s1 =>
        .next ((match x.drain with
          | some _ => s1.mTrace 5 die n e false wrote
          | none => (s1.mTrace 4 die n e false 0).mTrace 5 die n e false (slotSectors e.ins)).nestNext die n)
      | .error .wait => .next s.stall
      | .error (.hold s1) => .next s1.stall
      | .error (.more s1) => .next (if x.drain.isNone then s1.mTrace 4 die n s.cur.e false 0 else s1)
      | .error (.fault c) => .next (s.fragFault die n s.cur.e c wrote)
      | .error (.broke s1 c) => .next (s1.fragFault die n s.cur.e c wrote)

/-- An M word that is executed at the head of its queue: the front steers it, the fragment runs it. -/
def headM (s : State) (steer : Out) (clears : Bool) (body : Nat → Nat → Strip → Except MStop State) : Out :=
  match s.cur.unit with
  | none => steer
  | some (die, n, _) => headWord s die n clears (body die n)

/-- A body word: the front steers it, the fragment records it at the head and replays it in a nest. -/
def bodyM (s : State) (steer : Out) (g : BitVec 2) (body : Nat → Nat → Strip → NestRun → Except MStop State) : Out :=
  match s.cur.unit with
  | none => steer
  | some (die, n, false) => recordWord s die n
  | some (die, n, true) => nestWord s die n g (body die n)

/-! ### Slots -/

/-- The strip that index `k` of an M word names (15 R374): in independent mode only the fragment's own. -/
def State.stripOf (s : State) (die n k : Nat) : Chk Nat :=
  match (s.leaseStrips die n)[k]? with
  | none => .error 0x11
  | some m => if (s.fragOf die n).contains m then .ok m else .error 0x11

/-- A slot reference (15 R374): strip, and slot number before steps. -/
def State.slotRef (s : State) (die n : Nat) (v : Word) : Chk (Nat × Nat) :=
  if fld v 63 7 ≠ 0 then .error 0x11 else (s.stripOf die n (fld v 6 4)).map (fun m => (m, fld v 3 0))

/-- The word at hand of a fragment meets data with a poison mark, in a unit, at a location of a strip (19 R467, R472). -/
def State.metMark (s : State) (unit die strip loc : Nat) : MStop :=
  .hold (s.consume s.cur.e.task s.cur.e.c s.cur.e.t s.cur.e.addr s.cur.e.corr unit die strip loc (wd loc))

/-- A half that a word reads carries no mark. -/
def State.accClean (s : State) (die : Nat) (fr : List Nat) (h : Nat) : Except MStop Unit :=
  match fr.findSome? (fun j => (((s.strip die j).acc.get Acc.init h).marks.head?).map (fun x => (j, x))) with
  | some p => .error (s.metMark 4 die p.1 (65536 * h + p.2))
  | none => .ok ()

/-- A slot that a word reads (15 R377, R392): ready, with its type tag. -/
def State.readSlot (s : State) (die m i t : Nat) : Except MStop Slot :=
  let sl := (s.strip die m).slots.get Slot.init i
  match sl.st with
  | none => .error (.fault 0x07)
  | some .ready =>
    if sl.ty.toNat ≠ t then .error (.fault 0x0D)
    else match sl.marks with
      | [] => .ok sl
      | k :: _ => .error (s.metMark 3 die m (4096 * i + k))
  | some _ => .error .wait

/-- A read of a slot ends (15 R376). -/
def State.slotRead (s : State) (die m i : Nat) (take : BitVec 1) : State :=
  if take = 1 then s.modStrip die m (fun y =>
    { y with slots := y.slots.set i { (y.slots.get Slot.init i) with st := some .empty } })
  else s

end Sys2Proof.Machine
end

