-- ==== Sys2Proof/Machine/Matrix.lean ====
section
/-!
DEFINITION. The M words (15 R388-R400, 14 R360): MSEL at the front, and the words of a fragment: MNEST, MBODY, MGO, MCLM, MREL, MMQCLR
and MCONF at the head of its queue; MLDB, MMMA, MMMS, MMMC, MZACC, MDRN, MDRC and MAMAX in its nest; and the nest's completion (15 R385).
-/

namespace Sys2Proof.Machine

/-! ### Selection and mode -/

/-- MSEL (15 R389): the front selects a strip of the lease. -/
def execMsel (k : BitVec 3) (s : State) : Out :=
  frontWord s (fun th =>
    match s.groupOf? th with
    | none => .error (.trap 0x12 s.cur.e.wordVal)
    | some g =>
      if g.mask = 0 then .error (.trap 0x12 s.cur.e.wordVal)
      else if (maskStrips g.mask).length ≤ k.toNat then .error (.trap 0x11 (k.setWidth 64))
      else .ok (s.setThread { th.log (.msel th.msel) with msel := k.toNat }, none))

/-- The strips whose sequencers drive a lease, by its group (14 R350). -/
def Group.drivers (g : Group) : List Nat :=
  if g.mode = 0 || (maskStrips g.mask).length ≤ 1 then maskStrips g.mask else [lowStrip g.mask]

/-- Steers MCONF into the queue of every fragment of the lease, and records the new mode for younger words (15 R372). -/
def steerMconf (m : BitVec 2) (s : State) : Out :=
  frontWord s (fun th =>
    match s.groupOf? th with
    | none => .error (.trap 0x12 s.cur.e.wordVal)
    | some g => do
      if g.mask = 0 then .error (.trap 0x12 s.cur.e.wordVal)
      let die := dieOf th.c
      let l := maskStrips g.mask
      let dest := if th.lmode = 0 || l.length ≤ 1 then l else [lowStrip g.mask]
      if dest.any (fun n => 64 ≤ (s.strip die n).q.length) then .error (.wait none)
      let e : QEntry := { s.cur.e with lease := g.lease }
      let th1 := { th.log (.mode th.lmode) with lmode := m.toNat }
      let s1 := (s.setThread th1).syncMode th th1
      .ok (s1.modFrag die dest (fun x => { x with q := x.q ++ [e] }), none))

/-- Ends the fault of a fragment (15 R400): its flag, its metadata, its shadow and a recording. -/
def State.clearFault (s : State) (die n : Nat) : State :=
  let fr := s.fragOf die n
  let x := s.strip die n
  let s1 := (s.modFrag die fr (fun y => { y with fault := false, mq := [] })).modStrip die n (fun y =>
    { y with shadow := [], body := [], recording := 0 })
  s1.modGroup x.task x.group (fun g => if g.lease = x.lease then { g with flt := g.flt &&& ~~~(stripMask fr) } else g)

/-- MCONF at the head (14 R360, 15 R372, R402): every copy stands at a head, every strip is idle and none records; then the mode changes
once, and every copy leaves. -/
def execMconf (m : BitVec 2) (s : State) : Out :=
  headM s (steerMconf m s) true (fun die n x =>
    let e := s.cur.e
    if !x.still then .error .wait
    else if x.fault then .error (.more (s.clearFault die n))
    else
      let l := s.leaseStrips die n
      let all := s.drivers die n
      let here (i : Nat) : Bool :=
        let y := s.strip die i
        !y.fault && y.recording = 0 && (match y.q with
          | z :: _ => !y.paced s.now z && z.ins == e.ins && z.seq == e.seq && z.c == e.c && z.t == e.t && z.task == e.task
          | [] => false)
      if !all.all here || !l.all (fun i => (s.strip die i).still) then .error .wait
      else
        let s1 := (all.filter (· ≠ n)).foldl (fun z i => z.popM die i) s
        let s2 := s1.modFrag die l (fun y => { y with mode := m.toNat, origin := if y.mode = m.toNat then y.origin else 0 })
        .ok (s2.modGroup x.task x.group (fun g => if g.lease = x.lease then { g with mode := m } else g)))

/-- MMQCLR (15 R400). -/
def execMmqclr (s : State) : Out :=
  headM s (steerM s 0 0 0 false) true (fun die n x =>
    if !x.still then .error .wait else .ok (s.clearFault die n))

/-! ### Slots, shadow and body -/

/-- MCLM (15 R391). -/
def execMclm (n : BitVec 4) (k : BitVec 3) (sl : BitVec 4) (s : State) : Out :=
  headM s (steerM s 0 0 0 false) false (fun die d x =>
    if x.run.isSome || x.drain.isSome || x.amax.isSome then .error .wait
    else do
      let m ← mChk (s.stripOf die d k.toNat)
      if 16 ≤ sl.toNat + n.toNat then .error (.fault 0x11)
      let l := (List.range (n.toNat + 1)).map (sl.toNat + ·)
      let y := s.strip die m
      if l.any (fun i => (y.slots.get Slot.init i).st.isSome) then .error (.fault 0x07)
      .ok (s.modStrip die m (fun y => { y with slots := l.foldl (fun t i => t.set i { Slot.init with st := some .empty }) y.slots })))

/-- MREL (15 R391). -/
def execMrel (n : BitVec 4) (k : BitVec 3) (sl : BitVec 4) (s : State) : Out :=
  headM s (steerM s 0 0 0 false) false (fun die d x =>
    if x.run.isSome || x.drain.isSome || x.amax.isSome then .error .wait
    else do
      let m ← mChk (s.stripOf die d k.toNat)
      if 16 ≤ sl.toNat + n.toNat then .error (.fault 0x11)
      let l := (List.range (n.toNat + 1)).map (sl.toNat + ·)
      let st (i : Nat) : Option TileSt := ((s.strip die m).slots.get Slot.init i).st
      if l.any (fun i => st i = some .filling || st i = some .draining) then .error .wait
      .ok (s.modStrip die m (fun y => { y with slots := y.slots.filter (fun p => !l.contains p.1) })))

/-- MNEST (15 R381, R390). -/
def execMnest (a b : BitVec 5) (l : BitVec 3) (s : State) : Out :=
  headM s (steerM s 0 a b false) false (fun die n _ =>
    let v : Level := { a := s.cur.e.capA.getD 0 0, b := s.cur.e.capB }
    if fld v.a 63 26 ≠ 0 then .error (.fault 0x11)
    else .ok (s.modStrip die n (fun x => { x with shadow := x.shadow.set l.toNat v })))

/-- MBODY (15 R382). -/
def execMbody (n : BitVec 4) (s : State) : Out :=
  headM s (steerM s 0 0 0 false) false (fun die d _ =>
    .ok (s.modStrip die d (fun x => { x with body := [], recording := n.toNat + 1 })))

/-! ### Starting a nest -/

/-- The guard of a body word. -/
def guardOf : Instr → BitVec 2
  | .mldb _ g _ _ _ | .mmma _ g _ _ _ | .mmms _ g _ _ _ | .mmmc _ _ g _ _ _ | .mzacc g _ _ | .mdrn _ _ _ g _ _ _ | .mdrc _ _ g _ _ _
  | .mamax _ g _ => g
  | _ => 0

/-- Entry of the energy table of a pass, by its operand type (18 Table 18.1; log entry 34, DEDUCED). -/
def passEntry (t : Nat) : Nat := if t = 8 then 1 else if t = 11 then 2 else 0

/-- What a body word costs strip `j` of a fragment (of index `k` in its lease) for one execution, in nJ; `low`: the fragment's lowest
strip. The reference of a word is that which it captured (18 R449). -/
def State.wordCost (s : State) (e : QEntry) (k : Nat) (low : Bool) : Nat :=
  let here : Bool := fld (e.capD.getD 0 0) 6 4 = k
  match e.ins with
  | .mldb _ _ _ _ _ => if here then s.energy 4 else 0
  | .mmma _ _ _ _ t => s.energy (passEntry t.toNat)
  | .mmms _ _ _ _ t => s.energy (passEntry t.toNat) + s.energy 3
  | .mmmc _ _ _ _ _ t => if low then s.energy (passEntry t.toNat)
      else s.energy (passEntry (if bit (e.capA.getD 0 0) 0 then 9 else 8))
  | .mzacc _ b _ => s.energy 6 * (b.toNat + 1)
  | .mdrn _ _ _ _ _ _ _ => s.energy 5
  | .mdrc _ _ _ _ _ _ => if here then s.energy 5 else 0
  | _ => 0

/-- How often a body word runs on a strip in a nest of counts `ns` whose reduction level is `red` (18 R449). -/
def runsOf (e : QEntry) (ns : List Nat) (red : Option Nat) (low : Bool) : Nat :=
  let all := prodN ns
  let once := match red with
    | some l => all / ns.getD l 1
    | none => all
  let g := if guardOf e.ins = 0 then all else once
  match e.ins with
  | .mmmc _ _ g2 _ _ _ =>
    if low || red.isNone then g
    else if g2 = 1 && (ns.getD (red.getD 0) 1) ≠ 1 then 0 else once
  | _ => g

/-- Passes of a strip in a body (18 R449). -/
def passesOf (body : List QEntry) (ns : List Nat) (red : Option Nat) : Nat :=
  sumN (body.map (fun e => match e.ins with
    | .mmma _ _ _ _ _ | .mmms _ _ _ _ _ | .mmmc _ _ _ _ _ _ => runsOf e ns red true
    | _ => 0))

/-- The cost of a nest, in µJ (18 Table 18.1). -/
def State.nestCost (s : State) (die n : Nat) (body : List QEntry) (ns : List Nat) (red : Option Nat) : Nat :=
  let fr := s.fragOf die n
  let l := s.leaseStrips die n
  let nj := sumN (fr.map (fun j =>
    sumN (body.map (fun e => runsOf e ns red (j = n) * s.wordCost e (l.findIdx (· == j)) (j = n)))))
  (nj + 999) / 1000

/-- The checks of MGO, in order (15 R383): the number of levels and the completion object. -/
def State.goChk (s : State) (x : Strip) (e : QEntry) : Chk (Nat × Option (Nat × Nat)) := do
  let a := e.capA.getD 0 0
  let b := e.capB
  let lv := fld a 2 0
  if lv = 0 || 6 < lv || fld a 63 3 ≠ 0 then .error 0x11
  if fld b 63 31 ≠ 0 || (b ≠ 0 && !bit b 30) then .error 0x11
  let g ← (match s.groupOn? e.task e.c with
    | some g => .ok g
    | none => .error 0x11 : Chk Group)
  let o ← s.endObj e.task g.j g.c b
  if x.body.isEmpty then .error 0x11
  let reds := (List.range lv).filter (fun i => bit (x.shadow.get .zero i).a 25)
  if 1 < reds.length then .error 0x11
  let rmax := match s.task? e.task with
    | some k => s.rmax k.svc
    | none => 0
  if reds.any (fun i => rmax < (x.shadow.get .zero i).n) then .error 0x11
  .ok (lv, o)

/-- MGO (15 R383): waits for its fragment, checks, asks leave and starts the nest. -/
def execMgo (a b : BitVec 5) (s : State) : Out :=
  headM s (steerM s 0 a b false) false (fun die n x => do
    let e := s.cur.e
    if !x.still then .error .wait
    let r ← mChk (s.goChk x e)
    let lv := r.1
    let ns := (List.range lv).map (fun i => (x.shadow.get .zero i).n)
    let red := redLevel x.shadow lv
    if x.leave = 0 then
      let svc := match s.task? e.task with
        | some k => k.svc
        | none => 0
      let s1 := s.askLeave die (n / 2) svc (s.nestCost die n x.body ns red) (64 * (256 * passesOf x.body ns red + 512)) e (.strip n)
      .error (.more (s1.modStrip die n (fun y => { y with leave := s.nextLeave })))
    else if !x.granted then .error .wait
    else
      let w := 8 * (s.fragOf die n).length
      .ok (s.modStrip die n (fun y => { y with
        active := y.shadow, abody := y.body, origin := (y.origin + 1) % w, compl := r.2
        run := some { levels := lv, idx := List.replicate lv 0, word := 0, finished := false, obj := r.2,
                      leaveId := y.leave, e := e } })))

/-- NEST_COMPLETE (15 R385): the arrival at the completion object; its energy is settled (18 R453). -/
def execNestComplete (s : State) : Out :=
  match s.cur.ev with
  | some (.nestComplete die n) =>
    let x := s.strip die n
    (match x.run with
    | none => .next s.stall
    | some r =>
      if !r.finished || x.drain.isSome || x.amax.isSome then .next s.stall
      else
        let s1 := ((s.modStrip die n (fun y => { y with run := none })).settle die r.leaveId).mTrace 5 die n r.e false 0
        .next (match r.obj with
          | some o => s1.updBar o Bar.arrive
          | none => s1))
  | _ => .fault .noEvent

/-! ### Weights and passes -/

/-- MLDB (15 R392). -/
def execMldb (d : BitVec 5) (g : BitVec 2) (x p : BitVec 1) (t : BitVec 4) (s : State) : Out :=
  bodyM s (steerM s d 0 0 false) g (fun die n st r => do
    let q ← mChk (s.slotRef die n (s.cur.e.capD.getD 0 0))
    let b := (q.2 + st.sum r (fun l => fld l.a 23 20)) % 16
    if p = 1 && b % 2 = 1 then .error (.fault 0x11)
    let lo ← s.readSlot die q.1 b t.toNat
    let hi ← if p = 1 then s.readSlot die q.1 (b + 1) t.toNat else .ok Slot.init
    let w : Weights := { ty := some t, pair := p = 1, lo := lo.data, loSb := lo.sb, hi := hi.data, hiSb := hi.sb }
    let s1 := s.modStrip die q.1 (fun y => { y with back := w, pending := true })
    let s2 := s1.slotRead die q.1 b x
    .ok (if p = 1 then s2.slotRead die q.1 (b + 1) x else s2))

/-- A pending back buffer becomes the front (15 R378). -/
def Strip.swap (y : Strip) : Strip := if y.pending then { y with front := y.back, pending := false } else y

/-- The accumulator half of a strip. -/
def Strip.half (y : Strip) (h : Nat) : Acc := y.acc.get Acc.init h

/-- Weights and accumulator admit a pass of operands of type `t` (15 R393, R379). -/
def Strip.admitsPass (y : Strip) (t h : Nat) (pair : Bool) : Bool :=
  (match y.front.ty with
    | some u => pairs t u.toNat
    | none => false) && y.front.pair == pair &&
  ((y.half h).tag = .none || (y.half h).tag = (if t = 0 || t = 3 then .i32 else .f32))

/-- Type of the front weights. -/
def Strip.wty (y : Strip) : Nat :=
  match y.front.ty with
  | some u => u.toNat
  | none => 0

/-- A pass of lines `line` of type `t` into half `h` of a strip: `ix` are the positions of the products, in a line and in a column
(15 R393). -/
def Strip.passed (y : Strip) (t h : Nat) (ix : List (Nat × Nat)) (line : Nat → List FV) : Strip :=
  let pick (l : List FV) (is : List Nat) : List FV := is.map (fun i => l.getD i (.fin false 0 0))
  let rows := (List.range 256).map (fun row => pick (line row) (ix.map (·.1)))
  let cols := (List.range 256).map (fun col => pick (y.front.column y.wty col) (ix.map (·.2)))
  { y with acc := y.acc.set h ((y.half h).pass t rows cols) }

/-- Swaps and checks the strips of a pass, in ascending order (15 R393): a failure leaves the swaps made. -/
def State.preparePass (s : State) (die : Nat) (fr : List Nat) (t h : Nat) (pair : Bool) : Except MStop State :=
  fr.foldlM (fun (z : State) j =>
    let z1 := z.modStrip die j Strip.swap
    if (z1.strip die j).admitsPass t h pair then (z1.accClean die [j] h).map (fun _ => z1) else .error (.broke z1 0x0D)) s

/-- The operand slot of a pass (15 R383, R393): its number and contents. In the modes of one sequencer it stands on the lowest strip. -/
def State.passSlot (s : State) (die n : Nat) (st : Strip) (r : NestRun) (t : Nat) : Except MStop (Nat × Slot) := do
  let q ← mChk (s.slotRef die n (s.cur.e.capD.getD 0 0))
  if q.1 ≠ n then .error (.fault 0x11)
  let i := (q.2 + st.sum r (fun l => fld l.a 19 16)) % 16
  let sl ← s.readSlot die n i t
  .ok (i, sl)

/-- MMMA (15 R393): a dense pass into a half of every strip of the fragment. -/
def execMmma (d : BitVec 5) (g : BitVec 2) (x h : BitVec 1) (t : BitVec 4) (s : State) : Out :=
  bodyM s (steerM s d 0 0 false) g (fun die n st r => do
    if s.chained die n then .error (.fault 0x01)
    let q ← s.passSlot die n st r t.toNat
    let half := st.halfOf r h
    let fr := s.fragOf die n
    let s1 ← s.preparePass die fr t.toNat half false
    let ix := (List.range (lineLen t.toNat)).map (fun i => (i, i))
    .ok ((s1.modFrag die fr (fun y => y.passed t.toNat half ix (slotLine t.toNat q.2.data q.2.sb))).slotRead die n q.1 x))

/-- MMMS (15 R380, R393): a sparse pass, under the metadata entry that it pops from the fragment's lowest strip. -/
def execMmms (d : BitVec 5) (g : BitVec 2) (x h : BitVec 1) (t : BitVec 4) (s : State) : Out :=
  bodyM s (steerM s d 0 0 false) g (fun die n st r => do
    if s.chained die n then .error (.fault 0x01)
    let q ← s.passSlot die n st r t.toNat
    let half := st.halfOf r h
    let fr := s.fragOf die n
    let s1 ← s.preparePass die fr t.toNat half true
    match (s1.strip die n).mq with
    | [] => .error (.hold s1)
    | m :: rest =>
      let s2 := s1.modStrip die n (fun y => { y with mq := rest })
      match keptPairs m (lineLen t.toNat / 2) with
      | none => .error (.broke s2 0x0D)
      | some ix =>
        .ok ((s2.modFrag die fr (fun y => y.passed t.toNat half ix (slotLine t.toNat q.2.data q.2.sb))).slotRead die n q.1 x))

/-- The chain of MMMC over the strips above the lowest, in ascending order (15 R394): each takes the converted half of the one below, which
has tag f32. A failure leaves what the strips below it have done. -/
def State.chain (s : State) (die h ct : Nat) (sat : Bool) : Nat → List Nat → Except MStop State
  | _, [] => .ok s
  | below, j :: rest =>
    let a := (s.strip die below).half h
    if a.tag ≠ .f32 then .error (.broke s 0x0D)
    else
      match s.preparePass die [j] ct h false with
      | .error e => .error e
      | .ok s1 =>
        let line (row : Nat) : List FV := (List.range 256).map (fun col => laneFV ct (drainVal a.tag ct sat (a.at row col)))
        let ix := (List.range 256).map (fun i => (i, i))
        (s1.modStrip die j (fun y => y.passed ct h ix line)).chain die h ct sat j rest

/-- MMMC (15 R394): a dense pass on the lowest strip and, at the last of the reduction, the chain over the others.
Log entry 51, DEDUCED. -/
def execMmmc (d a : BitVec 5) (g : BitVec 2) (x h : BitVec 1) (t : BitVec 4) (s : State) : Out :=
  bodyM s (steerM s d a 0 false) g (fun die n st r => do
    if !s.chained die n then .error (.fault 0x01)
    let v := s.cur.e.capA.getD 0 0
    if fld v 63 2 ≠ 0 then .error (.fault 0x11)
    let q ← s.passSlot die n st r t.toNat
    let half := st.halfOf r h
    let up := (s.fragOf die n).tail
    let ct := if bit v 0 then 9 else 8
    let s1 ← s.preparePass die [n] t.toNat half false
    let ix := (List.range (lineLen t.toNat)).map (fun i => (i, i))
    let s2 := (s1.modStrip die n (fun y => y.passed t.toNat half ix (slotLine t.toNat q.2.data q.2.sb))).slotRead die n q.1 x
    if st.lastOfRed r then s2.chain die half ct (bit v 1) n up else .ok s2)

/-- MZACC (15 R395). -/
def execMzacc (g : BitVec 2) (b h : BitVec 1) (s : State) : Out :=
  bodyM s (steerM s 0 0 0 false) g (fun die n st r =>
    let hs := if b = 1 then [0, 1] else [st.halfOf r h]
    .ok (s.modFrag die (s.fragOf die n) (fun y => { y with acc := hs.foldl (fun m i => m.set i Acc.init) y.acc })))

/-! ### Drains -/

/-- The absolute-maximum reference of a drain (15 R397): none where it is not enabled. Identifier, descriptor, coordinate. Its format is the
last check (10 R269, 15 R386). -/
def State.amaxRef (s : State) (k : Task) (a : Word) : Chk (Option (Nat × Desc × Nat)) :=
  if fld a 63 48 ≠ 0 || 5 < fld a 47 45 then .error 0x11
  else if !bit a 44 then .ok none
  else
    let tid := fld a 11 0
    match s.desc? k.svc tid with
    | none => .error 0x11
    | some d =>
      let c := fld a 43 12
      if d.rank ≠ 1 || !d.inside [c, 0, 0, 0, 0, 0] then .error 0x11
      else match k.leaseFails d tid (d.loc [c, 0, 0, 0, 0, 0]).1 (.red 0x0D) with
        | some _ => .error 0x06
        | none => if d.ty ≠ 6 then .error 0x0D else .ok (some (tid, d, c))

/-- The reduction of an absolute maximum, as a run of the fragment (15 R397, 11 R291). -/
def amaxRun (e : QEntry) (k : Task) (grp : Nat) (objs : List (Nat × Nat)) (m : BitVec 32) (x : Nat × Desc × Nat) : Run :=
  let p := x.2.1.loc [x.2.2, 0, 0, 0, 0, 0]
  let st := Machine.swz x.2.1.swz p.2
  let part : Part := { off := st % 32, els := [{ src := .val m.toNat 0x007F, hi := false }], n := 1 }
  { e.run k.svc grp objs 0 with
    left := [{ tgt := .tensor k.svc x.1 p.1 (32 * (st / 32)), parts := [part], side := [], count := 0, obj := none }]
    sBits := 32, dBits := 32, red := some 0x0D }

/-- The values of row `row` of a half across the strips of a fragment (15 R396). -/
def State.rowOf (s : State) (die : Nat) (fr : List Nat) (h row : Nat) : List (AccTag × BitVec 32) :=
  fr.flatMap (fun j =>
    let a := (s.strip die j).half h
    (List.range 256).map (fun col => (a.tag, a.at row col)))

/-- A row as it is drained to type `t`: bits and sideband of each element (15 Table 15.6, R396). -/
def drainRow (t : Nat) (sat : Bool) (row : List (AccTag × BitVec 32)) : List (Nat × Nat) :=
  if t = 12 then
    (List.range (row.length / 32)).flatMap (fun i =>
      let q := quantBlock (((row.drop (32 * i)).take 32).map (fun p => accVal p.1 p.2))
      q.1.map (fun c => (c, q.2.1 + 256 * q.2.2.1)))
  else row.map (fun p => (drainVal p.1 t sat p.2, 0x007F))

/-- The rows that a drain writes at an endpoint: those within the extent at place 1 (15 R396). -/
def EndPt.rows (x : EndPt) (a : At) : List Nat :=
  match x with
  | .tensor _ d => if d.rank ≤ 1 then List.range 256
      else (List.range 256).filter (fun r => a.c.getD (d.dim 1) 0 + r < d.ext.getD (d.dim 1) 0)
  | _ => List.range 256

/-- The origin of a drained row (15 R396). -/
def EndPt.rowAt (x : EndPt) (a : At) (row bytes : Nat) : At :=
  match x with
  | .tensor _ d => a.step d 1 row
  | _ => { a with o := a.o + (row * bytes : Nat) }

/-- Columns of a row that lie within the extent at place 0. -/
def EndPt.cols (x : EndPt) (a : At) (w : Nat) : Nat :=
  match x with
  | .tensor _ d => min w (d.ext.getD (d.dim 0) 0 - a.c.getD (d.dim 0) 0)
  | _ => w

/-- The endpoint of a drain in this iteration (15 R383): coordinates stepped modulo 2^32, a tile offset by whole sectors. -/
def EndPt.stepped (x : EndPt) (a : At) (st0 st1 : Nat) : Chk At :=
  match x with
  | .tensor _ d => .ok ((a.step d 0 st0).step d 1 st1)
  | _ =>
    let o := (a.o.toNat + st0) % 2 ^ 32
    if o % 32 ≠ 0 then .error 0x05 else .ok { a with o := (o : Nat) }

/-- FORMAT or LAYOUT where the type of a drain does not fit its endpoint (15 R396). Log entry 48, DEDUCED. -/
def EndPt.drains (x : EndPt) (t : Nat) : Option (BitVec 6) :=
  match x with
  | .tensor _ d => if d.ty = t then none else some 0x0D
  | .tile _ _ y _ _ => if (if t = 12 then x.ty = 12 else y.ty.toNat = t) then none else some 0x08
  | _ => none

/-- An engine that drains writes to a tensor or a tile (15 R396). -/
def EndPt.drainable : EndPt → Bool
  | .tensor _ _ | .tile _ _ _ _ _ => true
  | _ => false

/-- What a drain needs, checked (15 R396, R397). -/
structure DrainCmd where
  k : Task
  g : Group
  x : EndPt
  a : At
  obj : Option (Nat × Nat)
  amax : Option (Nat × Desc × Nat)
  /-- FORMAT or LAYOUT of a type that does not fit: the last check of each sector (10 R269, 15 R396). -/
  bad : Option (BitVec 6)
  deriving DecidableEq, Repr

/-- The operands of a drain in this iteration. -/
def State.drainChk (s : State) (st : Strip) (r : NestRun) (t : Nat) : Chk DrainCmd := do
  let e := s.cur.e
  let k ← (match s.task? e.task with
    | some k => .ok k
    | none => .error 0x11 : Chk Task)
  let g ← (match s.groupOn? e.task e.c with
    | some g => .ok g
    | none => .error 0x11 : Chk Group)
  let p ← s.endPt k.svc e.task g.j g.c e.capD true
  if !p.1.drainable then .error 0x11
  let a ← p.1.stepped p.2 (st.sum r (fun l => fld l.b 31 0)) (st.sum r (fun l => fld l.b 63 32))
  if fld e.capB 63 31 ≠ 0 then .error 0x11
  let o ← s.endObj e.task g.j g.c e.capB
  let m ← s.amaxRef k (e.capA.getD 0 0)
  .ok { k := k, g := g, x := p.1, a := a, obj := o, amax := m, bad := p.1.drains t }

/-- The units of a drain in write order, and the absolute maximum of what it drains (15 R396, R397). -/
def State.drainPlan (s : State) (m : DrainCmd) (die : Nat) (fr : List Nat) (h t : Nat) (sat : Bool) : List Planned × BitVec 32 :=
  let w := 256 * fr.length
  let bits := if m.bad.isSome then elemBits m.x.ty else elemBits t
  let rows := m.x.rows m.a
  let us := rows.flatMap (fun row =>
    let vals := drainRow t sat (s.rowOf die fr h row)
    (s.planRun m.k m.x .store m.obj (m.x.rowAt m.a row (w * bits / 8)) w bits (.ok ()) (fun i =>
      let v := vals.getD i (0, 0x007F)
      .ok { src := .val v.1 v.2, hi := false })).map (fun p => if p.1.tgt = .none then p else (p.1, p.2.orElse (fun _ => m.bad))))
  let n := m.x.cols m.a w
  (us, amaxOf (rows.flatMap (fun row => ((s.rowOf die fr h row).take n).map (fun p => accVal p.1 p.2))))

/-- The object of S[b] of a drain, where it names one: a fault of the drain poisons it (13 R335, 15 R396). -/
def State.drainObjs (s : State) (e : QEntry) : List (Nat × Nat) :=
  match s.groupOn? e.task e.c with
  | some g => if fld e.capB 63 31 ≠ 0 then [] else match s.endObj e.task g.j g.c e.capB with
    | .ok (some o) => [o]
    | _ => []
  | none => []

/-- A drain of an unguarded task that has come to a unit at which a check failed makes it, and those that follow, again: it checks as it
writes (13 R335, 15 R396). -/
def State.drainAgain (s : State) (die n : Nat) (r : Run) : Run :=
  match r.e.ins, r.nest, r.fault, s.task? r.e.task with
  | .mdrn _ _ _ _ _ sat t, some z, some _, some k =>
    if k.guarded || !r.left.isEmpty then r
    else match s.drainChk (s.strip die n) z t.toNat with
    | .error _ => r
    | .ok m =>
      let p := upTo ((s.drainPlan m die (s.fragOf die n) r.half t.toNat (sat = 1)).1.drop r.units)
      { r with left := p.1, fault := if p.1.isEmpty then r.fault else p.2 }
  | _, _, _, _ => r

/-- A drain of the fragment goes on with its next unit, or ends (15 R396, R397): tiles flip, a fault poisons its object and stops the nest, a
reduction that is owed follows the drain. -/
def State.drainStep (s : State) (die n : Nat) (r : Run) : Except MStop State :=
  let put (z : State) (r : Run) : State := z.modStrip die n (fun y => { y with drain := some r })
  if !r.left.isEmpty || r.sent then
    match s.engineStep r (.strip die n) die with
    | .here s1 r1 () => .error (.more (put s1 (s1.drainAgain die n r1)))
    | .held s1 r1 => .error (.hold (put s1 r1))
    | .fault cause => .error (.more (put s (r.stop cause)))
    | .marked u d c l v =>
      let s1 := (s.dropFab (.strip die n)).consume r.e.task r.e.c r.e.t r.e.addr r.e.corr u d c l v
      .error (.hold ((s1.flipEnd r false).modStrip die n (fun y => { y with drain := none, amax := none })))
  else
    let s1 := ((s.dropFab (.strip die n)).flipEnd r r.fault.isNone).modStrip die n (fun y => { y with drain := none })
    match r.fault with
    | some cause => .error (.broke ((s1.modStrip die n (fun y => { y with amax := none })).poisonObjs r.objs) cause)
    | none =>
      let fr := s.fragOf die n
      let s2 := if r.red.isSome then s1
        else s1.modFrag die fr (fun y => { y with acc := y.acc.set r.half { (y.half r.half) with undrained := false } })
      match (s.strip die n).amax, s.task? r.e.task with
      | some (a, m), some k =>
        let s3 := s2.modStrip die n (fun y => { y with amax := none })
        (match s.amaxRef k a with
        | .ok (some x) => .error (.more (put s3 { amaxRun r.e k r.grp r.objs m x with done := r.done }))
        | .ok none => .ok s3
        | .error c => .error (.broke (s3.poisonObjs r.objs) c))
      | _, _ => .ok (s2.modStrip die n (fun y => { y with amax := none }))

/-- A word that drains: the drain goes on where one is in progress (also after a fault of another word has ended the nest). -/
def drainM (s : State) (steer : Out) (g : BitVec 2) (start : Nat → Nat → Strip → NestRun → Except MStop State) : Out :=
  match s.cur.unit with
  | some (die, n, true) =>
    let x := s.strip die n
    (match x.drain, x.run with
    | some r, none => (match s.drainStep die n r with
      | .ok s1 => .next (s1.mTrace 5 die n r.e false r.done)
      | .error (.hold s1) => .next s1.stall
      | .error (.more s1) => .next s1
      | .error (.broke s1 c) => .next (s1.fragFault die n r.e c r.done)
      | .error _ => .next s.stall)
    | some r, some _ => nestWord s die n 0 (fun _ _ => s.drainStep die n r)
    | none, _ => nestWord s die n g (start die n))
  | _ => bodyM s steer g start

/-- No entry of the tile table that a drain's endpoint names carries a poison mark (19 R467). -/
def State.entriesClean (s : State) (x : EndPt) : Except MStop Unit :=
  match x.entries.find? (fun p => ((s.core p.1).tiles.find p.2).any (·.mark)) with
  | some p => .error (s.metMark 9 (dieOf p.1) (p.1 % 32) (entryLoc p.2))
  | none => .ok ()

/-- MDRN (15 R396, R397). Log entry 52, DEDUCED. -/
def execMdrn (d a b : BitVec 5) (g : BitVec 2) (h sat : BitVec 1) (t : BitVec 4) (s : State) : Out :=
  drainM s (steerM s d a b true) g (fun die n st r => do
    let m ← (match s.drainChk st r t.toNat with
      | .ok m => .ok m
      | .error c => .error (.broke (s.poisonObjs (s.drainObjs s.cur.e)) c))
    if !s.tilesIn m.x.entries .empty then .error .wait
    s.entriesClean m.x
    let half := st.halfOf r h
    s.accClean die (s.fragOf die n) half
    let p := s.drainPlan m die (s.fragOf die n) half t.toNat (sat = 1)
    let all := upTo p.1
    match m.k.guarded, all.2 with
    | true, some c => .error (.broke (s.poisonObjs (s.drainObjs s.cur.e)) c)
    | _, _ =>
      let bits := if m.bad.isSome then elemBits m.x.ty else elemBits t.toNat
      let x : Run := { s.cur.e.run m.k.svc m.g.j (m.obj.toList) 0 with
        left := all.1, fault := all.2, sBits := bits, dBits := bits, half := half, flips := m.x.flips true, nest := some r }
      let s1 := s.flipStart m.x.entries .filling
      .error (.more (s1.modStrip die n (fun y => { y with
        drain := some x, amax := if m.amax.isSome then some (s.cur.e.capA.getD 0 0, p.2) else none }))))

/-- MAMAX (15 R399): the absolute maximum of a half, without a drain. -/
def execMamax (a : BitVec 5) (g : BitVec 2) (h : BitVec 1) (s : State) : Out :=
  drainM s (steerM s 0 a 0 false) g (fun die n st r => do
    match s.task? s.cur.e.task with
    | none => .error (.fault 0x11)
    | some k =>
      let m ← mChk (s.amaxRef k (s.cur.e.capA.getD 0 0))
      match m with
      | none => .ok s
      | some x =>
        let half := st.halfOf r h
        let fr := s.fragOf die n
        s.accClean die fr half
        let v := amaxOf ((List.range 256).flatMap (fun row => (s.rowOf die fr half row).map (fun p => accVal p.1 p.2)))
        .error (.more (s.modStrip die n (fun y => { y with drain := some (amaxRun s.cur.e k st.group [] v x) }))))

/-- A half as an A tile (15 R398): the bytes of its lines, and their sideband. -/
def Acc.tileA (a : Acc) (t : Nat) (sat : Bool) : Memory × Memory :=
  let w := laneW t
  (List.range 256).foldl (fun (m : Memory × Memory) row =>
    let vals := (List.range 256).map (fun col => a.at row col)
    let y := drainRow (if t = 11 then 12 else t) sat (vals.map (fun v => (a.tag, v)))
    let sb := (List.range 8).foldl (fun z i => z + (y.getD (32 * i) (0, 0)).2 * 2 ^ (16 * i)) 0
    (m.1.putN (512 * row) (32 * w) (packBits w (y.map (·.1))),
     if t = 11 then m.2.putN (64 * row) 16 sb else m.2)) ([], [])

/-- MDRC (15 R398): drains a half of one strip into a slot of that strip. -/
def execMdrc (d b : BitVec 5) (g : BitVec 2) (h sat : BitVec 1) (t : BitVec 4) (s : State) : Out :=
  bodyM s (steerM s d 0 b false) g (fun die n st r => do
    let e := s.cur.e
    let q ← mChk (s.slotRef die n (e.capD.getD 0 0))
    let i := (q.2 + st.sum r (fun l => fld l.a 19 16)) % 16
    let half := st.halfOf r h
    if fld e.capB 63 31 ≠ 0 then .error (.fault 0x11)
    let o ← mChk (match s.groupOn? e.task e.c with
      | some g => s.endObj e.task g.j g.c e.capB
      | none => .error 0x11)
    match ((s.strip die q.1).slots.get Slot.init i).st with
    | none => .error (.fault 0x07)
    | some .empty =>
      s.accClean die [q.1] half
      let a := (s.strip die q.1).half half
      let m := a.tileA t.toNat (sat = 1)
      let s1 := s.modStrip die q.1 (fun y => { y with
        slots := y.slots.set i { st := some .ready, ty := t, data := m.1, sb := m.2, marks := [] }
        acc := y.acc.set half { a with undrained := false } })
      .ok (match o with
        | some o => (List.range 4096).foldl (fun z _ => z.updBar o (·.deliver 32)) s1
        | none => s1)
    | some _ => .error .wait)

end Sys2Proof.Machine
end

