-- ==== Sys2Proof/Machine/Signals.lean ====
section
/-!
DEFINITION. The steps of cores and meshes beside words: traps of the front (16 R407), the ends of waits (04 R105, 08 R222, 12 R309, R322;
04 R120), messages (04 R109, 11 R297), slice periods (11 R279), mismatches (19 R464, R465), the debug interface (21 R505, 22 R516), and
writes of CSRs and registers that have steps of their own (18 R456, 20 R490, 21 R503).
-/

namespace Sys2Proof.Machine

/-! ### Traps at the front -/

/-- The address of the trap point of a fault of the front at a thread's next word: that of the L word where one stands before it (02 R49),
but of the word itself where its address lies beyond the code or has no descriptor (05 R124). -/
def Thread.faultAddr (th : Thread) (cause : BitVec 6) : Word :=
  if cause = 0x11 && th.lpre.isSome then th.pc + 4 else th.pc

/-- TAKE_TRAP (16 R407): a fault of the front at its next word (02 R52, R53; 05 R124), once older words have settled. -/
def execTakeTrap (s : State) : Out :=
  match s.cur.ev with
  | some (.takeTrap c t cause val) =>
    (match s.thread? c t with
    | none => .next s
    | some th => if th.settled th.seq then .next (s.takeTrap th th.seq (th.faultAddr cause) cause val 0) else .next s.stall)
  | _ => .fault .noEvent

/-! ### The ends of waits -/

/-- The reason of a wait that has reached its limit (08 R222). -/
def overdue (w : Option Wait) (now : Nat) : Option WaitWhy :=
  match w with
  | some x => if x.limit ≠ 0 && decide (x.since + x.limit ≤ now) then x.why else none
  | none => none

/-- The trap of a wait of a thread's access word, or of its front, that has reached its limit and is of a kind: none while older words
have not settled (16 R406), and none of a wait that has ended. -/
def State.waitTrap (s : State) (th : Thread) (kind : WaitWhy → Option (BitVec 6 × Word)) : Option State :=
  match th.aq, (overdue th.issue.waitA s.now).bind kind with
  | e :: _, some p => if th.settled e.seq && !(th.issue.woke.any (fun w => w.1 == e.seq)) then some (s.takeTrap th e.seq e.addr p.1 p.2 1) else none
  | _, _ =>
    match (overdue th.issue.waitF s.now).bind kind with
    | some p => if th.issue.got.isNone && th.settled th.seq then some (s.takeTrap th th.seq th.pc p.1 p.2 0) else none
    | none => none

/-- TIMEOUT of a blocking wait (08 R222). -/
def blockKind : WaitWhy → Option (BitVec 6 × Word)
  | .block v => some (0x0B, v)
  | _ => none

/-- TIMEOUT of a wait behind an escrow append (12 R309). -/
def escrowKind : WaitWhy → Option (BitVec 6 × Word)
  | .escrow v => some (0x0B, v)
  | _ => none

/-- LINKSTALL of a wait on a link or the fabric (12 R322, 20 R487). -/
def linkKind : WaitWhy → Option (BitVec 6 × Word)
  | .link v => some (0x0C, v)
  | _ => none

/-- TIMEOUT of a stalled V word, at the front position (04 R105). -/
def State.stallTrap (s : State) (th : Thread) : Option State :=
  match overdue th.issue.waitV s.now with
  | some (.vstall v) => if th.settled th.seq then some (s.takeTrap th th.seq th.pc 0x0B v 0) else none
  | _ => none

/-- A wait of a thread ends, if it has come to that. -/
def endWait (s : State) (c t : Nat) (f : Thread → Option State) : Out :=
  match (s.thread? c t).bind f with
  | some s1 => .next s1
  | none => .next s.stall

/-- WAIT_TIMEOUT (08 R222). -/
def execWaitTimeout (s : State) : Out :=
  match s.cur.ev with
  | some (.waitTimeout c t) => endWait s c t (fun th => s.waitTrap th blockKind)
  | _ => .fault .noEvent

/-- V_STALL_TIMEOUT (04 R105). -/
def execVStallTimeout (s : State) : Out :=
  match s.cur.ev with
  | some (.vStallTimeout c t) => endWait s c t s.stallTrap
  | _ => .fault .noEvent

/-- ESCROW_WAIT_TIMEOUT (12 R309). -/
def execEscrowWaitTimeout (s : State) : Out :=
  match s.cur.ev with
  | some (.escrowWaitTimeout c t) => endWait s c t (fun th => s.waitTrap th escrowKind)
  | _ => .fault .noEvent

/-- LINKSTALL (12 R322, 20 R487). -/
def execLinkstall (s : State) : Out :=
  match s.cur.ev with
  | some (.linkstall c t) => endWait s c t (fun th => s.waitTrap th linkKind)
  | _ => .fault .noEvent

/-- SLEEP_EXPIRY (04 R120): the front fetches again. -/
def execSleepExpiry (s : State) : Out :=
  match s.cur.ev with
  | some (.sleepExpiry c t) =>
    .next (s.modThread c t (fun th => match th.issue.sleepEnd with
      | some n => if n ≤ s.now then { th with issue := { th.issue with sleepEnd := none } } else th
      | none => th))
  | _ => .fault .noEvent

/-! ### Messages and periods -/

/-- INHERIT_MESSAGE (04 R109): a registrant on another core learns the class of an object's waiters. -/
def execInheritMessage (s : State) : Out :=
  match s.cur.ev with
  | some (.inheritMessage c t ob cls) =>
    .next (s.modThread c t (fun th =>
      if th.remote.contains ob then { th with inh := if cls = 0 then th.inh.del ob else th.inh.set ob cls } else th))
  | _ => .fault .noEvent

/-- URGENT_PROMOTION (11 R297): request `n` of a die's mesh, having waited 1,024 cycles, competes in the urgent tier. -/
def execUrgentPromotion (s : State) : Out :=
  match s.cur.ev with
  | some (.urgentPromotion die n) =>
    let late (m c since : Nat) : Bool := m == n && dieOf c == die && decide (since + 1024 ≤ s.now)
    .next { s with
      mesh := s.mesh.map (fun m => if late m.n m.c m.since then { m with fast := true } else m)
      storeQ := s.storeQ.map (fun q => if late q.n q.c q.since then { q with fast := true } else q)
      homeQ := s.homeQ.map (fun q => if late q.n q.c q.since then { q with fast := true } else q)
      waits := s.waits.map (fun q => if late q.n q.c q.since then { q with fast := true } else q) }
  | _ => .fault .noEvent

/-- SLICE_PERIOD (11 R279, R280): the slices of a die begin a period: counts return to zero, and allotments take effect. -/
def execSlicePeriod (s : State) : Out :=
  match s.cur.ev with
  | some (.slicePeriod die) =>
    .next (s.modDie die (fun d => { d with
      slice := [], slicePd := s.now / 1024, allot := (List.range 16).map (fun c => (c, fld (s.reg (.clsBw c)) 9 0)) }))
  | _ => .fault .noEvent

/-! ### Mismatches -/

/-- The word of a thread that is the oldest not yet complete: its address and correlation number. -/
def Thread.oldest (th : Thread) : Word × BitVec 32 :=
  match th.aq ++ th.xq with
  | [] => (th.pc, th.csr.corr)
  | e :: r => r.foldl (fun x y => if older y.seq e.seq then (y.addr, y.corr) else x) (e.addr, e.corr)

/-- The words of a thread by number that the checker has still to match (19 R463): the next word of the front, those in the V and access
queues, and the M and C words in the queues of strips and channels; each with its address and correlation number. -/
def State.wordOf (s : State) (th : Thread) (seq : Nat) : Option (Word × BitVec 32) :=
  let far := (s.dies.map (fun d => (d.2.strips.map (fun x => x.2.q)).flatten)).flatten ++
    ((s.core th.c).chans.map (fun x => x.2.q)).flatten
  let l := th.aq ++ th.xq ++ far.filter (fun e => e.c == th.c && e.t == th.t && e.task == th.task)
  if seq = th.seq then some (th.pc, th.csr.corr) else (l.find? (fun e => e.seq == seq)).map (fun e => (e.addr, e.corr))

/-- The results of a word by number that are still to land (19 R465): of a word in the V or access queue, or of a V word that has issued,
in a register, in `fflags` or in an entry of a data queue that fills later; with the word's address and correlation number. -/
def Thread.resultOf (th : Thread) (seq now : Nat) : Option (Word × BitVec 32) :=
  let late {α : Type} (l : List (QE α)) : List (Word × BitVec 32) :=
    (l.filter (fun e => e.seq == seq && e.full && decide (now < e.fillAt))).map (fun e => (e.addr, e.corr))
  (((th.aq ++ th.xq).filter (fun e => e.seq == seq)).map (fun e => (e.addr, e.corr)) ++
    (th.land.filter (fun l => l.seq == seq)).map (fun l => (l.addr, l.corr)) ++
    late th.q.sq ++ late th.q.vaq ++ late th.q.vsq).head?

/-- A word's results do not land: its results in flight go, and its entries of the data queues never fill (19 R465). -/
def Thread.withhold (th : Thread) (seq now : Nat) : Thread :=
  let never {α : Type} (l : List (QE α)) : List (QE α) :=
    l.map (fun e => if e.seq == seq && e.full && decide (now < e.fillAt) then { e with full := false } else e)
  { th with
    land := th.land.filter (fun l => l.seq != seq),
    q := { th.q with sq := never th.q.sq, vaq := never th.q.vaq, vsq := never th.q.vsq } }

/-- A check of a core fails at a word of a thread: it is reported under its class, and the task is discarded (19 R464, R465, R472); the
word stays where it is, since no word of a task that is to be discarded leaves its queue. Log entry 35, DESIGN CHOICE. -/
def State.mismatch (s : State) (th : Thread) (w : Word × BitVec 32) (cls : Nat) (unit : Option Nat) : State :=
  let x := Config.errAt s.freeCount
  let loc := x / 16 % 2 ^ 48
  let k := s.task? th.task
  let s1 := (s.errReport cls (unit.getD (x % 16)) (dieOf th.c) (th.c % 32) loc w.2 ((k.map (·.seq.toNat)).getD 0) th.svc).bump
  (s1.modTask th.task
    (fun k => { k with culprit := if k.culprit.isNone then some (th.c, th.t, w.1, wd loc) else k.culprit })).doomTask th.task 2

/-- CHECKER_MISMATCH (19 R464): at a word not yet matched; a word that has left its queue was. -/
def execCheckerMismatch (s : State) : Out :=
  match s.cur.ev with
  | some (.checkerMismatch c t seq) =>
    (match s.thread? c t with
    | some th => match s.wordOf th seq with
      | some w => .next (s.mismatch th w 3 none)
      | none => .next s
    | none => .next s)
  | _ => .fault .noEvent

/-- RESIDUE_MISMATCH (19 R465): at a result that has not landed. -/
def execResidueMismatch (s : State) : Out :=
  match s.cur.ev with
  | some (.residueMismatch c t seq) =>
    (match s.thread? c t with
    | some th => match th.resultOf seq s.now with
      | some w => .next ((s.setThread (th.withhold seq s.now)).mismatch th w 4 (some 10))
      | none => .next s
    | none => .next s)
  | _ => .fault .noEvent

/-! ### The debug interface -/

/-- DBG_STOP (22 R516, 21 R505). -/
def execDbgStop (s : State) : Out :=
  match s.cur.ev with
  | some (.dbgStop c t) =>
    (match s.thread? c t with
    | none => .next s
    | some th =>
      if th.issue.stopped then .next s
      else
        let th1 := { th with issue := { th.issue with stopReq := if th.issue.stopReq = 0 then 3 else th.issue.stopReq } }
        .next ((s.setThread th1).tryStop th1))
  | _ => .fault .noEvent

/-- DBG_RELEASE (22 R516). -/
def execDbgRelease (s : State) : Out :=
  match s.cur.ev with
  | some (.dbgRelease c t) => .next (s.modThread c t (fun th => { th with issue := { th.issue with stopped := false } }))
  | _ => .fault .noEvent

/-- DBG_SET_TRC_DBG (22 R516, 21 R496). -/
def execDbgSetTrcDbg (s : State) : Out :=
  match s.cur.ev with
  | some (.dbgSetTrcDbg c t) => .next (s.modThread c t (fun th => { th with csr := { th.csr with trc := th.csr.trc ||| 0x40 } }))
  | _ => .fault .noEvent

/-- DBG_CLEAR_TRC_DBG (22 R516, 21 R496). -/
def execDbgClearTrcDbg (s : State) : Out :=
  match s.cur.ev with
  | some (.dbgClearTrcDbg c t) => .next (s.modThread c t (fun th => { th with csr := { th.csr with trc := th.csr.trc &&& 0x3F } }))
  | _ => .fault .noEvent

/-! ### CSRs and counters -/

/-- NTF_WRITE (18 R456). -/
def execNtfWrite (s : State) : Out :=
  match s.cur.ev with
  | some (.ntfWrite c t v) =>
    (match s.thread? c t with
    | some th => .next (s.writeNtf th v)
    | none => .next s)
  | _ => .fault .noEvent

/-- RXW_WRITE (20 R490). -/
def execRxwWrite (s : State) : Out :=
  match s.cur.ev with
  | some (.rxwWrite c t v) =>
    (match (s.thread? c t).bind (fun th => (s.groupOf? th).map (fun g => (th, g))) with
    | some (th, g) => .next (s.bindRxw th.svc g v)
    | none => .next s)
  | _ => .fault .noEvent

/-- The thread stands for a privileged service (01 R32, 22 R514). -/
def State.privAt (s : State) (c t : Nat) : Bool :=
  match s.thread? c t with
  | some th => s.privileged th.svc
  | none => false

/-- An agent that may write a register of system software: the host, which reaches it once the package is ready (22 R510), or a privileged
service (01 R32). -/
def State.mayWrite (s : State) : Agent → Bool
  | .host => s.brs.st = 2
  | .bursar => false
  | .service c t => s.privAt c t

/-- A write by an agent without the right: a thread is to take PRIVILEGED, with the register's offset as its value; the host's and the
bursar's have no effect (01 R32, 16 Table 16.3). Log entry 64, DEDUCED. -/
def State.refuseWrite (s : State) (who : Agent) (off : Nat) : State :=
  match who with
  | .service c t => s.modThread c t (fun th => { th with issue := { th.issue with refused := some (wd off) } })
  | _ => s

/-- PRIVILEGED is taken for a refused write of a register, at the oldest access word, else at the front position (16 Table 16.3). -/
def State.refusedTrap (s : State) (th : Thread) (val : Word) : State :=
  match th.aq with
  | e :: _ => s.takeTrap th e.seq e.addr 0x02 val 1
  | [] => s.takeTrap th th.seq th.pc 0x02 val 1

/-- BMX_CLR (21 R503): clears the counters of a core. -/
def execBmxClr (s : State) : Out :=
  match s.cur.ev with
  | some (.bmxClr c who) => .next (if s.mayWrite who then s.modCore c (fun k => { k with bmx := [] }) else s.refuseWrite who (Reg.bmxClr c).off)
  | _ => .fault .noEvent

end Sys2Proof.Machine
end

