-- ==== Sys2Proof/Machine/Teller.lean ====
section
/-!
DEFINITION. The tellers (14 R351-R353, R356) and the life of strips (14 R357, R358, R363): TELLER_GRANT, STRIP_RUNDOWN_END,
STRIP_SCRUB_COMPLETE and FRAGMENT_SAVE_COMPLETE.
-/

namespace Sys2Proof.Machine

/-! ### Placements -/

/-- A strip of a die is free (14 R357). -/
def State.stripFree (s : State) (die n : Nat) : Bool := (s.strip die n).st == .free

/-- The clusters that some strips span stand at one operating point (14 R353). -/
def State.samePoint (s : State) (die : Nat) (l : List Nat) : Bool :=
  match l with
  | [] => true
  | n :: r => r.all (fun i => s.mhz die (i / 2) = s.mhz die (n / 2))

/-- The free placement that the teller chooses for a shape (14 R353). -/
def State.placement (s : State) (die shape : Nat) : Option (List Nat) :=
  let free (l : List Nat) : Bool := l.all (s.stripFree die)
  if shape = 0 then
    let f := (List.range 8).filter (s.stripFree die)
    match f.find? (fun n => !s.stripFree die (n ^^^ 1)) with
    | some n => some [n]
    | none => f.getLast?.map (fun n => [n])
  else
    let w := 2 ^ shape
    ((List.range (8 / w)).map (fun k => (List.range w).map (k * w + ·))).find? (fun l =>
      free l && (shape = 1 || s.samePoint die l))

/-! ### Grants -/

/-- The weight of a teller queue (14 R355). -/
def State.tellerWeight (s : State) (die q : Nat) : Nat := max 1 (fld (s.reg (.tlWt die)) (4 * q + 3) (4 * q))

/-- The remaining allowance of a teller queue (14 R352): before the first reload that of `tl.wt` at reset (14 R355). -/
def State.tellerAllow (s : State) (die q : Nat) : Nat := (s.die die).allow.get 1 q

/-- Requests that wait to enter a teller queue enter it while it has room: at the tail, or for a resume ahead of the others (14 R351,
R356). -/
def Die.enterAll (d : Die) : Die :=
  (List.range 4).foldl (fun (x : Die) q =>
    let a := x.tq.get [] q
    let w := x.enter.get [] q
    { x with tq := x.tq.set q ((w.take (64 - a.length)).foldl (fun l r => if r.ahead then r :: l else l ++ [r]) a),
             enter := x.enter.set q (w.drop (64 - a.length)) }) d

/-- The queues of a teller whose heads are grantable, with the request and its placement (14 R352). -/
def State.grantable (s : State) (die : Nat) : List (Nat × TReq × List Nat) :=
  (List.range 4).filterMap (fun q =>
    match ((s.die die).enterAll.tq.get [] q).head? with
    | none => none
    | some r => (s.placement die r.shape).map (fun l => (q, r, l)))

/-- The grant that a teller makes: among the grantable queues the greatest allowance, then the lower number (14 R352); with all of them
at zero the allowances reload first. The allowances after it are given too. -/
def State.tellerPick (s : State) (die : Nat) : Option ((Nat × TReq × List Nat) × Tab Nat) :=
  let g := s.grantable die
  let reload := g.all (fun p => s.tellerAllow die p.1 = 0)
  let allow (q : Nat) : Nat := if reload then s.tellerWeight die q else s.tellerAllow die q
  match g with
  | [] => none
  | x :: r =>
    let best := r.foldl (fun b y => if allow b.1 < allow y.1 then y else b) x
    some (best, (List.range 4).map (fun q => (q, if q = best.1 then allow q - 1 else allow q)))

/-- A group's lease of strips begins, in independent mode (14 R359, 15 R371, R387). -/
def State.giveLease (s : State) (task j id shape q : Nat) (l : List Nat) : State :=
  let s1 := s.modGroup task j (fun g =>
    { g with lease := id, mask := stripMask l, shape := BitVec.ofNat 2 shape, lq := BitVec.ofNat 2 q, mode := 0, flt := 0,
             pend := false, mferr := 0 })
  { s1 with threads := s1.threads.map (fun th =>
      if th.task = task && th.group = j then { th with msel := 0, lmode := 0 } else th) }

/-- The core of a group. -/
def State.groupCore (s : State) (task j : Nat) : Nat :=
  match s.group? task j with
  | some g => g.c
  | none => 0

/-- TELLER_GRANT (14 R351-R353, R356): the strips of the placement are held from the next cycle on. Requests with `try` that a cycle of the
teller does not grant are withdrawn (14 R367). -/
def execTellerGrant (s : State) : Out :=
  match s.cur.ev with
  | some (.tellerGrant die) =>
    let s0 := s.modDie die Die.enterAll
    (match s0.tellerPick die with
    | none => .next (s0.passOver die 1).stall
    | some ((q, r, l), allow) =>
      let id := s0.nextLease
      let s1 := { s0.modDie die (fun d => { d with tq := d.tq.set q ((d.tq.get [] q).tail), allow := allow }) with nextLease := id + 1 }
      let s2 := s1.modFrag die l (fun _ => { Strip.init with st := .held, task := r.task, group := r.group, lease := id })
      if r.start then
        .next ((s2.passOver die 1).modTask r.task (fun k => match k.saved with
          | some v => { k with saved := some { v with again := v.again.set r.group id } }
          | none => { k with leaseOk := stripMask l }))
      else
        .next (((s2.giveLease r.task r.group id r.shape q l).modThread (s2.groupCore r.task r.group) r.t (fun th =>
          { th with issue := { th.issue with got := some (stripMask l).toNat } })).passOver die 1))
  | _ => .fault .noEvent

/-! ### Returning and scrubbing -/

/-- STRIP_RUNDOWN_END (14 R357): every queued word has completed and every sequencer of the lease is idle: its strips scrub. -/
def execStripRundownEnd (s : State) : Out :=
  match s.cur.ev with
  | some (.stripRundownEnd die n) =>
    let l := s.leaseStrips die n
    if l.all (fun i => (s.strip die i).st == .returning && (s.strip die i).idle) then
      .next (s.modFrag die l (fun x => { x with st := .scrubbing }))
    else .next s.stall
  | _ => .fault .noEvent

/-- A strip has lost a claimed slot or an undrained half (14 R358). -/
def Strip.lost (x : Strip) : Bool :=
  x.slots.any (fun p => p.2.st.isSome) || x.acc.any (fun p => p.2.undrained)

/-- No fill or read of a slot is in progress (15 R376). -/
def Strip.quiet (x : Strip) : Bool := !x.slots.any (fun p => p.2.st == some .filling || p.2.st == some .draining)

/-- A copy command that fills a strip is in progress (15 R402, 16 R418). -/
def State.fed (s : State) (die n : Nat) : Bool :=
  s.cores.any (fun p => dieOf p.1 == die && p.2.chans.any (fun q => match q.2.run with
    | some r => r.left.any (fun x => match x.tgt with
      | .slot d m _ _ | .metaQ d m => d == die && m == n
      | _ => false)
    | none => false))

/-- STRIP_SCRUB_COMPLETE (14 R358): once fills in progress have ended, slots are freed, undrained halves zeroed and metadata emptied; the
lease's strips become free together, and the group reads which of them lost something. Log entry 51, DEDUCED. -/
def execStripScrubComplete (s : State) : Out :=
  match s.cur.ev with
  | some (.stripScrubComplete die n) =>
    let l := s.leaseStrips die n
    let x := s.strip die n
    if l.all (fun i => (s.strip die i).st == .scrubbing && (s.strip die i).quiet && !s.fed die i) then
      let lost := stripMask (l.filter (fun i => (s.strip die i).lost))
      .next ((s.modFrag die l (fun _ => Strip.init)).modGroup x.task x.group (fun g => { g with lost := lost }))
    else .next s.stall
  | _ => .fault .noEvent

/-- A strip at which everything stops (19 R472). -/
def Strip.halt (x : Strip) : Strip :=
  { x with q := [], run := none, drain := none, amax := none, recording := 0, leave := 0, granted := false }

/-- The fragment of a strip stops at once, without waiting for retirement (19 R472). -/
def State.haltStrip (s : State) (die n : Nat) : State :=
  let x := s.strip die n
  let s1 := (s.dropFab (.strip die n)).dropLeave die x.leave
  let s2 := match x.drain with
    | some r => s1.flipEnd r false
    | none => s1
  let s3 := match x.run with
    | some r => s2.settle die r.leaveId
    | none => s2
  s3.modStrip die n Strip.halt

/-- FRAGMENT_SAVE_COMPLETE (14 R357, R363; 16 R418): the strips of a gang being saved enter saving once every fragment of the lease has
retired and no copy command fills them, and become free once their state stands in the save. Those of a gang that has consumed a mark
meanwhile stop at once (19 R472, Table 19.3). -/
def execFragmentSaveComplete (s : State) : Out :=
  match s.cur.ev with
  | some (.fragmentSaveComplete die n) =>
    let l := s.leaseStrips die n
    let x := s.strip die n
    (match s.task? x.task with
    | none => .next s.stall
    | some k =>
      if k.st ≠ .saving then .next s.stall
      else if k.doom = 2 && l.all (fun i => (s.strip die i).st == .held && !s.fed die i) then
        .next ((l.foldl (fun z i => z.haltStrip die i) s).modFrag die l (fun y => { y with st := .saving }))
      else if l.all (fun i => (s.strip die i).st == .held && (s.strip die i).retired && (s.strip die i).quiet && !s.fed die i) then
        let ids := l.map (fun i => (s.strip die i).leave)
        let s1 := ids.foldl (fun z i => z.dropLeave die i) s
        .next (s1.modFrag die l (fun y => { y with st := .saving, leave := 0, granted := false }))
      else if l.all (fun i => (s.strip die i).st == .saving) then
        let kept := l.map (s.strip die)
        .next ((s.modFrag die l (fun _ => Strip.init)).modTask x.task (fun k =>
          { k with saved := k.saved.map (fun v => { v with strips := v.strips.set x.group kept }) }))
      else .next s.stall)
  | _ => .fault .noEvent

end Sys2Proof.Machine
end

