-- ==== Sys2Proof/Machine/Launch.lean ====
section
/-!
DEFINITION. Launch queues (17 R427, R428, R433, R444): the tail write, the acceptance of records gang by gang with the checks of 17 Table
17.2, and the finishing of records.
-/

namespace Sys2Proof.Machine

/-! ### Records -/

/-- Capacity of a launch queue; 0 for one that is disabled (17 R427). -/
def State.lnqCap (s : State) (n q : Nat) : Nat :=
  let lg := fld (s.reg (.lnqBase n q)) 3 0
  if lg = 0 then 0 else 2 ^ lg

/-- Address of slot `i` of a launch queue (17 R427). -/
def State.lnqSlot (s : State) (n q i : Nat) : Nat :=
  let b := s.reg (.lnqBase n q)
  fld b 51 12 * 4096 + 2048 * (i % 2 ^ fld b 3 0)

/-- Header word of a record. -/
def Launch.h (l : Launch) (i : Nat) : Word := l.hdr.getD i 0

/-- Width of WID field `k` (01 R21, 17 Table 17.1). -/
def widthOf (h : List Word) (k : Nat) : Nat := fld (h.getD 1 0) (6 * k + 5) (6 * k)

/-- Extent of WID field `k`, for k = 2 to 5 (17 Table 17.1). -/
def extentOf (h : List Word) (k : Nat) : Nat :=
  let w := h.getD (2 + (k - 2) / 2) 0
  (if k % 2 = 0 then fld w 31 0 else fld w 63 32) + 1

/-- Threads per group, groups per gang, window units and tile-entry units of a record (17 Table 17.1). -/
def thrOf (h : List Word) : Nat := fld (h.getD 1 0) 38 36 + 1
def grpOf (h : List Word) : Nat := fld (h.getD 1 0) 43 39 + 1
def winOf (h : List Word) : Nat := fld (h.getD 1 0) 48 44 + 1
def tentOf (h : List Word) : Nat := fld (h.getD 1 0) 54 49
/-- Byte offset of the kernel's first word, and of its table. -/
def entryOf (h : List Word) : Nat := fld (h.getD 4 0) 63 16
def ktabOf (h : List Word) : Nat := fld (h.getD 5 0) 63 16

/-- Fields 2 to 5 of the `n`-th gang of a launch, in ascending gang index (01 R21, 17 R433). -/
def gangFields (h : List Word) (n : Nat) : List Nat :=
  ((List.range 4).foldl (fun (x : Nat × List Nat) k => (x.1 / extentOf h (k + 2), x.2 ++ [x.1 % extentOf h (k + 2)])) (n, [])).2

/-- Gang index from its fields (01 R21). -/
def gangIndex (h : List Word) (f : List Nat) : Nat :=
  ((List.range 4).foldl (fun (x : Nat × Nat) k => (x.1 + f.getD k 0 * 2 ^ x.2, x.2 + widthOf h (k + 2))) (0, 0)).1

/-- A range entry as declared: its box before the gang's steps (17 R430). -/
def rangeOf (e : List Word) (f : List Nat) : Range :=
  let w (i : Nat) : Word := e.getD i 0
  let c (b : Nat) : List Nat := (List.range 6).map (fun j => if j % 2 = 0 then fld (w (b + j / 2)) 31 0 else fld (w (b + j / 2)) 63 32)
  let step (l : List Nat) : List Nat := (List.range 4).foldl (fun l k =>
    let x := fld (w 7) (16 * k + 15) (16 * k)
    let j := x / 2 ^ 12 % 8
    if x / 2 ^ 15 = 1 then setAt l j ((l.getD j 0 + f.getD k 0 * 2 ^ (x / 2 ^ 7 % 32)) % 2 ^ 32) else l) l
  { tid := fld (w 0) 11 0, mode := fld (w 0) 13 12, op := fld (w 0) 18 14, isOpen := bit (w 0) 19, lo := step (c 1), hi := step (c 4) }

/-- A step of a range entry names no dimension (17 R430). -/
def stepBad (e : List Word) : Bool :=
  (List.range 4).any (fun k =>
    let x := fld (e.getD 7 0) (16 * k + 15) (16 * k)
    x / 2 ^ 15 = 1 && 6 ≤ x / 2 ^ 12 % 8)

/-! ### Checks -/

/-- Reason 1 (17 Table 17.2): a condition of 01 R22 fails, or a reserved field is not zero. -/
def badShape (h : List Word) (es : List (List Word)) : Bool :=
  let w (i : Nat) : Word := h.getD i 0
  let ws := (List.range 6).map (widthOf h)
  fld (w 0) 31 24 ≠ 0 || fld (w 0) 10 0 ≠ 0 || fld (w 1) 63 55 ≠ 0 || fld (w 4) 15 12 ≠ 0 || fld (w 5) 15 0 ≠ 0 ||
    fld (w 8) 63 42 ≠ 0 || fld (w 9) 63 48 ≠ 0 ||
    es.any (fun e => fld (e.getD 0 0) 63 20 ≠ 0 || (List.range 4).any (fun k => fld (e.getD 7 0) (16 * k + 6) (16 * k) ≠ 0)) ||
    ws.any (32 < ·) || 3 < ws.getD 0 0 || 5 < ws.getD 1 0 || 64 < sumN ws || 2 ^ ws.getD 0 0 < thrOf h || 2 ^ ws.getD 1 0 < grpOf h ||
    (List.range 4).any (fun k => 2 ^ ws.getD (k + 2) 0 < extentOf h (k + 2))

/-- Reason 2 as far as the record itself shows it: too many entries, a mode or operation that is not admitted, a descriptor that is not
valid (17 Table 17.2). -/
def State.badRanges (s : State) (svc : Nat) (h : List Word) (es : List (List Word)) : Bool :=
  16 < fld (h.getD 0 0) 23 19 || es.any (fun e =>
    let r := rangeOf e []
    (if r.mode = 3 then 0x14 < r.op else r.op ≠ 0) || (s.desc? svc r.tid).isNone || stepBad e)

/-- Reason 3 (17 Table 17.2): what a guarded record may not declare. -/
def State.badGuarded (s : State) (svc : Nat) (h : List Word) (es : List (List Word)) : Bool :=
  bit (h.getD 0 0) 16 && es.any (fun e =>
    let r := rangeOf e []
    r.isOpen || (r.mode ≠ 0 && (match s.desc? svc r.tid with
      | some d => d.home = 10 || d.home = 11
      | none => false)))

/-- A 64-bit word of a code tensor, as the scheduler reads it: none while its tile cannot be read. -/
def State.codeWord (s : State) (svc tid : Nat) (d : Desc) (off : Nat) : Option Word :=
  let l := d.loc [off]
  match s.tileWord? svc tid d l.1 with
  | none => none
  | some w => match resid? w false with
    | some .resident | some .drawer | some .host => some (s.mem.word (frameBase w + swz d.swz l.2))
    | _ => none

/-- Words of a kernel table (17 R429). -/
def State.ktabWords (s : State) (svc tid : Nat) (d : Desc) (k lo n : Nat) : Option (List Word) :=
  (List.range n).mapM (fun i => s.codeWord svc tid d (k + 8 * (lo + i)))

/-- The kernel table of a record (17 R429): tiles by number and objects by index with their counts. -/
structure KTab where
  tiles : List (Nat × Tile)
  bars : List (Nat × Nat)
  deriving DecidableEq, Repr

/-- Reads a kernel table: none while a tile of the code tensor cannot be read, `some none` for a table that is bad. -/
def State.ktab (s : State) (svc : Nat) (h : List Word) : Option (Option KTab) :=
  let tid := fld (h.getD 4 0) 11 0
  match s.desc? svc tid with
  | none => some none
  | some d =>
    let k := ktabOf h
    let ext := d.ext.getD 0 0
    if ext < k + 8 then some none
    else match s.codeWord svc tid d k with
      | none => none
      | some w =>
        let nt := fld w 8 0
        let nb := fld w 20 10
        if ext < k + 8 * (1 + nt + nb) then some none
        else match s.ktabWords svc tid d k 1 nt, s.ktabWords svc tid d k (1 + nt) nb with
          | some ts, some bs =>
            let tiles := ts.map (fun x => (fld x 45 38,
              ({ base := fld x 11 0, size := fld x 24 12, ty := BitVec.ofNat 4 (fld x 31 28), swz := BitVec.ofNat 4 (fld x 35 32),
                 st := .empty } : Tile)))
            if tiles.any (fun p => 12 ≤ p.2.ty.toNat || p.2.size = 0 || 4096 < p.2.size) then some none
            else some (some { tiles := tiles, bars := bs.map (fun x => (fld x 33 24, fld x 23 0)) })
          | _, _ => none

/-- Reason 4 but for the kernel table (17 Table 17.2): code tensor, entry, table and vectors. -/
def State.badCode (s : State) (svc : Nat) (h : List Word) : Bool :=
  match s.desc? svc (fld (h.getD 4 0) 11 0) with
  | none => true
  | some d =>
    let ext := d.ext.getD 0 0
    !d.px || d.rank ≠ 1 || elemBits d.ty ≠ 8 || ext ≤ entryOf h || entryOf h % 4 ≠ 0 || ext ≤ ktabOf h || ktabOf h % 8 ≠ 0 ||
      [h.getD 6 0, h.getD 7 0].any (fun v => v ≠ 0 && (ext ≤ v.toNat || v.toNat % 4 ≠ 0))

/-- Reason 5 (17 Table 17.2): tiles, objects and the remaining fields. -/
def badTable (h : List Word) (k : KTab) : Bool :=
  let win := winOf h
  let meets (a b : Tile) : Bool := decide (a.lo < b.hi) && decide (b.lo < a.hi)
  32 < tentOf h || k.tiles.any (fun p => 8 * tentOf h ≤ p.1 || 128 * win < p.2.base + p.2.size) ||
    k.bars.any (fun p => 32 * win ≤ p.1) ||
    k.tiles.zipIdx.any (fun x => k.tiles.zipIdx.any (fun y => x.2 < y.2 && (x.1.1 == y.1.1 || meets x.1.2 y.1.2))) ||
    (!bit (h.getD 0 0) 11 && fld (h.getD 0 0) 15 12 ≠ 0) || (bit (h.getD 0 0) 17 && 32 * win ≤ fld (h.getD 8 0) 41 32)

/-- The reason for which a record is rejected, 0 for none (17 R432, Table 17.2); none while it cannot be told. Log entry 54, DEDUCED. -/
def State.recordReason (s : State) (svc : Nat) (h : List Word) (es : List (List Word)) : Option Nat :=
  if badShape h es then some 1
  else if s.badRanges svc h es then some 2
  else if s.badGuarded svc h es then some 3
  else if s.badCode svc h then some 4
  else match s.ktab svc h with
    | none => none
    | some none => some 4
    | some (some k) => some (if badTable h k then 5 else if !s.svcEn svc then 6 else 0)

/-- A gang's boxes break 17 Table 17.2: empty, beyond an extent, or overlapping one another unless both are read (10 R261). -/
def State.badBoxes (s : State) (svc : Nat) (rs : List Range) : Bool :=
  rs.any (fun r => match s.desc? svc r.tid with
    | none => true
    | some d => (List.range 6).any (fun j =>
      let lo := r.lo.getD j 0
      let hi := r.hi.getD j 0
      if j < d.rank then hi ≤ lo || d.ext.getD j 0 < hi else lo ≠ 0 || hi ≠ 1)) ||
  rs.zipIdx.any (fun x => rs.zipIdx.any (fun y => x.2 < y.2 && x.1.tid == y.1.tid && (x.1.mode ≠ 0 || y.1.mode ≠ 0) &&
    (List.range 6).all (fun j => max (x.1.lo.getD j 0) (y.1.lo.getD j 0) < min (x.1.hi.getD j 0) (y.1.hi.getD j 0))))

/-! ### Status -/

/-- A launch with a status and reason. -/
def Launch.withStatus (l : Launch) (status reason : Nat) : Launch := { l with status := status, reason := reason }

/-- Writes a record's status and reason (17 R429, 20 R480). -/
def State.putStatus (s : State) (l : Launch) (status reason : Nat) : State :=
  let a := l.addr + 72
  let w := s.mem.word a &&& ~~~(0xFFFF#64 <<< 32) ||| wd (status * 2 ^ 32 + reason * 2 ^ 40)
  let s1 : State := { s.wrote a 8 (s.mem.putWord a w) with
    launches := s.launches.map (fun x => if x.id = l.id then x.withStatus status reason else x) }
  if 2 ≤ status then s1.irq 2 else s1

/-- The launch with a number. -/
def State.launch? (s : State) (id : Nat) : Option Launch := s.launches.find? (fun l => l.id == id)

/-- The queue's acceptance index moves past a record (17 R428). -/
def State.accNext (s : State) (n q : Nat) : State :=
  let x := s.lnqHead n q
  s.setLnq n q { x with acc := (x.acc + 1) % 65536 }

/-- A launch ends before all its gangs have been accepted, or is rejected or failed: no further gang of it is accepted (17 R432, R442). -/
def State.closeLaunch (s : State) (l : Launch) (status reason : Nat) : State :=
  let s0 := if s.waitAcc = some (l.svc, l.queue) then { s with waitAcc := none } else s
  let s1 := s0.putStatus l status reason
  if (s.lnqHead l.svc l.queue).acc = l.index && l.next < l.total then s1.accNext l.svc l.queue else s1

/-! ### Acceptance -/

/-- The class of a queue and of the tasks accepted from it (17 R433, R444). -/
def State.queueCls (s : State) (n q : Nat) : Nat :=
  let c := fld (s.reg (.lnqCtl n q)) 61 60
  if (s.lnqHead n q).raised then max c (min (c + 1) (min 3 (s.ceiling n))) else c

/-- Enabled queues of a service that hold a record not yet fully accepted (17 R433). -/
def State.openQueues (s : State) (n : Nat) : List Nat :=
  (List.range 16).filter (fun q => s.lnqCap n q ≠ 0 && bit (s.reg (.lnqCtl n q)) 63 && (s.lnqHead n q).acc ≠ s.lnqTailN n q)

/-- The queue from which the service's next gang is accepted (17 R433): the highest class, then round-robin. -/
def State.pickQueue (s : State) (n : Nat) : Option Nat :=
  match s.waitAcc with
  | some (m, q) => if m = n then some q else none
  | none =>
    let last := (s.svc n).lastQ
    let qs := ((List.range 16).map (fun i => (last + 1 + i) % 16)).filter ((s.openQueues n).contains ·)
    let top := qs.foldl (fun m q => max m (s.queueCls n q)) 0
    qs.find? (fun q => s.queueCls n q = top)

/-- The launch whose record a queue is accepting. -/
def State.opened (s : State) (n q : Nat) : Option Launch :=
  s.launches.find? (fun l => l.svc == n && l.queue == q && l.index == (s.lnqHead n q).acc && l.status == 1)

/-- The record at a queue's acceptance index is read and checked (17 R428, R432): none while it cannot be. -/
def State.openRecord (s : State) (n q : Nat) : Option State :=
  let i := (s.lnqHead n q).acc
  let a := s.lnqSlot n q i
  let h := s.mem.words a 16
  let es := (List.range (min 16 (fld (h.getD 0 0) 23 19))).map (fun k => s.mem.words (a + 128 + 64 * k) 8)
  (s.recordReason n h es).map (fun r =>
    let l : Launch := { id := s.nextLaunch, svc := n, queue := q, index := i, addr := a, hdr := h, entries := es,
                        total := prodN ((List.range 4).map (fun k => extentOf h (k + 2))), next := 0, status := 1, reason := 0 }
    let s1 := { s with launches := s.launches ++ [l], nextLaunch := s.nextLaunch + 1 }
    if r = 0 then s1.putStatus l 1 0 else s1.closeLaunch l 3 r)

/-- Ranges in the package's range table (17 R433). -/
def State.rangeCount (s : State) : Nat := sumN (s.tasks.map (fun k => k.ranges.length))

/-- One gang more has been accepted. -/
def Launch.oneMore (l : Launch) : Launch := { l with next := l.next + 1 }

/-- The next gang of an opened launch is accepted (17 R433, R434): its ranges enter the table, it waits for the tasks that it depends on.
Log entry 59, DEDUCED. -/
def State.acceptGang (s : State) (l : Launch) : State :=
  let f := gangFields l.hdr l.next
  let rs := l.entries.map (fun e => rangeOf e f)
  if s.badBoxes l.svc rs then s.closeLaunch l 3 2
  else if 4096 < s.rangeCount + rs.length then { s with waitAcc := some (l.svc, l.queue) }
  else
    let k : Task := { id := s.nextTask, svc := l.svc, queue := l.queue, launch := l.id, gang := gangIndex l.hdr f,
                      seq := (s.svc l.svc).nextSeq, run := 0, cls := s.queueCls l.svc l.queue, st := .waiting, hdr := l.hdr, ranges := rs,
                      held := [], extra := 0, deps := [], die := 0, cores := [], leaveOk := false, leave := 0, leaseOk := 0, saved := none, doom := 0,
                      culprit := none, tag := 0 }
    let k1 := { k with deps := (s.tasks.filter (s.dependsOn k)).map (·.id) }
    let s1 : State := { s with
      tasks := s.tasks ++ [k1], nextTask := s.nextTask + 1, waitAcc := none
      launches := s.launches.map (fun x => if x.id = l.id then x.oneMore else x) }
    let s2 := s1.modSvc l.svc (fun v => { v with nextSeq := v.nextSeq + 1, lastQ := l.queue })
    (if l.next + 1 = l.total then s2.accNext l.svc l.queue else s2).wake

/-- GANG_ACCEPT (17 R428, R432-R434): the service's next gang is accepted, or its record rejected. -/
def execGangAccept (s : State) : Out :=
  match s.cur.ev with
  | some (.gangAccept n) =>
    if s.brs.st ≠ 2 then .next s.stall
    else match s.pickQueue n with
      | none => .next s.stall
      | some q =>
        match s.opened n q with
        | some l => if !s.svcEn n then .next { s with waitAcc := none }.stall
          else
            let s1 := s.acceptGang l
            .next (if s1.waitAcc.isSome && s.waitAcc.isSome then s1.stall else s1)
        | none =>
          match s.openRecord n q with
          | some s1 => .next s1
          | none => .next s.stall
  | _ => .fault .noEvent

/-! ### Tail and head -/

/-- A write of `lnq.tail` (17 R427, R428). -/
def State.putTail (s : State) (n q : Nat) (v : Word) (who : Agent) : State :=
  let t := fld v 15 0
  let depth := (t + 65536 - (s.lnqHead n q).head) % 65536
  if !s.mayWrite who then s.refuseWrite who (Reg.lnqTail n q).off
  else if (who == .host && bit (s.reg (.lnqCtl n q)) 62) || s.lnqCap n q < depth then s
  else s.setReg (.lnqTail n q) (wd t)

/-- LNQ_TAIL_WRITE (17 R428). -/
def execLnqTailWrite (s : State) : Out :=
  match s.cur.ev with
  | some (.lnqTailWrite n q v who) => .next (s.putTail n q v who)
  | _ => .fault .noEvent

/-- A launch all of whose gangs have been accepted and released (17 R428). -/
def State.launchDone (s : State) (l : Launch) : Bool :=
  l.status = 1 && l.next = l.total && !s.tasks.any (fun k => k.launch == l.id)

/-- The head of a queue moves past records that have finished; a raise ends below the low watermark (17 R428, R444). -/
def State.moveHead (s : State) (n q : Nat) : Nat → State
  | 0 => s
  | m + 1 =>
    let x := s.lnqHead n q
    match s.launches.find? (fun l => l.svc == n && l.queue == q && l.index == x.head) with
    | some l =>
      if x.head ≠ x.acc && 2 ≤ l.status then
        ({ s with launches := s.launches.filter (fun y => y.id ≠ l.id) }.setLnq n q { x with head := (x.head + 1) % 65536 }).moveHead n q m
      else s
    | none => s

/-- RECORD_FINISH (17 R428, R444). -/
def execRecordFinish (s : State) : Out :=
  match s.cur.ev with
  | some (.recordFinish n q) =>
    let s1 := (s.launches.filter (fun l => l.svc == n && l.queue == q && s.launchDone l)).foldl (fun z l => z.putStatus l 2 0) s
    let s2 := s1.moveHead n q s1.launches.length
    .next (if s2.lnqDepth n q < fld (s2.reg (.lnqCtl n q)) 31 16 then s2.setLnq n q { s2.lnqHead n q with raised := false } else s2)
  | _ => .fault .noEvent

end Sys2Proof.Machine
end

