-- ==== Sys2Proof/Machine/Frames.lean ====
section
/-!
DEFINITION. The pools of near frames (12 R300, R301) and how hardware changes the frame of a tile (10 R256, 12 R299): NF_PUT, NF_DROP,
NF_BASE_WRITE and HW_FRAME_PUT.
-/

namespace Sys2Proof.Machine

/-! ### Rings -/

/-- Capacity of a pool ring, 0 for one that is disabled (12 R300). -/
def State.poolCap (s : State) (k z : Nat) : Nat :=
  let lg := fld (s.reg (.nfBase k z)) 4 0
  if lg = 0 then 0 else 2 ^ lg

/-- Sets head and count of a ring. -/
def State.setPool (s : State) (k z : Nat) (p : Nat × Nat) : State := { s with pools := s.pools.set (16 * k + z) p }

/-- Address of a ring's entry. Log entry 72, DEDUCED. -/
def State.poolSlot (s : State) (k z i : Nat) : Nat :=
  fld (s.reg (.nfBase k z)) 51 12 * 4096 + 8 * (i % s.poolCap k z)

/-- The ring counts as full (12 R300). -/
def State.poolFull (s : State) (k z : Nat) : Bool := decide (s.poolCap k z ≤ (s.pool k z).2)

/-- Takes the frame at the head of a ring: its number (12 R301). -/
def State.takeFrame (s : State) (k z : Nat) : Option (Nat × State) :=
  let p := s.pool k z
  if p.2 = 0 || s.poolCap k z = 0 then none
  else some ((s.mem.word (s.poolSlot k z p.1)).toNat % 2 ^ 40, s.setPool k z ((p.1 + 1) % s.poolCap k z, p.2 - 1))

/-- Adds a frame at the tail of a ring that has room. -/
def State.addFrame (s : State) (k z f : Nat) : State :=
  let p := s.pool k z
  (s.wrote (s.poolSlot k z (p.1 + p.2)) 8 (s.mem.putWord (s.poolSlot k z (p.1 + p.2)) (wd f))).setPool k z (p.1, p.2 + 1)

/-- A put by hardware: behind those that wait, and waiting while the ring is full (12 R301). `task` is the task whose clearing or discard
makes it. -/
def State.putFrame (s : State) (k z f task : Nat) : State :=
  if s.poolFull k z || s.hwPuts.any (fun h => h.set == k && h.z == z) then
    { s with hwPuts := s.hwPuts ++ [{ set := k, z := z, frame := f, task := task }] }
  else s.addFrame k z f

/-- Size class of a tensor's tiles (12 R300). -/
def Desc.z (d : Desc) : Nat := (d.bytes / 4096).log2

/-- A put that waits enters its ring, if there is room now. -/
def State.enterPut (s : State) (k z : Nat) : Option State :=
  match s.hwPuts.find? (fun h => h.set == k && h.z == z) with
  | none => none
  | some h => if s.poolFull k z then none else some ({ s with hwPuts := s.hwPuts.erase h }.addFrame k z h.frame)

/-- HW_FRAME_PUT (12 R301). -/
def execHwFramePut (s : State) : Out :=
  match s.cur.ev with
  | some (.hwFramePut k z) => (match s.enterPut k z with
    | some s1 => .next s1
    | none => .next s.stall)
  | _ => .fault .noEvent

/-- The puts that wait at a ring enter it as far as it has room; `n` bounds their number (12 R301). -/
def State.enterPuts (s : State) (k z : Nat) : Nat → State
  | 0 => s
  | n + 1 => match s.enterPut k z with
    | some s1 => State.enterPuts s1 k z n
    | none => s

/-- A write of `nf.put` (12 R300), behind the puts of hardware that have reached the pool before it (12 R301). One that names a bad frame sets
`bad` alone, be the ring full or disabled too. Log entry 91, DESIGN CHOICE. -/
def State.nfPutWrite (s : State) (k z : Nat) (v : Word) (who : Agent) : State :=
  let f := fld v 51 12
  let say (b : Nat) : State := s.setReg (.nfStat k z) (s.reg (.nfStat k z) ||| wd (2 ^ b))
  if !s.mayWrite who then s.refuseWrite who (Reg.nfPut k z).off
  else if f % 2 ^ z ≠ 0 || fld v 51 48 ≠ k then say 62
  else
    let s1 := s.enterPuts k z s.hwPuts.length
    if s1.poolFull k z then s1.setReg (.nfStat k z) (s.reg (.nfStat k z) ||| wd (2 ^ 63)) else s1.addFrame k z f

/-- NF_PUT (12 R300). -/
def execNfPut (s : State) : Out :=
  match s.cur.ev with
  | some (.nfPut k z v who) => .next (s.nfPutWrite k z v who)
  | _ => .fault .noEvent

/-- A write of `nf.drop` (12 R300). -/
def State.nfDropWrite (s : State) (k z : Nat) (v : Word) (who : Agent) : State :=
  let p := s.pool k z
  let n := min (fld v 23 0) p.2
  if !s.mayWrite who then s.refuseWrite who (Reg.nfDrop k z).off
  else if s.poolCap k z = 0 then s else s.setPool k z ((p.1 + n) % s.poolCap k z, p.2 - n)

/-- NF_DROP (12 R300). -/
def execNfDrop (s : State) : Out :=
  match s.cur.ev with
  | some (.nfDrop k z v who) => .next (s.nfDropWrite k z v who)
  | _ => .fault .noEvent

/-- A write of `nf.base`, which empties the ring (12 R300). -/
def State.nfBasePut (s : State) (k z : Nat) (v : Word) (who : Agent) : State :=
  if !s.mayWrite who then s.refuseWrite who (Reg.nfBase k z).off
  else (s.setReg (.nfBase k z) (Reg.stored (.nfBase k z) (s.reg (.nfBase k z)) v)).setPool k z (0, 0)

/-- NF_BASE_WRITE (12 R300). -/
def execNfBaseWrite (s : State) : Out :=
  match s.cur.ev with
  | some (.nfBaseWrite k z v who) => .next (s.nfBasePut k z v who)
  | _ => .fault .noEvent

/-! ### Moving a tile -/

/-- A held translation follows a move of hardware (10 R256). -/
def Task.retake (k : Task) (tid idx : Nat) (w : Word) : Task :=
  { k with held := k.held.map (fun h => if h.tid = tid && h.idx = idx then { h with frame := w } else h) }

/-- Hardware changes the frame word of a tile: every translation of it is dropped, and that of every holder follows (10 R256, 12 R299). -/
def State.moveFrame (s : State) (svc tid : Nat) (d : Desc) (idx : Nat) (w : Word) : State :=
  let s1 := s.setFrameWord d idx w
  { s1 with
    tasks := s1.tasks.map (fun k => if k.svc = svc then k.retake tid idx w else k)
    handles := s1.handles.map (fun p =>
      (p.1, if p.2.svc = svc && p.2.tid = tid && p.2.idx = idx then { p.2 with frame := w } else p.2)) }

/-- Sends a message to a peer. -/
def State.tell (s : State) (m : PeerMsg) : State := { s with peerOut := s.peerOut ++ [m] }

/-- A handle of a tile. -/
def Handle.of (svc tid idx : Nat) (h : Handle) : Bool := h.svc == svc && h.tid == tid && h.idx == idx

/-- The recall of some handles changes: for those in one state a message goes to the holder, and they pass to another (20 R485). -/
def State.recallStep (s : State) (p : Handle → Bool) (old new : Nat) (m : Nat → Nat → PeerMsg) : State :=
  let l := s.handles.filter (fun h => p h.2 && h.2.st = old)
  { s with
    handles := s.handles.map (fun h => (h.1, if p h.2 && h.2.st = old then { h.2 with st := new } else h.2))
    peerOut := s.peerOut ++ l.map (fun h => m h.2.pkg h.1) }

/-- Some handles are recalled, those that are not yet; their recall ends. -/
def State.recall (s : State) (p : Handle → Bool) : State := s.recallStep p 0 1 .recall
def State.resume (s : State) (p : Handle → Bool) : State := s.recallStep p 2 0 .resume

/-- Of some handles none is in use: every holder has acknowledged. -/
def State.recalled (s : State) (p : Handle → Bool) : Bool := s.handles.all (fun h => !p h.2 || h.2.st = 2)

/-- Some of these handles has yet to be recalled. -/
def State.toRecall (s : State) (p : Handle → Bool) : Bool := s.handles.any (fun h => p h.2 && h.2.st = 0)

/-- A frame word with another frame, and a `tm.mig` (10 R258). -/
def withFrame (w : Word) (pa mig : Nat) : Word := w &&& 0xCFF0000000000FFF#64 ||| wd (pa / 4096 * 4096 + mig * 2 ^ 60)

/-- The die to which a tile in the drawer is promoted (12 R306, 10 R254). -/
def Desc.promoteDie (d : Desc) (idx : Nat) (w : Word) : Nat :=
  if d.home < 8 then d.home else if d.home = 8 then idx % 8 else homeDie (frameBase w)

end Sys2Proof.Machine
end

