-- ==== Sys2Proof/Machine/Lease.lean ====
section
/-!
DEFINITION. The lease maker: the mapping of a task's ranges (10 R260, R262, R263), LEXT's reply (10 R267), and what becomes of shadows and
escrow entries when a guarded task clears or is discarded (10 R265, 12 R311): LEASE_MAPPED, SCHEDULER_REPLY and CLEARING_COMPLETE.
-/

namespace Sys2Proof.Machine

/-! ### Mapping -/

/-- A gang has started, in this or an earlier run (01 R24, 17 Table 17.3). -/
def Task.started (k : Task) : Bool :=
  k.run ≠ 0 || k.saved.isSome || !(k.st == .waiting || k.st == .ready || k.st == .mapped || k.st == .reserved)

/-- The tiles of a task's ranges, each once, by tensor and index; none where a descriptor is not valid. -/
def State.rangeTiles (s : State) (k : Task) : Option (List (Nat × Nat)) :=
  (k.ranges.mapM (fun r => (s.desc? k.svc r.tid).map (fun d => (r.tiles d).map (fun i => (r.tid, i))))).map (fun l =>
    l.flatten.eraseDups)

/-- A state word with a staging frame reserved (10 R258): `f` is its number. -/
def withStage (w : Word) (f : Nat) : Word :=
  w &&& ~~~(0x7FFFFFFFFFF#64 &&& ~~~0xFFFF#64) ||| wd (2 ^ 42 + f / 2 ^ 36 * 2 ^ 39 + f % 2 ^ 23 * 2 ^ 16)

/-- A state word without one. -/
def noStage (w : Word) : Word := w &&& ~~~(0x7FFFFFFFFFF#64 &&& ~~~0xFFFF#64)

/-- A task's hold on a tile. -/
def Task.hold (k : Task) (h : Held) : Task :=
  { k with held := k.held.filter (fun x => !(x.tid == h.tid && x.idx == h.idx)) ++ [h] }

/-- The residency that a tile's frame word gives to a task; a class-9 word stands where the task holds handles (20 R482). -/
def Task.residOf (k : Task) (tid idx : Nat) (w : Word) : Option Resid :=
  resid? w (((k.held? tid idx).bind (·.handle)).isSome)

/-- Reserves a staging frame for a tile (10 R260): its number. -/
def State.stageFor (s : State) (d : Desc) (idx : Nat) (w : Word) : Option (Nat × State) :=
  s.takeFrame (if frameClass w ≤ 7 then frameClass w else d.promoteDie idx w) d.z

/-- A tile is mapped for the ranges of a task that touch it (10 R260, R263): pinned, and staged for a guarded write or update range.
None where it cannot be. `n` more ranges hold it than before; `staged` tells whether one of them writes in a guarded task. -/
def State.mapTile (s : State) (k : Task) (tid : Nat) (d : Desc) (idx n : Nat) (writes staged : Bool) : Option State :=
  match s.tileWord? k.svc tid d idx with
  | none => none
  | some w =>
    let old := k.held? tid idx
    let far := match k.residOf tid idx w with
      | some .peer | some .host => true
      | _ => false
    if (k.residOf tid idx w).isNone || (far && k.guarded && writes) || (d.home = 10 && (old.bind (·.handle)).isNone) then none
    else
      let h : Held := match old with
        | some h => { h with count := h.count + n, frame := if h.count = 0 && h.handle.isNone then w else h.frame }
        | none => { tid := tid, idx := idx, frame := w, count := n, shadow := none, written := false, handle := none }
      if staged && h.shadow.isNone then
        (s.stageFor d idx w).map (fun p =>
          ((p.2.setStateWord d idx (withStage (p.2.stateWord d idx) p.1)).addLc k.svc tid idx n).modTask k.id (fun y =>
            y.hold { h with shadow := some (4096 * p.1) }))
      else some ((s.addLc k.svc tid idx n).modTask k.id (fun y => y.hold h))

/-- Maps tiles of a task's ranges, all or none. -/
def State.mapAll (s : State) (k : Task) : List (Nat × Nat) → Option State
  | [] => some s
  | (tid, idx) :: r =>
    match s.desc? k.svc tid with
    | none => none
    | some d =>
      let rs := k.rangesOn d tid idx
      let writes := rs.any (·.mode ≠ 0)
      let staged := k.guarded && rs.any (fun x => x.mode = 1 || x.mode = 2)
      (s.mapTile k tid d idx rs.length writes staged).bind (fun s1 => State.mapAll s1 k r)

/-- Lower gangs of the launch have all started (01 R24, 17 Table 17.3). -/
def State.lowerStarted (s : State) (k : Task) : Bool :=
  s.tasks.all (fun u => u.launch ≠ k.launch || k.id ≤ u.id || u.started)

/-- A task with a state. -/
def Task.to (k : Task) (st : TaskSt) : Task := { k with st := st }

/-- Copies of the descriptors of a task's tensors are held, or not: the manual lets them be (10 R256; log entry 38, DESIGN CHOICE). -/
def State.keepDescs (s : State) (k : Task) : State :=
  if Config.keepDesc s.freeCount then
    (k.ranges.foldl (fun z r => { z with dcache := z.dcache.set (4096 * k.svc + r.tid) (z.descWords k.svc r.tid) }) s).bump
  else s.bump

/-- The ranges of a task on tensors of home 10 for which no peer has been asked, by their places. -/
def State.unasked (s : State) (k : Task) : List Nat :=
  (List.range k.ranges.length).filter (fun i => !k.asked.contains i && (match k.ranges[i]? with
    | some r => (s.desc? k.svc r.tid).any (fun d => d.home = 10)
    | none => false))

/-- The lease maker asks the peer for a translation lease on the tiles of a range (20 R484). -/
def State.askPeer (s : State) (k : Task) (i : Nat) : State :=
  match k.ranges[i]? with
  | none => s
  | some r =>
    match s.desc? k.svc r.tid, s.import? k.svc r.tid with
    | some d, some p => (s.tell (.ask d.peer k.id i p.1 p.2 (r.tiles d) (r.mode ≠ 0) (s.descWords k.svc r.tid))).modTask k.id
        (fun y => { y with asked := y.asked ++ [i] })
    | _, _ => s

/-- LEASE_MAPPED (10 R260, 17 Table 17.3): peers are asked first for what they lend (20 R484). -/
def execLeaseMapped (s : State) : Out :=
  match s.cur.ev with
  | some (.leaseMapped id) =>
    (match s.task? id with
    | none => .next s.stall
    | some k =>
      if k.st ≠ .ready || !s.lowerStarted k then .next s.stall
      else if !(s.unasked k).isEmpty then .next ((s.unasked k).foldl (fun z i => z.askPeer k i) s)
      else match (s.rangeTiles k).bind (s.mapAll k) with
        | some s1 => .next ((s1.keepDescs k).modTask id (·.to .mapped))
        | none => .next s.stall)
  | _ => .fault .noEvent

/-! ### LEXT -/

/-- The box of a tile (10 R267). -/
def Desc.tileBox (d : Desc) (idx : Nat) : List Nat × List Nat :=
  let tc := d.tileCoords idx
  let t (j : Nat) : Nat := 2 ^ d.tlg.getD j 0
  ((List.range 6).map (fun j => if j < d.rank then tc.getD j 0 * t j else 0),
   (List.range 6).map (fun j => if j < d.rank then min ((tc.getD j 0 + 1) * t j) (d.ext.getD j 0) else 1))

/-- A task with a range that LEXT adds. -/
def Task.addRange (k : Task) (r : Range) : Task := { k with ranges := k.ranges ++ [r], extra := k.extra + 1 }

/-- The result of LEXT for a task, and the state after it (10 R267). -/
def State.lext (s : State) (k : Task) (v m : Word) : Nat × State :=
  let tid := fld v 63 52
  match s.desc? k.svc tid with
  | none => (4, s)
  | some d =>
    let idx := fld v 47 0 / d.bytes
    let mode := m.toNat
    if 3 ≤ mode || d.tiles ≤ idx then (4, s)
    else if 16 ≤ k.ranges.length || 4096 ≤ s.rangeCount then (3, s)
    else
      let box := d.tileBox idx
      let r : Range := { tid := tid, mode := mode, op := 0, isOpen := false, lo := box.1, hi := box.2 }
      let w := (s.tileWord? k.svc tid d idx).getD 0
      if frameClass w = 8 && fld w 61 60 = 2 || (!bit w 62 && mode ≠ 0) then (2, s)
      else match s.mapTile k tid d idx 1 (mode ≠ 0) (k.guarded && mode ≠ 0) with
        | none => (2, s)
        | some s1 =>
          if s.tasks.any (fun u => u.svc = k.svc && u.id ≠ k.id && (u.rangesOn d tid idx).any (fun x => conflict false r x)) then (1, s)
          else (0, s1.modTask k.id (·.addRange r))

/-- The reply reaches the thread: S[d] is written under the number of the LEXT, and the front goes on. -/
def Thread.lextDone (th : Thread) (d : Nat) (v : Word) : Thread :=
  let th1 := ({ th with seq := th.seq - 1 }).sPut (BitVec.ofNat 5 d) v
  { th1 with seq := th.seq, issue := { th1.issue with lext := none } }

/-- SCHEDULER_REPLY (10 R267, 21 R506). -/
def execSchedulerReply (s : State) : Out :=
  match s.cur.ev with
  | some (.schedulerReply c t) =>
    (match s.thread? c t with
    | none => .next s.stall
    | some th =>
      match th.issue.lext, s.task? th.task with
      | some (d, v, m), some k =>
        let p := s.lext k v m
        (match p.2.record c t (th.seq - 1) th.csr.corr (wd p.1) with
        | .ok s1 => .next (s1.modThread c t (·.lextDone d (wd p.1)))
        | .error _ => .next s.stall)
      | _, _ => .next s.stall)
  | _ => .fault .noEvent

/-! ### Shadows -/

/-- A task's hold on a tile without its shadow. -/
def Task.unstage (k : Task) (tid idx : Nat) : Task :=
  { k with held := k.held.map (fun h => if h.tid = tid && h.idx = idx then { h with shadow := none, written := false } else h) }

/-- A shadow frame goes back to the pool of its own die (10 R265, 12 R301). -/
def State.freeShadow (s : State) (k : Task) (d : Desc) (h : Held) : State :=
  match h.shadow with
  | none => s
  | some sh =>
    let s1 := (s.dropLines (sh / 32) (d.bytes / 32)).setStateWord d h.idx (noStage (s.stateWord d h.idx))
    (s1.modTask k.id (·.unstage h.tid h.idx)).putFrame (sh / 2 ^ 48) d.z (sh / 4096) k.id

/-- The shadow replaces the frame of a near tile, whose old frame goes to the pool of its die (10 R265, 12 R299). -/
def State.swapShadow (s : State) (k : Task) (d : Desc) (h : Held) (w : Word) (sh : Nat) : State :=
  let s1 := (s.dropLines (frameBase w / 32) (d.bytes / 32)).setStateWord d h.idx (noStage (s.stateWord d h.idx))
  ((s1.moveFrame k.svc h.tid d h.idx (withFrame w sh 0)).modTask k.id (·.unstage h.tid h.idx)).putFrame
    (frameClass w) d.z (frameBase w / 4096) k.id

/-- Writes of the blocks of a drawer frame, on behalf of a tile (12 R317). -/
def State.askWrites (s : State) (who : Owner) (cls die base bytes : Nat) : State :=
  (List.range ((bytes + 255) / 256)).foldl (fun z i =>
    let pa := base + 256 * i
    let q : DReq := { cls := cls, die := die, write := true, pa := pa, who := who, slot := 0 }
    z.modLink (linkOf pa) (fun l => { l with wait := l.wait ++ [q] })) s

/-- One step of the publication of a written or reserved shadow (10 R265); none while it must wait. -/
def State.publish1 (s : State) (k : Task) (h : Held) : Option State :=
  match s.desc? k.svc h.tid, h.shadow with
  | some d, some sh =>
    if !h.written then some (s.freeShadow k d h)
    else
      let w := h.frame
      let who := Owner.fetch k.svc h.tid h.idx
      if frameClass w ≤ 7 then
        let p := Handle.of k.svc h.tid h.idx
        if fld w 61 60 ≠ 0 then none
        else if s.recalled p then some ((s.swapShadow k d h w sh).resume p)
        else if s.toRecall p then some (s.recall p) else none
      else if fld w 61 60 = 0 then
        if s.fetching k.svc h.tid h.idx then none
        else some ((s.moveFrame k.svc h.tid d h.idx (withFrame w (frameBase w) 2)).askWrites who (s.svcCls k.svc) (sh / 2 ^ 48) (frameBase w) d.bytes)
      else if s.reading who then none
      else
        let s1 := (s.dropLines (frameBase w / 32) (d.bytes / 32)).copyFrame (sh / 32) (frameBase w / 32) (d.bytes / 32)
        some ((s1.moveFrame k.svc h.tid d h.idx (withFrame w (frameBase w) 0)).freeShadow k d h)
  | _, _ => none

/-- The first shadow of a task whose publication can make a step. Log entry 60, DEDUCED. -/
def State.publish (s : State) (k : Task) : List Held → Option State
  | [] => none
  | h :: r => match (if h.shadow.isSome then s.publish1 k h else none) with
    | some s1 => some s1
    | none => State.publish s k r

/-! ### Tagged escrow -/

/-- An entry without its tag. -/
def Esc.untag (e : Esc) : Esc := { e with tag := 0 }

/-- Some die's store holds an entry with a tag. -/
def State.hasTag (s : State) (tag : Nat) : Bool := s.dies.any (fun p => p.2.esc.any (fun e => e.2.tag == tag))

/-- Every entry of a task is untagged; the fetch of a drawer tile whose log now exceeds its limit is forced (12 R311). -/
def State.untagAll (s : State) (k : Task) : State :=
  let tag := escTag k.id
  let s1 := { s with dies := s.dies.map (fun p => (p.1, { p.2 with esc := p.2.esc.map (fun e => (e.1, if e.2.tag = tag then e.2.untag else e.2)) })) }
  k.held.foldl (fun z h => match z.desc? k.svc h.tid with
    | none => z
    | some d =>
      let n := ((z.logOf d h.idx).2.filter (fun e => e.2.tag == 0)).length
      let inDrawer := match resid? h.frame true with
        | some .drawer | some .departing => true
        | _ => false
      if inDrawer && decide ((z.svc k.svc).escLimit < n) then z.askFetch k.svc h.tid h.idx else z) s1

/-- The batch of a clearing is still being applied: a resident tile of the task holds an untagged entry (12 R311). -/
def State.batching (s : State) (k : Task) : Bool :=
  k.held.any (fun h => match s.desc? k.svc h.tid with
    | none => false
    | some d => s.untagged d h.idx && (match resid? h.frame true with
      | some .resident => true
      | _ => false))

/-- Every entry of a task is unlinked and freed, and its tagged appends no longer wait (12 R311). -/
def State.freeTagged (s : State) (k : Task) : State :=
  let tag := escTag k.id
  let s1 := s.dies.foldl (fun z p => (p.2.esc.filter (fun e => e.2.tag == tag)).foldl (fun y e => match y.desc? e.2.svc e.2.tid with
    | some d => y.freeEntry d p.1 e.1
    | none => y.modDie p.1 (fun x => { x with esc := x.esc.del e.1 })) z) s
  { s1 with dies := s1.dies.map (fun p => (p.1, { p.2 with defer := p.2.defer.filter (fun q => !(q.task == k.id && q.tag ≠ 0)) })) }

/-! ### Clearing -/

/-- Appends of a task that wait at a full store. -/
def State.deferring (s : State) (id : Nat) : Bool := s.dies.any (fun p => p.2.defer.any (fun q => q.task == id))

/-- CLEARING_COMPLETE (10 R265, 12 R301, R311): shadows are published one by one, then the entries lose their tags and those of
resident tiles are applied; when every put of the clearing has entered its pool, the task is released. -/
def execClearingComplete (s : State) : Out :=
  match s.cur.ev with
  | some (.clearingComplete id) =>
    (match s.task? id with
    | none => .next s.stall
    | some k =>
      if k.st ≠ .clearing || s.deferring id then .next s.stall
      else match s.publish k k.held with
        | some s1 => .next s1
        | none =>
          if k.held.any (·.shadow.isSome) then .next s.stall
          else if s.hasTag (escTag id) then .next (s.untagAll k)
          else if s.batching k || s.hwPuts.any (fun h => h.task == id) then .next s.stall
          else .next (s.releaseTask id))
  | _ => .fault .noEvent

end Sys2Proof.Machine
end

