-- ==== Sys2Proof/Machine/Gang.lean ====
section
/-!
DEFINITION. The placers (01 R18, R23, 04 R97, 07 R178, 17 R437-R439, R442) and pre-emption (16 R416-R420, 17 R440-R442): GANG_START,
PREEMPT_GANG, GANG_SAVE_COMPLETE and GANG_RESTORE.
-/

namespace Sys2Proof.Machine

/-! ### Rectangles -/

/-- Width and height of the rectangle of a gang of `g` groups (01 R18): least area, then least width. -/
def rectangle (g : Nat) : Nat × Nat :=
  (((List.range 8).flatMap (fun w => (List.range 4).map (fun h => (w + 1, h + 1)))).filter (fun r => g ≤ r.1 * r.2)).foldl
    (fun b r => if r.1 * r.2 < b.1 * b.2 || (r.1 * r.2 = b.1 * b.2 && r.1 < b.1) then r else b) (8, 4)

/-- The cores of a gang of `g` groups at each corner of a die: group j at column x0 + j / h, row y0 + j mod h (01 R13, R18). -/
def rectangles (die g : Nat) : List (List Nat) :=
  let r := rectangle g
  (List.range (9 - r.1)).flatMap (fun x0 => (List.range (5 - r.2)).map (fun y0 =>
    (List.range g).map (fun j => 32 * die + 4 * (x0 + j / r.2) + y0 + j % r.2)))

/-! ### Room on a core -/

/-- The lowest base at which `n` of `total` units are free (07 R178). -/
def freeRun (total n : Nat) (used : List (Nat × Nat)) : Option Nat :=
  (List.range (total + 1)).find? (fun b => b + n ≤ total && used.all (fun u => b + n ≤ u.1 || u.1 + u.2 ≤ b))

/-- Groups that stand on a core, those of some tasks apart. -/
def State.groupsOn (s : State) (c : Nat) (but : List Nat) : List Group :=
  s.groups.filter (fun g => g.c == c && !but.contains g.task)

/-- Free slots of a core, ascending. -/
def State.freeSlots (s : State) (c : Nat) (but : List Nat) : List Nat :=
  (List.range 8).filter (fun t => !s.threads.any (fun th => th.c == c && th.t == t && !but.contains th.task))

/-- The bases that a group of a record would receive on a core (07 R178): window unit and tile-entry unit. -/
def State.bases (s : State) (h : List Word) (c : Nat) (but : List Nat) : Option (Nat × Nat) :=
  let gs := s.groupsOn c but
  (freeRun 32 (winOf h) (gs.map (fun g => (g.base, g.size)))).bind (fun b =>
    (freeRun 32 (tentOf h) (gs.map (fun g => (g.tbase, g.tcnt)))).map (fun t => (b, t)))

/-- A core is reserved for another task (17 R437). -/
def State.reserved (s : State) (id c : Nat) : Bool :=
  s.tasks.any (fun k => k.id ≠ id && k.st == .reserved && k.cores.contains c)

/-- A core has room for a group of a task (04 R97), if the gangs of `but` were gone. -/
def State.roomAt (s : State) (k : Task) (but : List Nat) (c : Nat) : Bool :=
  !s.reserved k.id c && decide (thrOf k.hdr ≤ (s.freeSlots c but).length) && (s.bases k.hdr c but).isSome

/-! ### Order of the placers -/

/-- The dies to which a task is offered, in order (01 R23, 17 R437). -/
def State.dieOrder (s : State) (k : Task) : List Nat :=
  let w2 := 2 ^ widthOf k.hdr 2
  let first := match s.tasks.find? (fun u => u.launch == k.launch && u.id ≠ k.id && u.gang / w2 == k.gang / w2 && u.st == .running) with
    | some u => u.die
    | none => match k.ranges.head?.bind (fun r => s.desc? k.svc r.tid) with
      | some d => if d.home < 8 then d.home else k.gang % 8
      | none => k.gang % 8
  (List.range 8).map (fun i => (first + i) % 8)

/-- A gang is held back by a lower gang of its launch that is saved (17 R442). -/
def State.heldBack (s : State) (k : Task) : Bool := s.tasks.any (fun u => u.launch == k.launch && decide (u.id < k.id) && u.saved.isSome)

/-- A task offered to the placers: mapped, or saved, and not held back (17 R437, R442). -/
def State.offered (s : State) (k : Task) : Bool := k.doom = 0 && (k.st == .saved || (k.st == .mapped && !s.heldBack k))

/-- A task stands before another by class and by being saved (17 R437). -/
def Task.above (a b : Task) : Bool :=
  decide (b.cls < a.cls) || (a.cls = b.cls && a.st == .saved && b.st == .mapped)

/-- The rectangles of a die with room for a task, those apart that hold a core for which a task that stands before it waits.
Log entry 55, DEDUCED. -/
def State.corners (s : State) (k : Task) (waiting : List Task) (die : Nat) : List (List Nat) :=
  (rectangles die (grpOf k.hdr)).filter (fun cs => cs.all (fun c => s.roomAt k [] c && !waiting.any (fun u => s.roomAt u [] c)))

/-- The first die with a rectangle for a task, and the rectangles (17 R437). -/
def State.fit (s : State) (k : Task) (waiting : List Task) : Option (Nat × List (List Nat)) :=
  (s.dieOrder k).findSome? (fun die => match s.corners k waiting die with
    | [] => none
    | l => some (die, l))

/-- Of tasks of one service and rank, in order of acceptance: the first that fits, and those before it that wait. -/
def State.firstFit (s : State) (waiting : List Task) : List Task → Option (Task × Nat × List (List Nat)) × List Task
  | [] => (none, waiting)
  | k :: r => match s.fit k waiting with
    | some p => (some (k, p.1, p.2), waiting)
    | none => State.firstFit s (waiting ++ [k]) r

/-- Weight of a service in placement (17 R438). -/
def State.placeWeight (s : State) (n : Nat) : Nat := max 1 (fld (s.reg (.svcWt n)) 3 0)

/-- Placement allowance of a service in a class on a die (17 R438): before the first reload that of `svc.wt` at reset. -/
def State.placeAllow (s : State) (die cls n : Nat) : Nat := (s.die die).place.get 1 (64 * cls + n)

/-- Removes from a list the tasks of the rank of its first one. -/
def sameRank (k : Task) (l : List Task) : List Task := l.filter (fun u => u.cls = k.cls && u.st == k.st)

/-- A task of the highest rank in a list. -/
def topTask : List Task → Option Task
  | [] => none
  | k :: r => some (r.foldl (fun b u => if u.above b then u else b) k)

/-- What the placers do next (17 R437, R438): the task, its die and rectangles, and the services of its class that wait there. `n` bounds
the ranks. -/
def State.choose (s : State) (waiting : List Task) : Nat → List Task → Option (Task × Nat × List (List Nat))
  | 0, _ => none
  | n + 1, l =>
    match topTask l with
    | none => none
    | some k =>
      let rank := sameRank k l
      let svcs := (rank.map (·.svc)).eraseDups
      let fits := svcs.map (fun v => s.firstFit waiting (rank.filter (fun u => u.svc = v)))
      let every := (((waiting ++ l).filter (fun u => u.cls = k.cls)).map (·.svc)).eraseDups
      let allow (p : Task × Nat × List (List Nat)) : Nat :=
        if every.all (fun v => s.placeAllow p.2.1 k.cls v = 0) then s.placeWeight p.1.svc else s.placeAllow p.2.1 k.cls p.1.svc
      match fits.filterMap (·.1) with
      | p :: r => some (r.foldl (fun b q =>
          if allow b < allow q || (allow b = allow q && q.1.svc < b.1.svc) then q else b) p)
      | [] => State.choose s (waiting ++ rank) n (l.filter (fun u => !rank.contains u))

/-- The next placement of the package. -/
def State.nextPlace (s : State) : Option (Task × Nat × List (List Nat)) :=
  let l := s.tasks.filter s.offered
  s.choose [] l.length l

/-- The allowances of a die after a placement: all of the class reload when every service of it that waits stands at zero (17 R438). -/
def State.spendPlace (s : State) (k : Task) (die : Nat) : State :=
  let svcs := ((s.tasks.filter (fun u => s.offered u && u.cls = k.cls)).map (·.svc)).eraseDups
  let s1 := if svcs.all (fun v => s.placeAllow die k.cls v = 0) then
      s.modDie die (fun d => { d with place := (List.range 64).foldl (fun p v => p.set (64 * k.cls + v) (s.placeWeight v)) d.place })
    else s
  s1.modDie die (fun d => { d with place := d.place.set (64 * k.cls + k.svc) (s1.placeAllow die k.cls k.svc - 1) })

/-! ### Reservation -/

/-- A task that holds a reservation. -/
def Task.reserve (k : Task) (die : Nat) (cores : List Nat) (leave : Bool) : Task :=
  { k with st := .reserved, die := die, cores := cores, leaseOk := 0, leaveOk := leave }

/-- A request of the scheduler at a teller: behind the others for a start, ahead of them for a resume (14 R356); with 64 queued it waits to
enter (14 R351). -/
def State.askTeller (s : State) (die q : Nat) (r : TReq) (ahead : Bool) : State :=
  s.modDie die (fun x =>
    if ahead then
      (if (x.tq.get [] q).length < 64 then { x with tq := x.tq.set q (r :: x.tq.get [] q) }
       else { x with enter := x.enter.set q ((x.enter.get [] q).takeWhile (·.ahead) ++ [r] ++ (x.enter.get [] q).dropWhile (·.ahead)) })
    else if (x.tq.get [] q).length < 64 && (x.enter.get [] q).isEmpty then { x with tq := x.tq.set q (x.tq.get [] q ++ [r]) }
    else { x with enter := x.enter.set q (x.enter.get [] q ++ [r]) })

/-- The scheduler's request for the leave of a start (18 Table 18.1). -/
def State.askStart (s : State) (die : Nat) (k : Task) : State :=
  let r : LeaveReq := { id := s.nextLeave, cost := fld (k.h 9) 31 0, dur := 64, mhz := 0, current := false, since := s.now,
                        who := .start k.id, c := 0, t := 0, short := none, noticed := false }
  { (s.modDie die (fun d => { d with leaveQ := d.leaveQ.set k.svc (d.leaveQ.get [] k.svc ++ [r]) })).modTask k.id (fun y =>
      { y with leave := s.nextLeave }) with nextLeave := s.nextLeave + 1 }

/-- A placer reserves a rectangle, and asks the teller and leave (17 R437, 14 R356). Log entry 36, DESIGN CHOICE. -/
def State.reserve (s : State) (k : Task) (die : Nat) (cores : List Nat) : State :=
  let s1 := (s.spendPlace k die).modTask k.id (·.reserve die cores k.saved.isSome)
  match k.saved with
  | some v =>
    (v.groups.filter (fun x => x.g.mask ≠ 0)).foldl (fun z x =>
      z.askTeller die x.g.lq.toNat { task := k.id, group := x.g.j, shape := x.g.shape.toNat, start := true, t := 0, ahead := true } true)
      (s1.modTask k.id (fun y => { y with saved := y.saved.map (fun v => { v with again := [] }) }))
  | none =>
    let s2 := if bit (k.h 0) 11 then
        s1.askTeller die (fld (k.h 0) 15 14) { task := k.id, group := 0, shape := fld (k.h 0) 13 12, start := true, t := 0 } false
      else s1
    s2.askStart die k

/-! ### The start of a gang -/

/-- A thread at its start (04 R99, 16 R425), in slot 0 of core 0. Log entry 73, DESIGN CHOICE. -/
def Thread.blank : Thread :=
  { c := 0, t := 0, task := 1, group := 0, svc := 0, wid := 0, widw := 0, pc := 0, lpre := none, seq := 0,
    f := { s := [], a := [], k := [], v := [], m := [] },
    q := { lq0 := [], lq1 := [], sq := [], vaq := [], svq := [], vsq := [], saq := [], asq := [] },
    loops := [], xq := [], aq := [], hist := [], land := [], tick := 0,
    trap := { level := 0, r1 := { cause := 0, orig := (0, 0, 0), epc := 0, val := 0, stat := 0 },
              r2 := { cause := 0, orig := (0, 0, 0), epc := 0, val := 0, stat := 0 }, vec1 := 0, vec2 := 0,
              bank1 := Bank.empty, bank2 := Bank.empty },
    csr := { frm := 0, fflags := 0, srnd := 0x9E3779B97F4A7C15, waitLimit := 0, cerr := 0, spawnDepth := 0,
             spawnMax := 0, ntf := 0, paceV := 0, paceA := 0, paceM := 0, paceC := 0, leave := 0, trc := 0, trcLost := 0,
             lost9 := 0, corr := 0, wpt := [], recd := 0 },
    race := { en := false, cmpl := true, rcnt := 0, acq := [], seen := [], exempt := none },
    issue := { lastF := 0, lastV := 0, lastA := 0, paced := (0, 0), sleepEnd := none, waitF := none, waitV := none, waitA := none,
               stopped := false, stopReq := 0, stopSeq := 0, lext := none, vwait := false, far := none, fet := none, sent := none, woke := none,
               relAt := none, drw := none, inp := none, got := none, once := 0,
               group := false, drain := false, runOn := false, refused := none },
    own := 0, inh := [], regs := [], remote := [], arrived := [], msel := 0, lmode := 0, nests := [], inl := [] }

/-- `srnd` at a thread's start (03 R78). -/
def srndStart (wid : Word) : Word :=
  let v := wid ^^^ 0x9E3779B97F4A7C15
  if v = 0 then 1 else v

/-- Thread `i` of group `j` of a gang at its start (01 R21, R27; 04 R108, 17 R439). -/
def Task.thread (k : Task) (ceiling j i c t : Nat) : Thread :=
  let w0 := widthOf k.hdr 0
  let w1 := widthOf k.hdr 1
  let b := Thread.blank
  let wid := wd (i + j * 2 ^ w0 + k.gang * 2 ^ (w0 + w1))
  { b with
    c := c, t := t, task := k.id, group := j, svc := k.svc
    wid := wid, widw := wd (fld (k.h 1) 35 0), pc := wd (entryOf k.hdr)
    f := { b.f with s := (List.range 6).map (fun n => (n + 1, k.h (10 + n))) }
    trap := { b.trap with vec1 := k.h 6 &&& ~~~3#64, vec2 := k.h 7 &&& ~~~3#64 }
    csr := { b.csr with srnd := srndStart wid, waitLimit := (k.h 8).setWidth 32, corr := BitVec.ofNat 32 (fld (k.h 0) 63 32) }
    race := { b.race with en := bit (k.h 0) 17 }
    own := min ceiling k.cls }

/-- A group at its start. -/
def Task.group (k : Task) (j c base tbase : Nat) : Group :=
  { task := k.id, j := j, c := c, base := base, size := winOf k.hdr, tbase := tbase, tcnt := tentOf k.hdr, live := thrOf k.hdr, lease := 0,
    mask := 0, shape := 0, lq := 0, mode := 0, flt := 0, lost := 0, pend := false, mferr := 0, rxw := 0, ended := false }

/-- A window is cleared: bytes zero, tags empty, no mark, no object set, no tile registered (07 R180, 08 R208). -/
def State.freshWindow (s : State) (g : Group) : State :=
  let lo := 65536 * g.base
  let s1 := s.modCore g.c (fun k => { k with
    sp := k.sp.clear lo g.bytes
    tags := k.tags.filter (fun o => !(decide (lo ≤ o) && decide (o < lo + g.bytes)))
    bars := k.bars.filter (fun p => !g.ownsObj p.1)
    tiles := k.tiles.filter (fun p => !(decide (8 * g.tbase ≤ p.1) && decide (p.1 < 8 * (g.tbase + g.tcnt)))) })
  { s1 with spPoison := s1.spPoison.filter (fun p =>
      !(decide (2 ^ 21 * g.c + lo ≤ p) && decide (p < 2 ^ 21 * g.c + lo + g.bytes))) }

/-- An object set up for a count at a group's start (08 R206). -/
def Bar.ofCount (n : Nat) : Bar := { Bar.init with reload := n, pend := n }

/-- One group of a gang starts on a core (17 R439); none where the core has no room. -/
def State.startGroup (s : State) (k : Task) (t : KTab) (j c : Nat) : Option State :=
  match s.bases k.hdr c [] with
  | none => none
  | some (b, tb) =>
    let slots := s.freeSlots c []
    if slots.length < thrOf k.hdr then none
    else
      let g := k.group j c b tb
      let s1 := (s.freshWindow g).modCore c (fun z => { z with
        bars := t.bars.foldl (fun m p => m.set (32 * b + p.1) (Bar.ofCount p.2)) z.bars
        tiles := t.tiles.foldl (fun m p => m.set (8 * tb + p.1) p.2) z.tiles })
      let ths := ((slots.take (thrOf k.hdr)).zipIdx).map (fun p => k.thread (s.ceiling k.svc) j p.2 c p.1)
      some { s1 with groups := s1.groups ++ [g], threads := s1.threads ++ ths }

/-- The groups of a gang start, from group `j` on. -/
def State.startGroups (s : State) (k : Task) (t : KTab) : Nat → List Nat → Option State
  | _, [] => some s
  | j, c :: r => (s.startGroup k t j c).bind (fun s1 => State.startGroups s1 k t (j + 1) r)

/-- A gang tag that no stamp, kept table or other gang carries (09 R247). Log entry 56, DESIGN CHOICE. -/
def State.freshTag (s : State) : Option Nat :=
  (List.range 4096).find? (fun t => t ≠ 0 && !s.stamps.any (fun p => p.2.tag == t) && !s.keptMem.any (fun p => p.2.tag == t) &&
    !s.cores.any (fun p => p.2.kept.any (fun q => q.2.tag == t) || p.2.l1.any (fun q => q.2.stamp.any (·.tag == t))) &&
    !s.storeQ.any (fun q => q.rel.any (·.kept.tag == t)) && !s.homeQ.any (fun q => q.rel.any (·.kept.tag == t)) &&
    !s.drops.any (fun x => x.leaves.any (·.1 == t)) &&
    !s.tasks.any (fun k => k.tag == t))

/-- A task runs. -/
def Task.run_ (k : Task) (tag : Nat) : Task := { k with st := .running, tag := tag, saved := none }

/-- The gang of a reserved task starts, once its lease and its leave are granted (17 R437). -/
def State.startGang (s : State) (k : Task) : Option State :=
  if !k.leaveOk || (bit (k.h 0) 11 && k.leaseOk = 0) then none
  else match s.ktab k.svc k.hdr, (if k.raced then s.freshTag else some 0) with
    | some (some t), some tag =>
      (s.startGroups k t 0 k.cores).map (fun s1 =>
        let l := maskStrips k.leaseOk
        let s2 := match l with
          | [] => s1
          | n :: _ => s1.giveLease k.id 0 (s1.strip k.die n).lease (fld (k.h 0) 13 12) (fld (k.h 0) 15 14) l
        s2.modTask k.id (·.run_ tag))
    | _, _ => none

/-- The placers reserve a rectangle for a task, if it is what they do next. -/
def State.tryReserve (s : State) (k : Task) : Out :=
  match s.nextPlace with
  | some (u, die, l) =>
    if u.id ≠ k.id then .next s.stall
    else .next (s.reserve k die (l.getD (Config.corner s.freeCount % l.length) [])).bump
  | none => .next s.stall

/-- GANG_START (17 R437-R439, 01 R23, R24): the placers reserve a rectangle for the task, and its gang starts once what it asked for has
been granted. -/
def execGangStart (s : State) : Out :=
  match s.cur.ev with
  | some (.gangStart id) =>
    (match s.task? id with
    | none => .next s.stall
    | some k =>
      if k.doom ≠ 0 then .next s.stall
      else if k.st = .reserved && k.saved.isNone then
        if s.heldBack k then .next s.stall
        else (match s.startGang k with
        | some s1 => .next s1
        | none => .next s.stall)
      else if k.st = .mapped then s.tryReserve k
      else .next s.stall)
  | _ => .fault .noEvent

/-! ### Choosing what to pre-empt -/

/-- How costly a gang is to pre-empt for a task (17 R440): by class, then lower acceptance number, then lower service number. For a saved gang
those of its own launch go by index, whatever their class, before all others (17 R442). Log entry 86, DEDUCED. -/
def Task.cost (u k : Task) : Nat :=
  (if k.st == .saved && u.launch == k.launch then 0 else u.cls + 1) * 2 ^ 38 + (2 ^ 32 - 1 - u.seq.toNat) * 64 + (63 - u.svc)

/-- Puts a gang in its place among those that a task may pre-empt, the costliest first. -/
def byCost (k u : Task) : List Task → List Task
  | [] => [u]
  | x :: r => if x.cost k ≤ u.cost k then u :: x :: r else x :: byCost k u r

/-- The sublists of a list with `n` members. -/
def choices {α : Type} : Nat → List α → List (List α)
  | 0, _ => [[]]
  | _ + 1, [] => []
  | n + 1, x :: r => (choices n r).map (x :: ·) ++ choices (n + 1) r

/-- MiB that the save of a gang takes (17 R441). -/
def Task.saveMib (k : Task) : Nat := (grpOf k.hdr * winOf k.hdr + 15) / 16 + 1

/-- Free save slots of a service's pool (17 R441). -/
def State.freeSaves (s : State) (n : Nat) : Nat :=
  let r := s.reg (.svcSave n)
  if fld r 15 8 = 0 then 0 else fld r 7 0 - (s.svc n).saves.length

/-- A set of gangs can be saved: a free slot, large enough, for each (17 R440, R441). -/
def State.savable (s : State) (l : List Task) : Bool :=
  l.all (fun k => decide (k.saveMib ≤ fld (s.reg (.svcSave k.svc)) 15 8) &&
    decide ((l.filter (fun u => u.svc = k.svc)).length ≤ s.freeSaves k.svc))

/-- The gangs that a task may pre-empt, the costliest first (17 R440, R442). -/
def State.victims (s : State) (k : Task) : List Task :=
  (s.tasks.filter (fun u => u.st == .running && u.doom = 0 &&
    (decide (u.cls < k.cls) || (k.st == .saved && u.launch == k.launch && decide (k.id < u.id))))).foldl (fun l u => byCost k u l) []

/-- Some rectangle has room for a task when gangs are gone. -/
def State.frees (s : State) (k : Task) (l : List Task) : Bool :=
  (List.range 8).any (fun die => (rectangles die (grpOf k.hdr)).any (fun cs => cs.all (s.roomAt k (l.map (·.id)))))

/-- One list of gangs costs a task less than another, gang by gang. -/
def costLess (k : Task) : List Task → List Task → Bool
  | a :: r, b :: t => a.cost k < b.cost k || (a.cost k = b.cost k && costLess k r t)
  | _, _ => false

/-- The set of least size, and of those the least costly, that frees a rectangle (17 R440): sets of `n` to `n + m` gangs are tried. -/
def State.victimSet (s : State) (k : Task) (l : List Task) : Nat → Nat → Option (List Task)
  | _, 0 => none
  | n, m + 1 =>
    match (choices n l).filter (fun x => s.savable x && s.frees k x) with
    | x :: r => some (r.foldl (fun b y => if costLess k y b then y else b) x)
    | [] => State.victimSet s k l (n + 1) m

/-- A gang begins to be saved, in a slot of its service (16 R416). -/
def Task.toSaving (k : Task) (now : Nat) : Task := { k with st := .saving, saved := some { Saved.empty with begun := now } }

/-- The number of a thread's pre-emption point: its oldest access word, else the front position (16 R417). -/
def Thread.point (th : Thread) : Nat :=
  match th.aq with
  | e :: _ => e.seq
  | [] => th.seq

/-- The access words of a thread that is pre-empted at its front position run on, but for one in a blocking wait (16 R417); so does one
whose wait has ended. -/
def Thread.goesOn (th : Thread) : Bool := !th.aq.isEmpty && (th.issue.woke.isSome || th.issue.runOn && th.issue.waitA.isNone)

/-- A gang begins to be saved (16 R416, R417): the requests of its waiting fronts are withdrawn (14 R367, 18 R454), and where a thread's
oldest access word is past its last trap point, the front position is its point. -/
def State.beginSave (s : State) (k : Task) : State :=
  let ths := s.threads.filter (fun th => th.task == k.id)
  let s1 := ths.foldl (fun z th => (z.withdraw th).modThread th.c th.t (fun x =>
    { x with issue := { x.issue with runOn := s.headPast th } })) s
  (s1.modTask k.id (·.toSaving s.now)).modSvc k.svc (fun x => { x with saves := x.saves ++ [k.id] })

/-- What a task asks the placers to pre-empt: the gangs of least number and cost that make room for it, where it finds none (17 R440). -/
def State.wants (s : State) (k : Task) : Option (List Task) :=
  if !s.offered k || (s.fit k []).isSome then none
  else
    let v := s.victims k
    s.victimSet k v 1 v.length

/-- The tasks that asked during a save and still ask, in the order of their requests (16 R419). -/
def State.askers (s : State) : List Nat := s.preQ.filter (fun i => ((s.task? i).bind s.wants).isSome)

/-- PREEMPT_GANG (17 R440, R442): the gangs that make room for a waiting task are to be saved. A request that arrives during a save waits for
it to complete, and is then served before any other (16 R419). -/
def execPreemptGang (s : State) : Out :=
  match s.cur.ev with
  | some (.preemptGang id) =>
    (match s.task? id with
    | none => .next s.stall
    | some k =>
      match s.wants k with
      | none => .next s.stall
      | some l =>
        if s.tasks.any (fun u => u.st == .saving) then
          .next (if s.preQ.contains id then s.stall else { s with preQ := s.askers ++ [id] })
        else match s.askers with
          | [] => .next (l.foldl State.beginSave s)
          | i :: r => if i ≠ id then .next s.stall else .next (l.foldl State.beginSave { s with preQ := r }))
  | _ => .fault .noEvent

/-! ### Saving -/

/-- A thread of a gang that is to be saved stands at its point (16 R417): no reply to it is outstanding, what it has posted has been
performed, and every older word has settled (16 R407 steps 1 and 2). -/
def State.atPoint (s : State) (th : Thread) : Bool :=
  th.issue.lext.isNone && th.issue.got.isNone && !th.undelivered && !s.posted th 5 && !s.headPast th && !th.goesOn &&
    th.settled th.point

/-- The count of a wait with the time that the thread spends pre-empted, from the cycle at which it stopped, left out (08 R222): as an elapsed
time while it is saved. -/
def Wait.frozen (w : Option Wait) (now : Nat) : Option Wait := w.map (fun x => { x with since := now - x.since })
def Wait.thawed (w : Option Wait) (now : Nat) : Option Wait := w.map (fun x => { x with since := now - x.since })

/-- A thread, stopped at its point: an incomplete access word, else the front position (16 R417). The waits that go on after the
pre-emption keep their counts (08 R222): of the word at the point, and of the head V word. `now` is the cycle at which the thread stopped. -/
def Thread.park (th : Thread) (now : Nat) : Thread :=
  let x := match th.aq with
    | e :: _ => th.backTo e
    | [] => th
  { x with
    lpre := none
    issue := { x.issue.afresh with
      vwait := x.issue.vwait, refused := th.issue.refused, sleepEnd := x.issue.sleepEnd.map (· - now)
      waitF := if th.aq.isEmpty then Wait.frozen th.issue.waitF now else none
      waitV := Wait.frozen th.issue.waitV now, waitA := Wait.frozen th.issue.waitA now } }

/-- The queued words of a thread that are older than its point. -/
def Thread.keeps (th : Thread) (e : QEntry) : Bool :=
  match th.aq with
  | a :: _ => !e.ofThread th || older e.seq a.seq
  | [] => true

/-- What a thread waits for is given up (16 R417, 18 R451). -/
def State.letGo (s : State) (th : Thread) : State :=
  let s1 := (s.withdraw th).leaveAll th.c th.t
  { s1 with
    mesh := s1.mesh.filter (fun m => !(m.c == th.c && m.t == th.t))
    fab := s1.fab.filter (fun f => f.who ≠ .thread th.c th.t) }

/-- Every command, fragment and fill of a gang has ended, so that its save may be made (16 R418, 14 R363), and its threads stand at their
points; those of a gang that has consumed a mark meanwhile stand where they are (19 Table 19.3). -/
def State.settledGang (s : State) (k : Task) : Bool :=
  let gs := s.groups.filter (fun g => g.task == k.id)
  gs.all (fun g => (s.core g.c).chans.all (fun p => match p.2.run with
    | some r => r.e.task ≠ k.id
    | none => true)) &&
  (s.die k.die).strips.all (fun p => !(p.2.task == k.id && p.2.st ≠ .free)) &&
  (k.doom = 2 || (s.threads.filter (fun th => th.task == k.id)).all s.atPoint)

/-- The save of one group (16 R418). -/
def State.saveGroup (s : State) (g : Group) : SavedGroup :=
  let lo := 65536 * g.base
  let z := s.core g.c
  { g := g
    sp := z.sp.slice lo g.bytes
    tags := (z.tags.filter (fun o => decide (lo ≤ o) && decide (o < lo + g.bytes))).map (· - lo)
    marks := (s.spPoison.filter (fun p => decide (2 ^ 21 * g.c + lo ≤ p) && decide (p < 2 ^ 21 * g.c + lo + g.bytes))).map
      (· - (2 ^ 21 * g.c + lo))
    bars := (z.bars.filter (fun p => g.ownsObj p.1)).map (fun p => (p.1 - 32 * g.base, p.2))
    tiles := (s.tilesOf g).map (fun p => (p.1 - 8 * g.tbase, p.2)) }

/-- Queued C words of a gang on the channels of a core. -/
def State.chanWords (s : State) (k : Task) (g : Group) : List (Nat × Nat × QEntry) :=
  (List.range 4).flatMap (fun ch => ((s.chan g.c ch).q.filter (fun e => e.task == k.id)).map (fun e => (g.j, ch, e)))

/-- A strip whose queue keeps the words that some threads keep. -/
def Strip.keep (x : Strip) (ths : List Thread) : Strip := { x with q := x.q.filter (fun e => ths.all (·.keeps e)) }

/-- The C words of a gang leave a core, and its window is free (16 R416, R419). Log entry 58, DEDUCED. -/
def State.leaveCore (s : State) (k : Task) (g : Group) : State :=
  let gone (x : Chan) : Bool := (x.q.head?.map (fun e => e.task == k.id)).getD false
  let ids := ((s.core g.c).chans.filter (fun p => gone p.2)).map (fun p => p.2.leave)
  let s1 := ids.foldl (fun z i => z.dropLeave (dieOf g.c) i) s
  (s1.modCore g.c (fun z => { z with
    kept := z.kept.filter (fun p => p.2.tag ≠ k.tag), chans := z.chans.map (fun p =>
      let q := p.2.q.filter (fun e => e.task ≠ k.id)
      (p.1, if gone p.2 then { p.2 with q := q, leave := 0, granted := false } else { p.2 with q := q })) })).freshWindow g

/-- A record of a pre-emption or a restore of a thread (21 Table 21.1). -/
def State.preTrace (s : State) (th : Thread) (what : Nat) : State :=
  if th.traces 5 then s.trace th.c th.t 8 th.seq th.csr.corr what th.wid (wd (s.here th)) else s

/-- The splitter's record of the mode of a group's lease, among threads before and after a roll back: that of one that has been rolled back
past a change of it, else the one that they share (15 R372). -/
def groupMode (l : List (Thread × Thread)) (j : Nat) : Nat :=
  let own := l.filter (fun p => p.2.group = j)
  match own.find? (fun p => p.1.lmode ≠ p.2.lmode) with
  | some p => p.2.lmode
  | none => (own.head?.map (·.2.lmode)).getD 0

/-- A gang's save is complete (16 R418, R419): its threads and groups leave their cores. -/
def State.saveGang (s : State) (k : Task) : State :=
  let ths := s.threads.filter (fun th => th.task == k.id)
  let s0 := ths.foldl (fun z th => z.preTrace th 0) s
  let z := ths.foldl (fun z th => z.letGo th) s0
  let s1 := if k.raced then z.incomplete k.tag else z
  let gs := s1.groups.filter (fun g => g.task == k.id)
  let v := (s.task? k.id).bind (·.saved)
  let begun := (v.map (·.begun)).getD s.now
  let parked := (s1.threads.filter (fun th => th.task == k.id)).map (fun th => th.park begun)
  let modes := ths.zip parked
  let save : Saved :=
    { threads := parked.map (fun th => { th with lmode := groupMode modes th.group }), groups := gs.map s1.saveGroup
      strips := ((v.map (·.strips)).getD []).map (fun p => (p.1, p.2.map (·.keep ths)))
      chans := (gs.flatMap (s1.chanWords k)).filter (fun p => ths.all (·.keeps p.2.2)), again := [], begun := begun }
  let s2 := gs.foldl (fun z g => z.leaveCore k g) s1
  let s3 := { s2 with
    threads := s2.threads.filter (fun th => th.task ≠ k.id)
    groups := s2.groups.filter (fun g => g.task ≠ k.id) }
  s3.modTask k.id (fun y => { y with st := .saved, cores := [], saved := some save })

/-- GANG_SAVE_COMPLETE (16 R416-R419): a kill that reached the gang meanwhile takes effect. -/
def execGangSaveComplete (s : State) : Out :=
  match s.cur.ev with
  | some (.gangSaveComplete id) =>
    (match s.task? id with
    | none => .next s.stall
    | some k =>
      if k.st ≠ .saving || !s.settledGang k then .next s.stall
      else
        let cs := (s.groups.filter (fun g => g.task == id)).map (·.c)
        let s1 := cs.foldl (fun z c => z.releaseAt c 6 (s.svcVc k.svc)) s
        if cs.any s1.writingBack then .next s1.stall else .next (s1.saveGang k))
  | _ => .fault .noEvent

/-! ### Restoring -/

/-- Where the cores, bases, slots and leases of a gang were, and are. -/
structure Moved where
  groups : List (Group × Group)
  threads : List (Thread × Nat × Nat)
  leases : List (Nat × Nat)
  deriving DecidableEq, Repr

/-- A core and object after the move (08 R208). -/
def Moved.obj (m : Moved) (o : Nat × Nat) : Nat × Nat :=
  match m.groups.find? (fun p => p.1.c == o.1 && p.1.ownsObj o.2) with
  | some p => (p.2.c, o.2 - 32 * p.1.base + 32 * p.2.base)
  | none => o

/-- The key of an object after the move. -/
def Moved.key (m : Moved) (k : Nat) : Nat := obKey (m.obj (k / 1024, k % 1024))

/-- Core and slot of a thread after the move. -/
def Moved.slot (m : Moved) (c t : Nat) : Nat × Nat :=
  match m.threads.find? (fun p => p.1.c == c && p.1.t == t) with
  | some p => (p.2.1, p.2.2)
  | none => (c, t)

/-- A lease after the move. -/
def Moved.lease (m : Moved) (l : Nat) : Nat :=
  match m.leases.find? (fun p => p.1 == l) with
  | some p => p.2
  | none => l

/-- A queued word after the move. -/
def Moved.entry (m : Moved) (e : QEntry) : QEntry :=
  let p := m.slot e.c e.t
  { e with c := p.1, t := p.2, lease := if e.lease = 0 then 0 else m.lease e.lease }

/-- A set-aside bank after the move. -/
def Moved.bank (m : Moved) (b : Bank) : Bank := { b with vset := b.vset.map m.entry }

/-- A key and value after the move. -/
def Moved.keyed (m : Moved) (t : Tab Nat) : Tab Nat := t.foldl (fun x p => x.set (m.key p.1) p.2) []

/-- A thread after the move (16 R420). -/
def Moved.thread (m : Moved) (th : Thread) (now : Nat) : Thread :=
  let p := m.slot th.c th.t
  { th with
    c := p.1, t := p.2, xq := th.xq.map m.entry, aq := th.aq.map m.entry
    regs := th.regs.foldl (fun l o => insertUp (m.obj (th.c, o)).2 l) [], remote := th.remote.map m.key, inh := m.keyed th.inh
    arrived := m.keyed th.arrived
    trap := { th.trap with bank1 := m.bank th.trap.bank1, bank2 := m.bank th.trap.bank2 }
    issue := { th.issue with
      sleepEnd := th.issue.sleepEnd.map (· + now), waitF := Wait.thawed th.issue.waitF now, waitV := Wait.thawed th.issue.waitV now
      waitA := Wait.thawed th.issue.waitA now } }

/-- A strip after the move, held by a lease (14 R364). -/
def Moved.strip (m : Moved) (x : Strip) (id : Nat) : Strip :=
  { x with
    st := .held, lease := id, leave := 0, granted := false, q := x.q.map m.entry, body := x.body.map m.entry
    abody := x.abody.map m.entry, compl := x.compl.map m.obj
    run := x.run.map (fun r => { r with obj := r.obj.map m.obj, e := m.entry r.e }) }

/-- The new place of each saved group (07 R178); none where a core has no room. -/
def State.places (s : State) (k : Task) : List SavedGroup → Option (List (Group × Group))
  | [] => some []
  | x :: r =>
    let c := k.cores.getD x.g.j 0
    match s.bases k.hdr c [], State.places s k r with
    | some (b, t), some l => some ((x.g, { x.g with c := c, base := b, tbase := t }) :: l)
    | _, _ => none

/-- The strips of a lease on a die, in ascending order. -/
def State.stripsOf (s : State) (die id : Nat) : List Nat :=
  (List.range 8).filter (fun i => (s.strip die i).lease == id)

/-- A group with the strips of its new lease, in ascending order: faults are those of its strips (14 R364, R369). -/
def Group.withLease (g : Group) (id : Nat) (l : List Nat) : Group :=
  { g with lease := id, mask := stripMask l,
           flt := stripMask (((maskStrips g.mask).zip l).filterMap (fun p => if g.flt.getLsbD p.1 then some p.2 else none)) }

/-- The new slot of each thread: the lowest free slots of its group's core, in order. -/
def State.slotsFor (s : State) (ths : List Thread) (gs : List (Group × Group)) : List (Thread × Nat × Nat) :=
  gs.flatMap (fun p => ((ths.filter (fun th => th.group = p.1.j)).zip (s.freeSlots p.2.c [])).map (fun q => (q.1, p.2.c, q.2)))

/-- Puts a saved group back at its new place (16 R420). -/
def State.putGroup (s : State) (m : Moved) (x : SavedGroup) (g : Group) : State :=
  let lo := 65536 * g.base
  let s1 := ((s.freshWindow g).acquireAt g.c 6).modCore g.c (fun z => { z with
    sp := z.sp.blit lo x.sp
    tags := x.tags.foldl (fun l o => insertUp (lo + o) l) z.tags
    bars := x.bars.foldl (fun t p => t.set (32 * g.base + p.1) p.2) z.bars
    tiles := x.tiles.foldl (fun t p => t.set (8 * g.tbase + p.1) p.2) z.tiles })
  { s1 with
    spPoison := x.marks.foldl (fun l o => insertUp (2 ^ 21 * g.c + lo + o) l) s1.spPoison
    groups := s1.groups ++ [if g.mask = 0 then g else
      g.withLease (m.lease g.lease) (s1.stripsOf (dieOf g.c) (m.lease g.lease))] }

/-- The saved strips of a group go back onto those of its new lease, in ascending order (14 R364). -/
def State.putStrips (s : State) (m : Moved) (die id : Nat) (l : List Strip) : State :=
  ((s.stripsOf die id).zip l).foldl (fun z p => z.setStrip die p.1 (m.strip p.2 id)) s

/-- A waiting append follows its thread. -/
def Moved.append (m : Moved) (task : Nat) (d : Deferred) : Deferred :=
  if d.task = task then { d with c := (m.slot d.c d.t).1, t := (m.slot d.c d.t).2 } else d

/-- Writes a notice to the notification word of a thread, its tag set full (18 R456). -/
def State.noteTo (s : State) (th : Thread) (v : Word) : State :=
  match s.groupOf? th with
  | none => s
  | some g =>
    let o := g.phys (fld th.csr.ntf 20 0)
    (s.spPut th.c o 8 v.toNat).tagTo th.c o true

/-- The latest notice reaches a notification thread that is restored (18 R456). -/
def State.lateNote (s : State) (th : Thread) : State :=
  match bit th.csr.ntf 63, (s.svc th.svc).latest with
  | true, some v => (s.noteTo th v).modSvc th.svc (fun x => { x with latest := none })
  | _, _ => s

/-- The sectors that peers have sent for a saved group come to its inbound entry again, in order (20 R491). -/
def State.flushHeld (s : State) (g : Group) : State :=
  if bit g.rxw 63 then
    let m := fld g.rxw 51 40
    { s with
      agenda := s.agenda ++ (s.heldSectors.filter (fun x => x.m == m)).map (fun x => .cremSectorArrive x.m x.src x.off x.data true)
      heldSectors := s.heldSectors.filter (fun x => x.m ≠ m) }
  else s

/-- A saved gang is restored on the cores reserved for it, once its leases are granted again (16 R420, 14 R356, R364). -/
def State.restoreGang (s : State) (k : Task) (v : Saved) : Option State :=
  if (v.groups.any (fun x => x.g.mask ≠ 0 && (v.again.find x.g.j).isNone)) then none
  else match s.places k v.groups with
    | none => none
    | some gs =>
      let m : Moved :=
        { groups := gs, threads := s.slotsFor v.threads gs
          leases := v.groups.filterMap (fun x => if x.g.mask = 0 then none else (v.again.find x.g.j).map (fun i => (x.g.lease, i))) }
      if m.threads.length < v.threads.length then none
      else
        let s1 := (v.groups.zip gs).foldl (fun z p => z.putGroup m p.1 p.2.2) s
        let s2 := v.strips.foldl (fun z p => match v.again.find p.1 with
          | some id => z.putStrips m k.die id p.2
          | none => z) s1
        let s3 := v.chans.foldl (fun z p => match gs.find? (fun g => g.1.j == p.1) with
          | some g => z.modChan g.2.c p.2.1 (fun x => { x with q := x.q ++ [m.entry p.2.2] })
          | none => z) s2
        let ths := v.threads.map (fun th => m.thread th s.now)
        let s4 : State := { s3 with
          threads := s3.threads ++ ths
          dies := s3.dies.map (fun p => (p.1, { p.2 with defer := p.2.defer.map (m.append k.id) })) }
        let s5 := (s4.modTask k.id (fun y => y.run_ y.tag)).modSvc k.svc (fun x => { x with saves := x.saves.filter (· ≠ k.id) })
        let s6 := ths.foldl (fun z th => (z.preTrace th 1).lateNote th) s5
        some (v.groups.foldl (fun z x => z.flushHeld x.g) s6)

/-- GANG_RESTORE (16 R420, 17 R437): a rectangle is reserved for a saved gang, and it is restored there. -/
def execGangRestore (s : State) : Out :=
  match s.cur.ev with
  | some (.gangRestore id) =>
    (match s.task? id with
    | none => .next s.stall
    | some k =>
      match k.saved with
      | none => .next s.stall
      | some v =>
        if k.doom ≠ 0 then .next s.stall
        else if k.st = .saved then s.tryReserve k
        else if k.st ≠ .reserved then .next s.stall
        else match s.restoreGang k v with
          | some s1 => .next s1
          | none => .next s.stall)
  | _ => .fault .noEvent

end Sys2Proof.Machine
end

