-- ==== Sys2Proof/Machine/Discard.lean ====
section
/-!
DEFINITION. The discard of a task and the failure of its launch (16 R414, 17 R442, 19 R472-R475): TASK_DISCARD.
-/

namespace Sys2Proof.Machine

/-! ### Gangs that have not started -/

/-- A start's reservation is given up: its requests are withdrawn, and strips granted already return (17 R437, R442). -/
def State.cancelReserve (s : State) (k : Task) : State :=
  let keep (p : Nat × List TReq) : Nat × List TReq := (p.1, p.2.filter (fun r => !(r.start && r.task == k.id)))
  let s1 := s.modDie k.die (fun d => { d with tq := d.tq.map keep, enter := d.enter.map keep })
  let l := (List.range 8).filter (fun i => (s.strip k.die i).task == k.id && (s.strip k.die i).st == .held)
  let s2 := s1.modFrag k.die l (fun x => { x with st := .returning })
  if k.saved.isSome then s2 else s2.dropLeave k.die k.leave

/-- Shadows of a task are dropped (10 R265). -/
def State.dropShadows (s : State) (k : Task) : State :=
  k.held.foldl (fun z h => match z.desc? k.svc h.tid with
    | some d => z.freeShadow k d h
    | none => z) s

/-- A gang that has not started is released without running (17 R442). -/
def State.cancelTask (s : State) (k : Task) : State :=
  let s1 := if k.st == .reserved then s.cancelReserve k else s
  (s1.dropShadows k).releaseTask k.id

/-! ### The failure of a launch -/

/-- A launch fails: its status is written, gangs not started are released, and where it is aborted its others are discarded (10 R266, 17
R442). -/
def State.failLaunch (s : State) (id reason : Nat) (abort : Bool) : State :=
  let s1 := match s.launch? id with
    | some l => if l.status = 1 then s.closeLaunch l 4 reason else s
    | none => s
  (s1.tasks.filter (fun u => u.launch == id)).foldl (fun z u =>
    if !u.started then z.cancelTask u else if abort && u.doom = 0 then z.doomTask u.id 3 else z) s1

/-! ### Killing a gang -/

/-- Reason of the kill-log records of a task that ends before its time (16 R415). -/
def Task.killReason (k : Task) : Nat := if k.doom = 2 then 4 else 3

/-- What the record of a thread says of the level at which it runs (16 R415). -/
def Task.killTop (k : Task) (th : Thread) : BitVec 6 × Word × Word :=
  match k.culprit with
  | some (c, t, epc, val) => if k.doom = 2 && th.c = c && th.t = t then (0, epc, val) else (0, 0, 0)
  | none => (0, 0, 0)

/-- Every thread of a running gang is killed (16 R414). -/
def State.killGang (s : State) (k : Task) : State :=
  (s.threads.filter (fun th => th.task == k.id)).foldl (fun z th => z.kill th k.killReason (k.killTop th)) s

/-- The threads of a saved gang are recorded as killed; their reserves go back, its nests are settled, and its groups' bindings
end (16 R419, 18 R453, R454, 20 R490). -/
def State.killSaved (s : State) (k : Task) (v : Saved) : State :=
  let s0 := v.groups.foldl (fun z x => (z.unbind x.g).flushHeld x.g) s
  let s1 := v.threads.foldl (fun z th => (z.killLog th k.killReason (k.killTop th)).credit th.svc th.csr.leave.toNat) s0
  let runs := v.strips.flatMap (fun p => p.2.filterMap (·.run))
  let s2 := runs.foldl (fun z r => z.settle k.die r.leaveId) s1
  ((s2.settle k.die k.leave).modTask k.id (fun y => { y with saved := none, st := .discarding, leave := 0 })).modSvc k.svc (fun x =>
    { x with saves := x.saves.filter (· ≠ k.id), latest := if v.threads.any (fun th => bit th.csr.ntf 63) then none else x.latest })

/-- Commands of a task stop at their next sector, and its fragments at once (19 R472). -/
def State.haltEngines (s : State) (k : Task) : State :=
  let gs := s.groups.filter (fun g => g.task == k.id)
  let s1 := gs.foldl (fun z g => (List.range 4).foldl (fun y ch => match (y.chan g.c ch).run with
    | some r => if r.e.task = k.id then y.endRun g.c ch { r with fault := none } false else y
    | none => y) z) s
  (List.range 8).foldl (fun z n =>
    let x := z.strip k.die n
    if x.task ≠ k.id || x.st == .free then z else z.haltStrip k.die n) s1

/-- The leases of a task's groups return. -/
def State.returnAll (s : State) (k : Task) : State :=
  (s.groups.filter (fun g => g.task == k.id)).foldl (fun z g => z.returnLease g) s

/-- A running task begins to be discarded (16 R414, 19 R472); its cores write back first, so that nothing of it is on its way to a shadow
when that is dropped (09 R237, 19 R474). -/
def State.beginDiscard (s : State) (k : Task) : State :=
  let s0 := s.killGang k
  let s1 := (s0.groups.filter (fun g => g.task == k.id)).foldl (fun z g => z.releaseAt g.c 6 (z.svcVc k.svc)) s0
  let s2 := if k.doom = 2 then s1.haltEngines k else s1
  ((s2.returnAll k).settle k.die k.leave).modTask k.id (fun y => { y.to .discarding with leave := 0 })

/-! ### The end of a discard -/

/-- An engine still works for a task, or a write, a reduction or a drop of one of its threads is on its way (08 R214, 19 R474). -/
def State.working (s : State) (k : Task) : Bool :=
  s.cores.any (fun p => p.2.chans.any (fun x => match x.2.run with
    | some r => r.e.task == k.id
    | none => false)) ||
  s.dies.any (fun p => p.2.strips.any (fun x => x.2.task == k.id && !x.2.idle)) ||
  s.storeQ.any (fun q => q.task == k.id || (q.wb && s.groups.any (fun g => g.task == k.id && g.c == q.c))) ||
  s.homeQ.any (fun q => q.task == k.id) || s.drops.any (fun x => x.task == k.id)

/-- A task that runs once more (17 R442): its ranges stay, LEXT grants included (17 R433), and so do its handles of peers, which go back with
its release (20 R484). -/
def Task.again (k : Task) : Task :=
  { k with
    st := .ready, run := k.run + 1, cores := []
    held := (k.held.filter (·.handle.isSome)).map (fun h => { h with count := 0, shadow := none, written := false })
    leaseOk := 0, leaveOk := false, leave := 0, saved := none, doom := 0, culprit := none, tag := 0 }

/-- The windows of a task's groups are freed, its shadows dropped and its entries freed (07 R191, 10 R265, 12 R311, 19 R472). -/
def State.dropAllOf (s : State) (k : Task) : State :=
  let s1 := (s.groups.filter (fun g => g.task == k.id)).foldl (fun z g => z.endGroup g) s
  (s1.dropShadows k).freeTagged k

/-- A discarded task returns to ready, or is released and its launch fails (17 R442, Table 17.3). -/
def State.endDiscard (s : State) (k : Task) : State :=
  if k.doom = 2 && k.guarded && k.run < 2 then
    (k.held.foldl (fun z h => z.addLc k.svc h.tid h.idx (-(h.count : Int))) s).modTask k.id (fun y => y.again)
  else
    let s1 := if k.doom = 3 then s
      else s.failLaunch k.launch (if k.doom = 1 then 9 else if k.guarded then 8 else 10) (!k.guarded)
    s1.releaseTask k.id

/-- Nothing of a task is left to drop: no group, shadow or tagged entry. -/
def State.dropped (s : State) (k : Task) : Bool :=
  !s.groups.any (fun g => g.task == k.id && !g.ended) && !k.held.any (·.shadow.isSome) && !(k.guarded && s.hasTag (escTag k.id))

/-- TASK_DISCARD (16 R414, 17 R442, 19 R472-R475). -/
def execTaskDiscard (s : State) : Out :=
  match s.cur.ev with
  | some (.taskDiscard id) =>
    (match s.task? id with
    | none => .next s.stall
    | some k =>
      if k.doom = 0 then .next s.stall
      else match k.st with
        | .waiting | .ready | .mapped => .next (s.cancelTask k)
        | .reserved => (match k.saved with
          | none => .next (s.cancelTask k)
          | some v => .next ((s.cancelReserve k).killSaved k v))
        | .running => .next (s.beginDiscard k)
        | .saving => .next s.stall
        | .saved => (match k.saved with
          | none => .next (s.modTask id (·.to .discarding))
          | some v => .next (s.killSaved k v))
        | .clearing | .released => .next (s.modTask id (fun y => { y with doom := 0, culprit := none }))
        | .discarding =>
          if s.working k then .next s.stall
          else if !s.dropped k then .next (s.dropAllOf k)
          else if s.hwPuts.any (fun h => h.task == id) then .next s.stall
          else .next (s.endDiscard k))
  | _ => .fault .noEvent

end Sys2Proof.Machine
end

