-- ==== Sys2Proof/Machine/Fetching.lean ====
section
/-!
DEFINITION. Fetch and promotion of drawer tiles and the application of escrow (12 R305-R309, R312, R313): TILE_FETCH, ESCROW_APPLY,
FETCH_COMPLETE and DEFERRED_APPEND.
-/

namespace Sys2Proof.Machine

/-! ### Starting a fetch -/

/-- Asks the drawer for the blocks of a frame, on behalf of the fetch of a tile (12 R317). -/
def State.askFrame (s : State) (svc tid idx base bytes die : Nat) : State :=
  s.askBlocks die (s.svcCls svc) (.fetch svc tid idx) ((List.range ((bytes + 255) / 256)).map (fun i => base / 32 + 8 * i))

/-- A fetch of a drawer tile that begins now can promote it: a near frame is to be had, and room for the drawer frame (12 R306). -/
def State.promotion (s : State) (d : Desc) (idx : Nat) (w : Word) : Option (Nat × State) :=
  if s.poolFull 8 d.z || s.hwPuts.any (fun h => h.set == 8 && h.z == d.z) then none else s.takeFrame (d.promoteDie idx w) d.z

/-- A write or reduction to a tile's own frame, or a request that waits to cross to it, is on its way. -/
def State.sentTo (s : State) (key base bytes : Nat) : Bool :=
  let here (pa : Nat) : Bool := decide (base ≤ pa) && decide (pa < base + bytes)
  s.storeQ.any (fun q => q.tile == some key || (q.app.isNone && here q.pa)) || s.homeQ.any (fun q => q.tile == some key || (q.app.isNone && here q.pa)) ||
    s.waits.any (fun w => here w.pa)

/-- Every core writes back what it holds dirty of a frame (12 R306). -/
def State.bringBack (s : State) (svc base bytes : Nat) : State :=
  s.cores.foldl (fun z p => (p.2.l1.filter (fun q => decide (base / 32 ≤ q.1) && decide (q.1 < (base + bytes) / 32) && q.2.dirty.isSome)).foldl
    (fun y q => y.l1WriteBack p.1 q.1 (s.svcVc svc) q.2) z) s

/-- A fetch without its tile. -/
def State.dropFetch (s : State) (f : Fetch) : State := { s with fetches := s.fetches.erase f }

/-- A fetch of a drawer tile begins (12 R305, R306), once what has been sent to the tile's frame has arrived (12 R299): it promotes the tile
where a near frame and room for the drawer frame are to be had, and applies the log in place otherwise. -/
def State.startFetch (s : State) (f : Fetch) (d : Desc) (w : Word) : State :=
  let base := frameBase w
  let g : Fetch := { f with begun := true, drawer := base }
  match s.promotion d f.idx w with
  | some (n, s1) =>
    let near := 4096 * n
    let s2 := ((s1.dropLines (base / 32) (d.bytes / 32)).dropLines (near / 32) (d.bytes / 32)).moveFrame f.svc f.tid d f.idx
      (withFrame w near 1)
    let s3 := (s2.copyFrame (base / 32) (near / 32) (d.bytes / 32)).askFrame f.svc f.tid f.idx base d.bytes (d.promoteDie f.idx w)
    { s3.dropFetch f with fetches := (s3.dropFetch f).fetches ++ [{ g with promote := true, near := near }] }
  | none => ({ s.dropFetch f with fetches := (s.dropFetch f).fetches ++ [g] } : State).resume (Handle.of f.svc f.tid f.idx)

/-- TILE_FETCH (12 R305, R306): a fetch in progress is joined; a tile that is not in the drawer, or whose link has failed, needs none. -/
def execTileFetch (s : State) : Out :=
  match s.cur.ev with
  | some (.tileFetch svc tid idx) =>
    (match s.desc? svc tid with
    | none => .next s
    | some d =>
      match s.tileWord? svc tid d idx with
      | none => .next s
      | some w =>
        if s.fetching svc tid idx || resid? w false ≠ some .drawer || (s.linkDead (frameBase w) d.bytes).isSome then .next s
        else .next { s with fetches := s.fetches ++
          [{ svc := svc, tid := tid, idx := idx, begun := false, promote := false, near := 0, drawer := frameBase w }] })
  | _ => .fault .noEvent

/-! ### Application -/

/-- The fetch in progress of a tile. -/
def State.fetchOf (s : State) (svc tid idx : Nat) : Option Fetch :=
  s.fetches.find? (fun f => f.svc == svc && f.tid == tid && f.idx == idx)

/-- Budget of escrow entries of a die, `act.bud.esc` (18 R459). -/
def State.budEsc (s : State) (die : Nat) : Nat := fld (s.reg (.actBud die)) 19 10

/-- The frame to which an entry of a tile may be applied now (12 R306, R307): of a resident tile, or of one that is being fetched, once
its bytes have come; in place, while the sector's link is up. No link that the fetch needs has failed (12 R321). -/
def State.applyTo (s : State) (svc tid : Nat) (d : Desc) (idx sect : Nat) (w : Word) : Option Nat :=
  match resid? w true, s.fetchOf svc tid idx with
  | some .resident, _ => some (frameBase w)
  | some .arriving, some f => if s.reading (.fetch svc tid idx) || (s.linkDead f.drawer d.bytes).isSome then none else some (frameBase w)
  | some .drawer, some f =>
    if f.promote || !f.begun || (s.link (linkOf (frameBase w + 32 * sect))).st ≠ .up then none else some (frameBase w)
  | _, _ => none

/-- The number of the next entry of a die's store to be applied, if it is entry `i`: untagged, the oldest of its sector, its frame at hand. -/
def State.canApply (s : State) (die i : Nat) : Option (Desc × Esc × Nat) :=
  match (s.die die).esc.find i with
  | none => none
  | some e =>
    match s.desc? e.svc e.tid with
    | none => none
    | some d =>
      let log := (s.logOf d e.idx).2.filter (fun p => p.2.sect == e.sect && p.2.tag == 0)
      if e.tag ≠ 0 || (log.getLast?.map (·.1)) ≠ some i || s.budEsc die ≤ (s.die die).usedEsc then none
      else ((s.tileWord? e.svc e.tid d e.idx).bind (s.applyTo e.svc e.tid d e.idx e.sect)).map (fun b => (d, e, b))

/-- An uncorrectable error met by an untagged entry (12 R312, 19 R475): it is reported, and the tile is lost. -/
def State.loseTile (s : State) (d : Desc) (e : Esc) (pa : Nat) : State :=
  let s1 := s.errReport 2 (memUnit pa) (homeDie pa) (homeSlice pa) pa 0 0 e.svc
  match s1.tileWord? e.svc e.tid d e.idx with
  | some w => s1.moveFrame e.svc e.tid d e.idx (w &&& 0x7FFFFFFFFFFFFFFF)
  | none => s1

/-- ESCROW_APPLY (12 R307): one entry is applied at its home and freed. -/
def execEscrowApply (s : State) : Out :=
  match s.cur.ev with
  | some (.escrowApply die i) =>
    (match s.canApply die i with
    | none => .next s.stall
    | some (d, e, base) =>
      let sec := base / 32 + e.sect
      let s1 := (s.freeEntry d die i).modDie die (fun k => { k with usedEsc := k.usedEsc + 1 })
      if e.op ≠ 0 && s1.marked sec then .next (s1.loseTile d e (32 * sec))
      else .next (s1.homeApply sec e.op e.ty e.mask e.data))
  | _ => .fault .noEvent

/-! ### The end of a fetch -/

/-- FETCH_COMPLETE (12 R306): a fetch begins; and with no untagged entry left it ends: the tile becomes resident and its drawer frame goes
to set 8; after a fetch in place it stays in the drawer. Peers that hold the tile stop using it first (20 R485). One that needs a failed link
never ends (12 R321). -/
def execFetchComplete (s : State) : Out :=
  match s.cur.ev with
  | some (.fetchComplete svc tid idx) =>
    (match s.fetchOf svc tid idx, s.desc? svc tid with
    | some f, some d =>
      let w := (s.tileWord? svc tid d idx).getD 0
      if !f.begun then
        (if resid? w false ≠ some .drawer then .next (s.dropFetch f)
         else
           let s1 := s.bringBack svc (frameBase w) d.bytes
           let h := Handle.of svc tid idx
           if s1.sentTo (tileKey svc tid idx) (frameBase w) d.bytes then .next s1.stall
           else if (s1.promotion d idx w).isSome && !s1.recalled h then
             .next (if s1.toRecall h then s1.recall h else s1.stall)
           else .next (s1.startFetch f d w))
      else if s.untagged d idx || s.reading (.fetch svc tid idx) then .next s.stall
      else if !f.promote then .next (s.dropFetch f)
      else if (s.linkDead f.drawer d.bytes).isSome then .next s.stall
      else .next ((((s.dropFetch f).moveFrame svc tid d idx (withFrame w f.near 0)).resume (Handle.of svc tid idx)).putFrame 8 d.z
        (f.drawer / 4096) 0)
    | some f, none => .next (s.dropFetch f)
    | none, _ => .next s.stall)
  | _ => .fault .noEvent

/-! ### Appends that wait -/

/-- The first waiting append of a die that can be made: those to one sector of a tile keep their order. -/
def State.nextDefer (s : State) (die : Nat) (before : List Deferred) : List Deferred → Option (State × Deferred)
  | [] => none
  | q :: r =>
    let behind := before.any (fun p => p.svc == q.svc && p.tid == q.tid && p.idx == q.idx && p.sect == q.sect)
    match (if behind then none else s.deferStep q) with
    | some s1 => some (s1, q)
    | none => State.nextDefer s die (before ++ [q]) r

/-- DEFERRED_APPEND (12 R309). -/
def execDeferredAppend (s : State) : Out :=
  match s.cur.ev with
  | some (.deferredAppend die) =>
    (match s.nextDefer die [] (s.die die).defer with
    | some (s1, q) => .next (s1.modDie die (fun k => { k with defer := k.defer.erase q }))
    | none => .next s.stall)
  | _ => .fault .noEvent

end Sys2Proof.Machine
end

