-- ==== Sys2Proof/Machine/Drawer.lean ====
section
/-!
DEFINITION. The drawer links (12 R316-R325): slots and their tables, link states, retraining and tuning: DRAWER_SLOT_SEND,
DRAWER_READ_RETURN, DRAWER_WRITE_COMPLETE, DL_ENABLE, DL_DISABLE, DL_RETRAIN, LANES_LOCKED, LOCK_LOSS, TRAINING_TIMEOUT, TUNING_TIMEOUT
and PH_OWN_WRITE.
-/

namespace Sys2Proof.Machine

/-! ### Slots -/

/-- The slot of a link that begins at or before a cycle, counted from package reset: a slot lasts 0.64 ns, and 17 cycles last 20 ns (12
R317, 00 R1). Log entry 61, DESIGN CHOICE. -/
def slotAt (now : Nat) : Nat := now * 125 / 68

/-- The slot tables of a link as its registers hold them (12 R318). -/
def State.slotRegs (s : State) (l : Nat) : List Word :=
  (List.range 32).map (fun i => s.reg (.slotOut l i)) ++ (List.range 32).map (fun i => s.reg (.slotIn l i))

/-- The tables take effect at the frame boundary: those in force are taken from the registers once a frame (12 R318). -/
def State.latchTabs (s : State) (l : Nat) : State :=
  let f := slotAt s.now / 256
  if (s.link l).tabFrame < f then s.modLink l (fun k => { k with tabs := s.slotRegs l, tabFrame := f }) else s

/-- Entry `i` of a slot table, the inbound one for `read` (12 R318). -/
def Link.entry (k : Link) (read : Bool) (i : Nat) : Nat :=
  fld (k.tabs.getD ((if read then 32 else 0) + i / 8) 0) (8 * (i % 8) + 7) (8 * (i % 8))

/-- The request of a kind that goes out in slot `i` (12 R319): of the class that the slot is reserved to, or the oldest where it is shared
or its class has none ready. -/
def Link.pick (k : Link) (write : Bool) (i : Nat) : Option DReq :=
  let ready := k.wait.filter (fun q => q.write == write)
  let e := k.entry (!write) i
  match (if 128 ≤ e then ready.find? (fun q => decide (q.cls = e / 8 % 16) && decide (q.die = e % 8)) else none) with
  | some q => some q
  | none => ready.head?

/-- A request goes out in a slot. -/
def Link.send (k : Link) (q : Option DReq) (n : Nat) : Link :=
  match q with
  | some q => { k with wait := k.wait.erase q, sent := k.sent ++ [{ q with slot := n }] }
  | none => k

/-- The slot with an index that passes in this cycle, if one does. -/
def slotNow (now i : Nat) : Option Nat :=
  let n := slotAt now
  let m := n + (i + 256 - n % 256) % 256
  if m < slotAt (now + 1) then some m else none

/-- DRAWER_SLOT_SEND (12 R317, R319): the slot takes at most one read command and one block of write data. -/
def execDrawerSlotSend (s : State) : Out :=
  match s.cur.ev with
  | some (.drawerSlotSend l i) =>
    (match slotNow s.now i with
    | none => .next s.stall
    | some n =>
      let s1 := s.latchTabs l
      let k := s1.link l
      if k.st ≠ .up || n < k.slot || k.wait.isEmpty then .next s.stall
      else
        let k1 := (k.send (k.pick false i) n)
        let k2 := k1.send (k1.pick true i) n
        .next (s1.setLink l { k2 with slot := n + 1 }))
  | _ => .fault .noEvent

/-- The oldest answer of a kind that is due on a link that is up (12 R317). -/
def State.answerDue (s : State) (l : Nat) (write : Bool) : Option DReq :=
  let k := s.link l
  if k.st ≠ .up then none
  else k.sent.find? (fun q => q.write == write && decide (q.slot + 1024 ≤ slotAt s.now))

/-- An answer comes back. -/
def State.answerDrawer (s : State) (l : Nat) (write : Bool) : Out :=
  match s.answerDue l write with
  | some q => .next (s.modLink l (fun k => { k with sent := k.sent.erase q }))
  | none => .next s.stall

/-- A block read for no one's access, but toward the shared cache, has come: its sectors enter their homes, as far as the slices admit them (10
R273). -/
def State.warmBlock (s : State) (q : DReq) : State :=
  (List.range 8).foldl (fun z i => if z.admits (q.pa + 32 * i) q.cls then z.atSlice (q.pa + 32 * i) q.cls else z) s

/-- DRAWER_READ_RETURN (12 R317). -/
def execDrawerReadReturn (s : State) : Out :=
  match s.cur.ev with
  | some (.drawerReadReturn l) =>
    (match s.answerDue l false with
    | some q => if q.who = .none then State.answerDrawer (s.warmBlock q) l false else s.answerDrawer l false
    | none => .next s.stall)
  | _ => .fault .noEvent

/-- DRAWER_WRITE_COMPLETE (12 R317). -/
def execDrawerWriteComplete (s : State) : Out :=
  match s.cur.ev with
  | some (.drawerWriteComplete l) => s.answerDrawer l true
  | _ => .fault .noEvent

/-! ### Lane maps -/

/-- The rings of a direction of a link, inbound for `inb`. -/
def State.rings (s : State) (l : Nat) (inb : Bool) : List Word :=
  (List.range 18).map (fun i => s.reg (.ring l (if inb then 18 + i else i)))

/-- A lane map is consistent (12 R324). -/
def consistent (l : List Word) : Bool :=
  (List.range 16).all (fun n => (l.filter (fun w => bit w 36 && fld w 35 32 = n)).length = 1)

/-- Both lane maps of a link are consistent. -/
def State.lanesOk (s : State) (l : Nat) : Bool := consistent (s.rings l false) && consistent (s.rings l true)

/-- Sets activity and lane of a ring. -/
def State.setLane (s : State) (l i : Nat) (act : Bool) (lane : Nat) : State :=
  s.setReg (.ring l i) (s.reg (.ring l i) &&& ~~~(0x1F#64 <<< 32) ||| wd (b2n act * 2 ^ 36 + lane * 2 ^ 32))

/-- The lane that each ring carries before any spare is mapped in: ring r carries lane r (12 R324). -/
def State.plainLanes (s : State) (l : Nat) : State :=
  (List.range 36).foldl (fun z i => z.setLane l i (decide (i % 18 < 16)) (if i % 18 < 16 then i % 18 else 0)) s

/-- A spare ring is mapped in for the ring that carries a lane (12 R320, R324; log entry 37, DESIGN CHOICE). -/
def State.mapSpare (s : State) (l : Nat) (inb : Bool) (r : Nat) : State :=
  let b := if inb then 18 else 0
  if bit (s.reg (.ring l (b + r))) 36 then s
  else
    let lane := Config.spareLane s.freeCount % 16
    let s1 := (List.range 18).foldl (fun z i =>
      let w := z.reg (.ring l (b + i))
      if bit w 36 && fld w 35 32 = lane then z.setLane l (b + i) false lane else z) s
    (s1.setLane l (b + r) true lane).bump

/-- The spare rings that a lock uses are mapped in. -/
def State.mapSpares (s : State) (l : Nat) (inb : Bool) (n : Nat) : State :=
  (List.range (min n 2)).foldl (fun z i => z.mapSpare l inb (16 + i)) s

/-- The bursar's last consistent map is put back; one that it has not had is the plain one (12 R325). -/
def State.restoreLanes (s : State) (l : Nat) : State :=
  match (s.link l).lanes with
  | [] => s.plainLanes l
  | ws => ws.zipIdx.foldl (fun z p => z.setLane l p.2 (bit p.1 36) (fld p.1 35 32)) s

/-- The map in force is kept as the bursar's last consistent one. -/
def State.keepLanes (s : State) (l : Nat) : State :=
  if s.lanesOk l then s.modLink l (fun k => { k with lanes := s.rings l false ++ s.rings l true }) else s

/-! ### States -/

/-- A link in a state from a cycle on. -/
def Link.enter (k : Link) (st : LinkSt) (now : Nat) : Link := { k with st := st, since := now }

/-- An up link goes into retraining (12 R320, R323). -/
def State.retrain (s : State) (l : Nat) : State :=
  if (s.link l).st ≠ .up then s
  else s.modLink l (fun k => { k.enter .retraining s.now with rtn := if k.rtn = 0xFFFF then k.rtn else k.rtn + 1 })

/-- The bursar sets `dl.ctl.en`: a link that is down goes into training (12 R320). -/
def State.enableLink (s : State) (l : Nat) : State :=
  let s1 := s.setReg (.dlCtl l) 1
  if (s.link l).st = .down then s1.modLink l (·.enter .training s.now) else s1

/-- DL_ENABLE (12 R320). -/
def execDlEnable (s : State) : Out :=
  match s.cur.ev with
  | some (.dlEnable l) => .next (s.enableLink l)
  | _ => .fault .noEvent

/-- DL_DISABLE (12 R320): the bursar clears `dl.ctl.en`. -/
def execDlDisable (s : State) : Out :=
  match s.cur.ev with
  | some (.dlDisable l) => .next ((s.setReg (.dlCtl l) 0).modLink l (·.enter .down s.now))
  | _ => .fault .noEvent

/-- DL_RETRAIN (12 R320, R323): a write of 1 to `dl.ctl.rt`, by the bursar or a privileged service. -/
def execDlRetrain (s : State) : Out :=
  match s.cur.ev with
  | some (.dlRetrain l who) =>
    .next (match who with
      | .bursar => s.retrain l
      | .service c t => if s.privAt c t then s.retrain l else s.refuseWrite who (Reg.dlCtl l).off
      | .host => s)
  | _ => .fault .noEvent

/-- LANES_LOCKED (12 R320, R324): all 16 lanes have locked, with spare rings as needed. A map that is not consistent does not lock while a
service tunes; the bursar sets up a consistent one. -/
def execLanesLocked (s : State) : Out :=
  match s.cur.ev with
  | some (.lanesLocked l spi spo) =>
    let k := s.link l
    let bursar := !bit (s.reg (.phOwn l)) 7
    if k.st ≠ .training && k.st ≠ .retraining then .next s
    else
      let s1 := if bursar && !s.lanesOk l then s.restoreLanes l else s
      if !s1.lanesOk l then .next s
      else
        let s2 := if bursar then ((s1.mapSpares l true spi).mapSpares l false spo).keepLanes l else s1
        .next (s2.modLink l (fun k => { k.enter .up s.now with spi := min spi 2, spo := min spo 2 }))
  | _ => .fault .noEvent

/-- LOCK_LOSS (12 R320): lost lock, drift beyond the bound, or an inconsistent lane map. -/
def execLockLoss (s : State) : Out :=
  match s.cur.ev with
  | some (.lockLoss l) => .next (s.retrain l)
  | _ => .fault .noEvent

/-- 60 µs and 30 µs, in cycles of the main clock. -/
def trainCycles : Nat := 51000
def tuneCycles : Nat := 25500

/-- TRAINING_TIMEOUT (12 R320, R321): 60 µs have passed without lock: the link fails, and what it held goes. -/
def execTrainingTimeout (s : State) : Out :=
  match s.cur.ev with
  | some (.trainingTimeout l) =>
    let k := s.link l
    if (k.st = .training || k.st = .retraining) && decide (k.since + trainCycles ≤ s.now) then
      .next (s.modLink l (fun k => { k with st := .failed, wait := [], sent := [] }))
    else .next s.stall
  | _ => .fault .noEvent

/-- TUNING_TIMEOUT (12 R325): a service's map is still inconsistent 30 µs into a retraining: the bursar tunes again. -/
def execTuningTimeout (s : State) : Out :=
  match s.cur.ev with
  | some (.tuningTimeout l) =>
    let k := s.link l
    if k.st = .retraining && bit (s.reg (.phOwn l)) 7 && !s.lanesOk l && decide (k.since + tuneCycles ≤ s.now) then
      .next ((s.setReg (.phOwn l) (s.reg (.phOwn l) &&& ~~~0x80#64)).restoreLanes l)
    else .next s.stall
  | _ => .fault .noEvent

/-! ### Who tunes -/

/-- The bursar consents to service tuning of a link (22 R515). -/
def State.consents (s : State) (l : Nat) : Bool := bit (s.reg .brsTune) l

/-- A write of `ph.own` (12 R325, 22 R515). -/
def State.phOwnPut (s : State) (l : Nat) (v : Word) (who : Agent) : State :=
  let may := match who with
    | .bursar => true
    | .service c t => s.privAt c t
    | .host => false
  if !may then s.refuseWrite who (Reg.phOwn l).off
  else
    let x := v &&& 0xBF
    let s1 := if bit (s.reg (.phOwn l)) 7 then s else s.keepLanes l
    s1.setReg (.phOwn l) (if s.consents l then x else x &&& 0x3F)

/-- PH_OWN_WRITE (12 R325). -/
def execPhOwnWrite (s : State) : Out :=
  match s.cur.ev with
  | some (.phOwnWrite l v who) => .next (s.phOwnPut l v who)
  | _ => .fault .noEvent

/-- A write of a ring register by who tunes the link (12 R324, R325): an inconsistent map puts a link that is up into retraining (12 Table
12.4). -/
def State.ringWrite (s : State) (l i : Nat) (v : Word) (who : Agent) : State :=
  let own := s.reg (.phOwn l)
  let may := match who with
    | .bursar => !bit own 7
    | .service c t => bit own 7 && (s.thread? c t).any (fun th => fld own 5 0 == th.svc)
    | .host => false
  if !may then s.refuseWrite who (Reg.ring l i).off
  else
    let s1 := s.setReg (.ring l i) (Reg.stored (.ring l i) (s.reg (.ring l i)) v)
    if !s1.lanesOk l then s1.retrain l else s1

/-- A write of a slot table, which takes effect at the next frame (12 R318). -/
def State.slotWrite (s : State) (l : Nat) (r : Reg) (v : Word) (who : Agent) : State :=
  if s.mayWrite who then (s.latchTabs l).setReg r v else s.refuseWrite who r.off

end Sys2Proof.Machine
end

