-- ==== Sys2Proof/Machine/Power.lean ====
section
/-!
DEFINITION. Energy and current (18): the accounts and their notices, the grant, ageing and settlement of leave, activity periods, and
the rails: ALLOWANCE_PERIOD, LEAVE_GRANT, LEAVE_AGEING, LEAVE_SETTLE, ACTIVITY_PERIOD, DIE_SRAM_WRITE, ECC_MODE_CHANGE_DONE,
SRAM_RAIL_SETTLED, CLU_OP_WRITE and OP_POINT_CHANGE.
-/

namespace Sys2Proof.Machine

/-! ### Notices -/

/-- A notice (18 R456). -/
def Svc.noticeWord (v : Svc) (reason : Nat) : Word :=
  let b := max (-(2 ^ 31 : Int)) (min v.bal (2 ^ 31 - 1))
  wd (v.notices.toNat * 2 ^ 48 + reason * 2 ^ 40) ||| (BitVec.ofInt 32 b).setWidth 64

/-- A saved thread of a service holds `ntf.en`. -/
def State.savedNotifier (s : State) (svc : Nat) : Bool :=
  s.tasks.any (fun k => k.svc == svc && (match k.saved with
    | some v => v.threads.any (fun th => bit th.csr.ntf 63)
    | none => false))

/-- Gives a notice to the service's notification thread; without one it is dropped (18 R456). -/
def State.notice (s : State) (svc reason : Nat) : State :=
  let count (z : State) : State := z.modSvc svc (fun v => { v with notices := v.notices + 1 })
  match s.threads.find? (fun th => th.svc == svc && bit th.csr.ntf 63) with
  | some th =>
    let s1 := (count s).modSvc svc (fun v => { v with latest := none })
    s1.noteTo th ((s1.svc svc).noticeWord reason)
  | none =>
    if s.savedNotifier svc then (count s).modSvc svc (fun v => { v with latest := some (v.noticeWord reason) }) else s

/-! ### Accounts -/

/-- The service's threads are denied issue: the groups that their fronts are in end (04 R106), but for the notification thread's (18 R457). -/
def State.breakGroups (s : State) (svc : Nat) : State :=
  { s with threads := s.threads.map (fun th =>
    if th.svc = svc && !bit th.csr.ntf 63 then { th with issue := { th.issue with group := false } } else th) }

/-- Debits an account that is on; below its debt the service is denied issue (18 R450, R455). -/
def State.debit (s : State) (svc n : Nat) : State :=
  if (s.svc svc).off then s
  else
    let s1 := s.modSvc svc (fun v => { v with bal := v.bal - n })
    let v := s1.svc svc
    if !v.deny && decide (v.bal < -(fld v.capNow 63 32 : Int)) then
      ((s1.modSvc svc (fun v => { v with deny := true })).breakGroups svc).notice svc 1
    else s1

/-- The refill of an account at a period boundary, at which a write of its registers takes effect (18 R448). -/
def Svc.refill (v : Svc) (ref cap : Word) : Svc :=
  { v with refNow := ref, capNow := cap, waitNotice := false, bal := min (v.bal + fld ref 31 0) (fld cap 31 0) }

/-- The accounts at a period boundary: refilled, and denial ends where the balance is not negative (18 R448, R455). -/
def State.refillOf (s : State) (n : Nat) : State :=
  let s1 := s.setSvc n ((s.svc n).refill (s.reg (.alwRef n)) (s.reg (.alwCap n)))
  let v := s1.svc n
  if v.deny && decide (0 ≤ v.bal) then (s1.modSvc n (fun v => { v with deny := false })).notice n 2 else s1

/-- The power of the module halves every die's effective limit, or lets it double back (18 R452). -/
def Die.limitStep (d : Die) (high : Bool) : Die := { d with halved := if high then min 4 (d.halved + 1) else d.halved - 1 }

/-- The number of the allowance period that a time stands in (18 R448). -/
def State.alwPeriodNow (s : State) : Nat := s.timeNs / 1000000

/-- ALLOWANCE_PERIOD (18 R448, R452, R455): one boundary of 1 ms is passed. -/
def execAllowancePeriod (s : State) : Out :=
  match s.cur.ev with
  | some (.allowancePeriod high) =>
    if s.alwPeriodNow ≤ s.alwPd then .next s.stall
    else
      let s1 := (List.range 64).foldl State.refillOf s
      let s2 := (List.range 8).foldl (fun z d => z.modDie d (·.limitStep high)) s1
      .next { s2 with alwPd := s.alwPd + 1 }
  | _ => .fault .noEvent

/-! ### Leave -/

/-- The task whose word asks for leave. -/
def State.leaveTask (s : State) (die : Nat) (r : LeaveReq) : Nat :=
  match r.who with
  | .strip n => ((s.strip die n).q.head?.map (·.task)).getD 0
  | .chan c ch => ((s.chan c ch).q.head?.map (·.task)).getD 0
  | .start k => k
  | .draw _ _ => 0

/-- The thread whose reserve funds an MGO or a C word (18 R450). -/
def State.funder (s : State) (die : Nat) (r : LeaveReq) : Option Thread :=
  match r.who with
  | .strip _ | .chan _ _ =>
    (match s.thread? r.c r.t with
    | some th => if th.task = s.leaveTask die r && decide (r.cost ≤ th.csr.leave.toNat) then some th else none
    | none => none)
  | _ => none

/-- The account allows a request (18 R450). -/
def State.allows (s : State) (die svc : Nat) (r : LeaveReq) : Bool :=
  let v := s.svc svc
  let cap := fld v.capNow 31 0
  (s.funder die r).isSome || v.off || decide ((r.cost : Int) ≤ v.bal) || (decide (cap < r.cost) && decide (v.bal = cap))

/-- The rate r of a request in µJ per µs (18 R450). -/
def LeaveReq.rate (r : LeaveReq) : Nat := if r.current then (r.cost * r.mhz * 64 + r.dur - 1) / r.dur else 0

/-- There is room for a request under the die's current limit (18 R450). -/
def State.hasCurrent (s : State) (die : Nat) (r : LeaveReq) : Bool :=
  !r.current || decide (s.committed die + r.rate ≤ s.effLimit die) || (decide (s.effLimit die < r.rate) && s.committed die = 0)

/-- The head of a service's queue for leave on a die. -/
def Die.leaveHead (d : Die) (n : Nat) : Option LeaveReq := (d.leaveQ.get [] n).head?

/-- The heads of a die's queues, by service, from the one after the last granted on (18 R451). -/
def Die.heads (d : Die) : List (Nat × LeaveReq) :=
  (List.range 64).filterMap (fun i =>
    let n := (d.leaveLast + 1 + i) % 64
    (d.leaveHead n).map (fun r => (n, r)))

/-- The request that a die grants next: round-robin by service, and the ageing one alone while there is one (18 R451). -/
def State.nextLeaveOf (s : State) (die : Nat) : Option (Nat × LeaveReq) :=
  let l := (s.die die).heads
  let l := if l.any (fun p => p.2.id == (s.die die).ageing) then l.filter (fun p => p.2.id == (s.die die).ageing) else l
  l.find? (fun p => s.allows die p.1 p.2 && s.hasCurrent die p.2)

/-- What a grant of leave lets begin; that of a DRAW is in the thread's reserve at once (18 R454). -/
def State.granted (s : State) (die : Nat) (r : LeaveReq) : State :=
  match r.who with
  | .strip n => s.modStrip die n (fun x => if x.leave = r.id then { x with granted := true } else x)
  | .chan c ch => s.modChan c ch (fun x => if x.leave = r.id then { x with granted := true } else x)
  | .start k => s.modTask k (fun x => { x with leaveOk := true })
  | .draw c t => s.modThread c t (fun th => { th with
      issue := { th.issue with got := some r.cost }, csr := { th.csr with leave := th.csr.leave + BitVec.ofNat 32 r.cost } })

/-- The cost is taken from the steering thread's reserve where that holds it, else from the account (18 R450). -/
def State.pay (s : State) (die svc : Nat) (r : LeaveReq) : State :=
  match s.funder die r with
  | some th => s.modThread th.c th.t (fun y => { y with csr := { y.csr with leave := y.csr.leave - BitVec.ofNat 32 r.cost } })
  | none => s.debit svc r.cost

/-- A granted request leaves its queue; its operation is recorded as running, but for a DRAW, which ends with its grant. -/
def Die.grant (d : Die) (svc : Nat) (r : LeaveReq) : Die :=
  let g : Granted := { id := r.id, svc := svc, r := r.rate, cost := r.cost }
  { d with
    leaveQ := d.leaveQ.set svc ((d.leaveQ.get [] svc).tail), leaveLast := svc, ageing := if d.ageing = r.id then 0 else d.ageing
    granted := match r.who with
      | .draw _ _ => d.granted
      | _ => d.granted ++ [g] }

/-- LEAVE_GRANT (18 R450, R451). Requests with `try` that the cycle does not grant are withdrawn (18 R454). -/
def execLeaveGrant (s : State) : Out :=
  match s.cur.ev with
  | some (.leaveGrant die) =>
    (match s.nextLeaveOf die with
    | none => .next (s.passOver die 2).stall
    | some (svc, r) => .next ((((s.pay die svc r).modDie die (·.grant svc r)).granted die r).passOver die 2))
  | _ => .fault .noEvent

/-- What a head lacks: nothing, allowance (false), or current alone (true). -/
def State.lacks (s : State) (die svc : Nat) (r : LeaveReq) : Option Bool :=
  if !s.allows die svc r then some false else if !s.hasCurrent die r then some true else none

/-- A head's note of what it lacks is not up to date. -/
def State.shortStale (s : State) (die : Nat) (p : Nat × LeaveReq) : Bool := p.2.short.map (·.1) != s.lacks die p.1 p.2

/-- A head has waited 4,096 cycles for current alone (18 R451). -/
def State.aged (s : State) (r : LeaveReq) : Bool :=
  match r.short with
  | some (true, t) => decide (t + 4096 ≤ s.now)
  | _ => false

/-- A head has waited one whole period of 1 ms, 850,000 cycles of the main clock, for allowance (18 R456). -/
def State.overWait (s : State) (r : LeaveReq) : Bool :=
  match r.short with
  | some (false, t) => !r.noticed && decide (t + 850000 ≤ s.now)
  | _ => false

/-- Changes the head of a service's queue. -/
def Die.modHead (d : Die) (n : Nat) (f : LeaveReq → LeaveReq) : Die :=
  match d.leaveQ.get [] n with
  | [] => d
  | r :: l => { d with leaveQ := d.leaveQ.set n (f r :: l) }

/-- A die whose ageing has work: a head to note, one that has aged, or one whose wait gives a notice. -/
def State.ageingDue (s : State) (die : Nat) : Bool :=
  (s.die die).heads.any (fun p => s.shortStale die p || (s.aged p.2 && !(s.die die).heads.any (fun q => q.2.id == (s.die die).ageing)) ||
    s.overWait p.2)

/-- LEAVE_AGEING (18 R451, R456): what each head lacks is noted; a head that has waited long enough for current alone stops every other
grant of the die, and one that has waited a whole period for allowance gives its service's notice, the first in a period. -/
def execLeaveAgeing (s : State) : Out :=
  match s.cur.ev with
  | some (.leaveAgeing die) =>
    let hs := (s.die die).heads
    (match hs.find? (s.shortStale die) with
    | some p => .next (s.modDie die (·.modHead p.1 (fun r => { r with short := (s.lacks die p.1 p.2).map (fun b => (b, s.now)) })))
    | none => match hs.find? (fun p => s.overWait p.2) with
      | some p =>
        let s1 := s.modDie die (·.modHead p.1 (fun r => { r with noticed := true }))
        .next (if (s.svc p.1).waitNotice then s1
          else (s1.modSvc p.1 (fun v => { v with waitNotice := true })).notice p.1 3)
      | none => match hs.find? (fun p => s.aged p.2) with
        | some p =>
          if hs.any (fun q => q.2.id == (s.die die).ageing) then .next s.stall
          else .next (s.modDie die (fun d => { d with ageing := p.2.id }))
        | none => .next s.stall)
  | _ => .fault .noEvent

/-- The running operation of a number, with its die; the die named is looked at first. -/
def State.running? (s : State) (die id : Nat) : Option (Nat × Granted) :=
  match (s.die die).granted.find? (fun g => g.id == id) with
  | some g => some (die, g)
  | none => s.dies.findSome? (fun p => (p.2.granted.find? (fun g => g.id == id)).map (fun g => (p.1, g)))

/-- LEAVE_SETTLE (18 R453): the measured energy against the cost, in the account. -/
def execLeaveSettle (s : State) : Out :=
  match s.cur.ev with
  | some (.leaveSettle die id measured) =>
    (match s.running? die id with
    | none => .next s
    | some (d, g) =>
      let s1 := s.modDie d (fun x => { x with granted := x.granted.filter (fun y => y.id ≠ id) })
      .next (if g.cost < measured then s1.debit g.svc (measured - g.cost)
        else if (s1.svc g.svc).off then s1 else s1.credit g.svc (g.cost - measured)))
  | _ => .fault .noEvent

/-! ### Activity -/

/-- Staged trace records of a core go out within the budget of its die (18 R459, 21 R500). -/
def State.traceDrain (s : State) (c : Nat) : Nat → State
  | 0 => s
  | n + 1 =>
    match (s.core c).stage with
    | [] => s
    | w :: r =>
      if (s.die (dieOf c)).usedTr < s.budTr (dieOf c) then
        State.traceDrain ((s.modCore c (fun k => { k with stage := r })).traceOut c w) c n
      else s

/-- ACTIVITY_PERIOD (18 R459): the counts of a die begin again, and staged trace records go out. -/
def execActivityPeriod (s : State) : Out :=
  match s.cur.ev with
  | some (.activityPeriod die) =>
    let s1 := s.modDie die (fun d => { d with usedEsc := 0, usedScr := 0, usedTr := 0, actPd := s.now / 1024 })
    .next ((List.range 32).foldl (fun z i => z.traceDrain (32 * die + i) 64) s1)
  | _ => .fault .noEvent

/-! ### Rails -/

/-- The SRAM rail's set points in mV (18 R460). -/
def sramNormal : Nat := 780
def sramEcon : Nat := 660

/-- The logic rails of a die's clusters, at the points where they stand and at those asked for. -/
def State.logicRails (s : State) (d : Nat) : List Nat :=
  (List.range 4).flatMap (fun k =>
    let x := s.die d
    railMv (4 * d + k) (x.opPt.get 2 k) :: match x.opWant.find k with
      | some p => [railMv (4 * d + k) p]
      | none => [])

/-- The gap that the rail sequencer keeps between an SRAM rail and a logic rail (18 R460). Log entry 63, DEDUCED. -/
def gapOk (sram logic : Nat) : Bool := decide (sram ≤ logic + 180) && decide (logic ≤ sram + 180)

/-- Economy is requested of a die. -/
def State.econAsked (s : State) (d : Nat) : Bool := bit (s.reg (.dieSram d)) 0

/-- Ways 7 and 15 of a die's slices are written back and invalidated (11 R282). -/
def State.emptyWays (s : State) (d : Nat) : State :=
  ((s.die d).cache.filter (fun p => p.2.way % 8 = 7)).foldl (fun z p => z.evictLine d p.1) s

/-- A write of `die.sram` (18 R460, R461): refused while a change is on its way, and where the rails would stand too far apart. -/
def State.sramPut (s : State) (d : Nat) (v : Word) : State :=
  let econ := bit v 0
  let x := s.die d
  if x.sramPend || !(s.logicRails d).all (gapOk (if econ then sramEcon else sramNormal)) then s
  else if econ = s.econAsked d then s
  else
    let s1 := s.setReg (.dieSram d) (wd (b2n econ))
    (if econ then s1.emptyWays d else s1).modDie d (fun x => { x with sramPend := true, eccPend := econ, eccSince := s.now })

/-- DIE_SRAM_WRITE (18 R461). -/
def execDieSramWrite (s : State) : Out :=
  match s.cur.ev with
  | some (.dieSramWrite d v who) => .next (if s.mayWrite who then s.sramPut d v else s.refuseWrite who (Reg.dieSram d).off)
  | _ => .fault .noEvent

/-- The least number of cycles in which the slices change mode (11 R282). -/
def eccCycles : Nat := 49152

/-- The slices of a die may end their change of mode. -/
def State.eccDue (s : State) (d : Nat) : Bool := (s.die d).eccPend && decide ((s.die d).eccSince + eccCycles ≤ s.now)

/-- The SRAM rail of a die is on its way to the set point asked for. -/
def State.railMoves (s : State) (d : Nat) : Bool :=
  let x := s.die d
  x.sramPend && !x.eccPend && x.sramMv ≠ (if s.econAsked d then sramEcon else sramNormal)

/-- ECC_MODE_CHANGE_DONE (11 R282, 18 R461): into economy the rail may now drop; out of it the change is over. -/
def execEccModeChangeDone (s : State) : Out :=
  match s.cur.ev with
  | some (.eccModeChangeDone d) =>
    if s.eccDue d then
      .next (s.modDie d (fun x => { x with eccPend := false, sramPend := s.econAsked d }))
    else .next s.stall
  | _ => .fault .noEvent

/-- SRAM_RAIL_SETTLED (18 R461): at the lower set point economy holds and the change is over; at the upper one the slices begin to
return to normal service. -/
def execSramRailSettled (s : State) : Out :=
  match s.cur.ev with
  | some (.sramRailSettled d) =>
    if s.railMoves d then
      .next (s.modDie d (fun x =>
        if s.econAsked d then { x with sramMv := sramEcon, econ := true, sramPend := false }
        else { x with sramMv := sramNormal, econ := false, eccPend := true, eccSince := s.now }))
    else .next s.stall
  | _ => .fault .noEvent

/-- A write of `clu.op` (18 R460, R462): point 3 and a point whose rail would stand too far from the SRAM rail, as it is or as asked for,
are refused. -/
def State.cluPut (s : State) (d k : Nat) (v : Word) : State :=
  let p := fld v 1 0
  let mv := railMv (4 * d + k) p
  let x := s.die d
  if p = 3 || !gapOk x.sramMv mv || !gapOk (if s.econAsked d then sramEcon else sramNormal) mv then s
  else s.modDie d (fun x => { x with opWant := if x.opPt.get 2 k = p then x.opWant.del k else x.opWant.set k p })

/-- CLU_OP_WRITE (18 R462). -/
def execCluOpWrite (s : State) : Out :=
  match s.cur.ev with
  | some (.cluOpWrite d k v who) => .next (if s.mayWrite who then s.cluPut d k v else s.refuseWrite who (Reg.cluOp (4 * d + k)).off)
  | _ => .fault .noEvent

/-- The clusters that change together with cluster `k`: those that a lease of one of its strips spans (14 R354). -/
def State.tied (s : State) (d k : Nat) : List Nat :=
  let with_ (c : Nat) : List Nat := ([2 * c, 2 * c + 1].flatMap (s.leaseStrips d)).map (· / 2)
  (with_ k).eraseDups

/-- The operating point of a cluster may change (14 R354, 18 R462): every cluster tied to it changes too, and the fragments of their
leases stand at a retirement boundary. -/
def State.opReady (s : State) (d k : Nat) : Bool :=
  let l := s.tied d k
  (l.length ≤ 1 || l.all (fun c => [2 * c, 2 * c + 1].all (fun n => (s.strip d n).retired))) &&
    l.all (fun c => ((s.die d).opWant.find c).isSome)

/-- The clusters' points become those asked for. -/
def Die.setPoints (d : Die) (l : List Nat) : Die :=
  l.foldl (fun (x : Die) c => match x.opWant.find c with
    | some p => { x with opPt := x.opPt.set c p, opWant := x.opWant.del c }
    | none => x) d

/-- OP_POINT_CHANGE (14 R354, 18 R462). -/
def execOpPointChange (s : State) : Out :=
  match s.cur.ev with
  | some (.opPointChange d k) =>
    if s.opReady d k then .next (s.modDie d (·.setPoints (s.tied d k))) else .next s.stall
  | _ => .fault .noEvent

end Sys2Proof.Machine
end

