-- ==== Sys2Proof/Machine/Fabric.lean ====
section
/-!
DEFINITION. The load-store domain (20 R481-R494): translation leases that peers take and give, accesses of peers and the answers to this
package's own, recalls, timeouts, and sectors that arrive at inbound entries: PEER_LEASE_REQUEST, PEER_LEASE_REPLY, PEER_LEASE_RELEASE,
HANDLE_RECALL, PEER_ACCESS, FABRIC_TIMEOUT, CREM_SECTOR_ARRIVE, FGI_WRITE and LINK_REPLAY.
-/

namespace Sys2Proof.Machine

/-! ### Translation leases given to peers -/

/-- Handles of the package (20 R482). -/
def handleCount : Nat := 131072

/-- The lowest handle from `k` on that a table with rising keys does not list. -/
def freeHandle (k : Nat) : Tab Handle → Nat
  | [] => k
  | (j, _) :: r => if j = k then freeHandle (k + 1) r else freeHandle k r

/-- A tile of a tensor is pinned for a peer under the lowest free handle (20 R484). -/
def State.lend (s : State) (pkg svc tid idx : Nat) : State :=
  let w := ((s.desc? svc tid).bind (fun d => s.tileWord? svc tid d idx)).getD 0
  { s.addLc svc tid idx 1 with
    handles := s.handles.set (freeHandle 0 s.handles) { pkg := pkg, svc := svc, tid := tid, idx := idx, frame := w, st := 0 } }

/-- Tiles of a tensor are lent, each under a handle (20 R484). -/
def State.lendAll (s : State) (pkg svc tid : Nat) : List Nat → State × List Nat
  | [] => (s, [])
  | i :: r =>
    let z := (s.lend pkg svc tid i).lendAll pkg svc tid r
    (z.1, freeHandle 0 s.handles :: z.2)

/-- A tile of this package can be mapped for a peer, without staging (10 R260, 20 R484). -/
def State.lendable (s : State) (svc tid : Nat) (d : Desc) (idx : Nat) : Bool :=
  decide (idx < d.tiles) && (match s.tileWord? svc tid d idx with
    | some w => (resid? w false).isSome
    | none => false)

/-- A peer's descriptor agrees with the local one in rank, type, extents, tile shape and order (20 R483). -/
def Desc.agrees (d x : Desc) : Bool := d.rank = x.rank && d.ty = x.ty && d.ext == x.ext && d.tlg == x.tlg && d.ord == x.ord

/-- The tensor on which a peer asks a lease, where it may have one (20 R484). -/
def State.lendTo (s : State) (svc tid : Nat) (tiles : List Nat) (write : Bool) (like : List Word) :
    Option Desc :=
  match s.desc? svc tid with
  | none => none
  | some d => if bit (s.reg (.svcFab svc)) 0 && d.agrees (.ofWords like) && (!write || d.pw) && tiles.all (s.lendable svc tid d) then some d else none

/-- PEER_LEASE_REQUEST (20 R484): each tile is pinned and given a handle, and the handles are the answer; or the request is refused. Without
free handles it waits. The answer register of the host interface shows 1 or 0. -/
def execPeerLeaseRequest (s : State) : Out :=
  match s.cur.ev with
  | some (.peerLeaseRequest pkg svc tid tiles write like) =>
    if !s.portOpen then .next s
    else (match s.lendTo svc tid tiles write like with
    | none => .next { s.tell (.refuse pkg) with answer := 0 }
    | some _ =>
      if handleCount < s.handles.length + tiles.length then
        let q : LeaseAsk := { pkg := pkg, svc := svc, tid := tid, tiles := tiles, write := write, like := like }
        .next ({ s with leaseAsks := s.leaseAsks ++ [q] } : State).stall
      else
        let z := s.lendAll pkg svc tid tiles
        .next { z.1.tell (.grant pkg z.2) with answer := 1 })
  | _ => .fault .noEvent

/-- PEER_LEASE_RELEASE (20 R484). -/
def execPeerLeaseRelease (s : State) : Out :=
  match s.cur.ev with
  | some (.peerLeaseRelease h) =>
    (match (if s.portOpen then s.handles.find h else none) with
    | none => .next s
    | some x => .next { s.addLc x.svc x.tid x.idx (-1) with handles := s.handles.del h })
  | _ => .fault .noEvent

/-! ### Translation leases taken from peers -/

/-- The frame word that a handle of a peer gives a tile (20 R482). Log entry 66, DEDUCED. -/
def peerFrame (pkg h : Nat) : Word := wd (2 ^ 63 + 2 ^ 62 + 9 * 2 ^ 48 + pkg * 2 ^ 38 + h * 2 ^ 21)

/-- A task takes a handle for a tile: its tile map receives the class-9 frame word (20 R484). -/
def State.takeHandle (s : State) (k : Task) (tid : Nat) (d : Desc) (idx h : Nat) : State :=
  let w := peerFrame d.peer h
  let x : Held := { tid := tid, idx := idx, frame := w, count := 0, shadow := none, written := false, handle := some h }
  (s.setFrameWord d idx w).modTask k.id (fun y => if (y.held? tid idx).isSome then y else y.hold x)

/-- PEER_LEASE_REPLY (20 R484): the handles of a range's tiles, or a refusal, which is reported and leaves the task in mapping. -/
def execPeerLeaseReply (s : State) : Out :=
  match s.cur.ev with
  | some (.peerLeaseReply id ri handles) =>
    (match (if s.portOpen then s.task? id else none) with
    | none => .next s
    | some k =>
      match (if k.asked.contains ri then k.ranges[ri]? else none), handles with
      | some r, some hs =>
        (match s.desc? k.svc r.tid with
        | none => .next s
        | some d =>
          if d.home ≠ 10 || k.st ≠ .ready then .next s
          else .next (((r.tiles d).zip hs).foldl (fun z p => z.takeHandle k r.tid d p.1 p.2) s))
      | some r, none => .next (s.errReport 1 12 0 0 (r.tid % 2 ^ 48) (BitVec.ofNat 32 (fld (k.h 0) 63 32)) k.seq.toNat k.svc)
      | none, _ => .next s)
  | _ => .fault .noEvent

/-- Accesses under a recalled handle of a peer are in flight (20 R485). -/
def State.inFlight (s : State) (h : Nat) : Bool :=
  s.fab.any (fun q => decide (q.kind ≤ 3) && q.addr / 2 ^ 21 % 2 ^ 27 == h)

/-- A recall is acknowledged once the accesses in flight have completed (20 R485). -/
def State.ackRecall (s : State) (h : Nat) : State := { s.tell (.recallAck h) with ackOwed := s.ackOwed.filter (· ≠ h) }

/-- HANDLE_RECALL (20 R485): a peer recalls a handle, named by bits [47:21] of its class-9 addresses: in phase 0 this package stops sending
accesses for it and owes the acknowledgement, in phase 1 it resumes. In phase 2 the holder of a handle of this package acknowledges. -/
def execHandleRecall (s : State) : Out :=
  match s.cur.ev with
  | some (.handleRecall h phase) =>
    if !s.portOpen then .next s
    else if phase = 0 then
      .next { s with paused := if s.paused.contains h then s.paused else s.paused ++ [h]
                     ackOwed := if s.ackOwed.contains h then s.ackOwed else s.ackOwed ++ [h] }
    else if phase = 1 then .next { s with paused := s.paused.filter (· ≠ h) }
    else .next { s with handles := s.handles.map (fun p => (p.1, if p.1 = h && p.2.st = 1 then { p.2 with st := 2 } else p.2)) }
  | _ => .fault .noEvent

/-! ### Accesses of peers -/

/-- An access of a peer at its tile, as an access of this package's own (20 R486): none while it must wait, in a state that its wait has
changed. Kinds: 0 load, 1 store, 2 atomic that returns a value, 3 reduction. The answer is the sector as it was. Log entry 65, DEDUCED. -/
def State.servePeer (s : State) (h off kind op : Nat) (val : BitVec 256) (mask : BitVec 32) : Except State State :=
  match s.handles.find h with
  | none => .ok s
  | some x =>
    match s.desc? x.svc x.tid with
    | none => .ok s
    | some d =>
      let w := x.frame
      let pa := frameBase w + off
      let sec := pa / 32
      let cls := s.svcCls x.svc
      let fetch (z : State) : Except State State := .error (z.askFetch x.svc x.tid x.idx)
      let e : Entry := { sect := off / 32, op := (opCode op).1, ty := (opCode op).2, mask := mask, data := val, tag := 0 }
      match kind, resid? w false with
      | _, none => .ok s
      | 0, some r | 2, some r =>
        let here := r = .resident || r = .host ||
          (r = .drawer && !s.fetching x.svc x.tid x.idx && (kind = 0 || (s.promotion d x.idx w).isNone) && !s.linkHeld (frameBase w) d.bytes)
        if (s.linkDead (frameBase w) d.bytes).isSome then .ok (s.errReport 1 8 (homeDie pa) (homeSlice pa) pa 0 0 x.svc)
        else if !here then fetch s
        else if r = .drawer && s.untagged d x.idx then fetch s
        else if s.untagged d x.idx || !s.admits pa cls then .error s
        else if s.marked sec then .ok (s.errReport 1 (memUnit pa) (homeDie pa) (homeSlice pa) pa 0 0 x.svc)
        else
          let old := s.sectRead sec
          let s1 : State := { s.atSlice pa cls with answer := old }
          if kind = 0 then .ok s1
          else
            let n := amoBytes op
            let v := old.toNat / 2 ^ (8 * (pa % 32)) % 2 ^ (8 * n)
            .ok (match amoNew op v (val.toNat % 2 ^ 64) (val.toNat / 2 ^ 64 % 2 ^ 64) with
              | some y => s1.sectWrite sec (BitVec.ofNat 256 (y * 2 ^ (8 * (pa % 32)))) (BitVec.ofNat 32 ((2 ^ n - 1) * 2 ^ (pa % 32)))
              | none => s1)
      | _, some r =>
        let e := if kind = 1 then { e with op := 0, ty := 0 } else e
        if r = .drawer && s.filling sec then .error s
        else if r = .resident || r = .host || (r = .drawer && s.cached sec) then
          (if s.untagged d x.idx || !s.admits pa cls then .error s
           else if e.op ≠ 0 && s.marked sec then .ok (s.errReport 1 (memUnit pa) (homeDie pa) (homeSlice pa) pa 0 0 x.svc)
           else .ok ((s.atSlice pa cls).homeApply sec e.op e.ty mask val))
        else match s.append? x.svc x.tid d x.idx e with
          | some s1 => .ok s1
          | none => fetch s

/-- The place of a waiting access of a peer that may go: nothing earlier waits for its tile. -/
def State.peerGoes (s : State) (n : Nat) : Bool :=
  match s.peerQ[n]? with
  | some (.serve h _ _ _ _ _) => !(s.peerQ.take n).any (fun a => match a with
      | .serve h' _ _ _ _ _ => h' == h
      | _ => false)
  | _ => true

/-! ### Answers to accesses -/

/-- The word of a thread that awaits answers: the head of its access queue, else the one at the front. -/
def Thread.asks (th : Thread) : Nat :=
  match th.aq with
  | e :: _ => e.seq
  | [] => th.seq

/-- A sector has come for a thread's word. -/
def Thread.arrive (th : Thread) (sec : Nat) (v : BitVec 256) : Thread :=
  let old := match th.issue.inp with
    | some (q, l) => if q = th.asks then l else []
    | none => []
  { th with issue := { th.issue with inp := some (th.asks, old ++ [(sec, v)]) } }

/-- A sector has come for an engine's unit. -/
def Run.arrive (r : Run) (sec : Nat) (v : BitVec 256) : Run := { r with inp := r.inp ++ [(sec, v)] }

/-- A unit of an engine has landed where it was sent, and its run goes on (13 R334). -/
def State.unitLanded (s : State) (who : Owner) : State :=
  match who with
  | .chan c ch =>
    (match (s.chan c ch).run with
    | none => s
    | some r =>
      let z := s.landed r
      z.1.modChan c ch (fun x => { x with run := some z.2 }))
  | .strip die n =>
    (match (s.strip die n).drain with
    | none => s
    | some r =>
      let z := s.landed r
      z.1.modStrip die n (fun x => { x with drain := some z.2 }))
  | _ => s

/-- The answer to a fabric access reaches who asked (20 R486); a line of a thread's core takes a sector that the core keeps (20 R482). -/
def State.answered (s : State) (q : FabReq) (v : BitVec 256) : State :=
  let s1 : State := { s with fab := s.fab.filter (fun f => f.id ≠ q.id) }
  let reads := q.kind = 0 || q.kind = 2
  match q.who with
  | .thread c t =>
    if !reads then s1
    else
      let s2 := s1.modThread c t (fun th => th.arrive (q.addr / 32) v)
      (match q.fill, s.thread? c t with
      | some (f, task), some th => s2.l1Put c (q.addr / 32) (s.vcOf th)
          { data := v, fill := f, dirty := none, wmask := 0, task := task, stamp := none, side := none }
      | _, _ => s2)
  | .chan c ch => if reads then s1.modChan c ch (fun x => { x with run := x.run.map (·.arrive (q.addr / 32) v) }) else s1.unitLanded q.who
  | .strip die n => if reads then s1.modStrip die n (fun x => { x with drain := x.drain.map (·.arrive (q.addr / 32) v) }) else s1.unitLanded q.who
  | _ => s1

/-- HOST_STORE_ACK (20 R478): the host has performed the oldest store to a class-10 tile. The run of an engine whose store it is goes on. Log
entry 49, DEDUCED. -/
def execHostStoreAck (s : State) : Out :=
  match s.cur.ev with
  | some .hostStoreAck =>
    match s.storeQ.find? (·.host) with
    | none => .next s
    | some q =>
      let s1 := ({ s with storeQ := s.storeQ.filter (fun y => y.n ≠ q.n) } : State).applyStore q
      .next (match q.eng with
        | some who => s1.unitLanded who
        | none => s1)
  | _ => .fault .noEvent

/-- PEER_ACCESS (20 R486): a peer's access arrives, or one that waits is performed; or an answer arrives. Sectors of CREM and results of
collectives have answers of their own. -/
def execPeerAccess (s : State) : Out :=
  match s.cur.ev with
  | some (.peerAccess (.serve h off kind op val mask)) => .next (if !s.portOpen then s else { s with peerQ := s.peerQ ++ [.serve h off kind op val mask] })
  | some (.peerAccess (.perform n)) =>
    if !s.peerGoes n then .next s.stall
    else (match s.peerQ[n]? with
    | some (.serve h off kind op val mask) =>
      (match s.servePeer h off kind op val mask with
      | .ok s1 => .next { s1 with peerQ := s1.peerQ.eraseIdx n }
      | .error s1 => .next s1.stall)
    | _ => .next s.stall)
  | some (.peerAccess (.reply id v)) =>
    (match s.fab.find? (fun f => s.portOpen && f.id == id && decide (f.kind ≤ 3)) with
    | some q => .next (s.answered q v)
    | none => .next s)
  | _ => .fault .noEvent

/-! ### Timeouts -/

/-- The fabric timeout in cycles of the main clock: 0 acts as 1 µs (20 R481, R487). -/
def State.fabCycles (s : State) : Nat := 850 * max 1 (fld (s.reg .fabTmo) 19 0)

/-- A fabric access has had neither an answer nor a hold notice in time (20 R487). -/
def State.fabLate (s : State) (q : FabReq) : Bool := decide (q.since + s.fabCycles ≤ s.now)

/-- The fault value of a class-9 address that a task holds, with reason 6 (10 R259, 20 R487). -/
def State.peerVal (s : State) (k : Task) (pa : Nat) : Word :=
  match k.held.find? (fun h => frameBase h.frame / 2 ^ 21 == pa / 2 ^ 21) with
  | some h => (match s.desc? k.svc h.tid with
    | some d => faultVal h.tid 6 (h.idx * d.bytes)
    | none => faultVal h.tid 6 0)
  | none => faultVal 0 6 0

/-- FABRIC_TIMEOUT (20 R487): an access of a thread consumes an uncorrectable error; a command of an engine faults with TIMEOUT. Also the end
of an access whose peer no longer holds its handle. -/
def execFabricTimeout (s : State) : Out :=
  match s.cur.ev with
  | some (.fabricTimeout id) =>
    (match s.fab.find? (fun f => f.id == id) with
    | none => .next s
    | some q =>
      let s1 : State := { s with fab := s.fab.filter (fun f => f.id ≠ id) }
      match q.who with
      | .thread c t =>
        (match s.thread? c t with
        | none => .next s1
        | some th =>
          let w := th.oldest
          let val := match s.task? th.task with
            | some k => s.peerVal k q.addr
            | none => 0
          .next (s1.consume th.task c t w.1 q.corr 12 (dieOf c) (c % 32) q.addr val))
      | .chan c ch => .next (s1.modChan c ch (fun x => { x with run := x.run.map (·.stop 0x0B) }))
      | .strip die n => .next (s1.modStrip die n (fun x => { x with drain := x.drain.map (·.stop 0x0B) }))
      | _ => .next s1)
  | _ => .fault .noEvent

/-! ### Inbound entries -/

/-- The group that an inbound entry is bound to, running (20 R490). -/
def State.boundTo (s : State) (m : Nat) : Option Group := s.groups.find? (fun g => bit g.rxw 63 && fld g.rxw 51 40 == m)

/-- The entry is bound to a group that is saved, or whose gang is being saved (20 R491). -/
def State.boundSaved (s : State) (m : Nat) : Bool :=
  s.tasks.any (fun k => (match k.saved with
    | some v => v.groups.any (fun x => bit x.g.rxw 63 && fld x.g.rxw 51 40 == m)
    | none => false) ||
    (k.st == .saving && s.groups.any (fun g => g.task == k.id && bit g.rxw 63 && fld g.rxw 51 40 == m)))

/-- A sector at a region offset of a bound group is admitted: it lies in the region, outside every tile (20 R491). -/
def State.sectorFits (s : State) (g : Group) (off : Nat) : Bool :=
  let o := fld g.rxw 36 16 + off
  decide (off + 32 ≤ 32 * (fld g.rxw 15 0 + 1)) &&
    !(s.tilesOf g).any (fun p => decide (p.2.lo < o + 32) && decide (o < p.2.hi))

/-- Counts a refusal at an inbound entry, saturating (20 R489). -/
def State.refuseAt (s : State) (m : Nat) : State :=
  let r := s.reg (.fgi m)
  let n := min (fld r 31 16 + 1) 0xFFFF
  { s.setReg (.fgi m) (r &&& ~~~0xFFFF0000#64 ||| wd (n * 2 ^ 16)) with answer := 0 }

/-- CREM_SECTOR_ARRIVE (20 R491): the sector is written, held for a saved group, or refused. The answer is 1 for an acknowledgement, 0 for
a refusal, 2 for a hold notice. -/
def execCremSectorArrive (s : State) : Out :=
  match s.cur.ev with
  | some (.cremSectorArrive m src off val held) =>
    let r := s.reg (.fgi m)
    let admitted := bit r 63 && bit r 62 && (bit r 47 || fld r 41 32 == src)
    if !held && !s.portOpen then .next s
    else if !admitted then .next (s.refuseAt m)
    else if s.boundSaved m then
      .next { s.tell (.hold src m) with
        heldSectors := s.heldSectors ++ [{ m := m, src := src, off := off, data := val, since := s.now }], answer := 2 }
    else (match s.boundTo m with
    | none => .next (s.refuseAt m)
    | some g =>
      if s.sectorFits g off then
        let o := g.phys (fld g.rxw 36 16 + off)
        .next { (s.useBanks g.c 13 (wordsOf o 32)).spPut g.c o 32 val.toNat with answer := 1 }
      else .next (s.refuseAt m))
  | _ => .fault .noEvent

/-- A hold notice is due for a held sector: half of the interval has passed since the last (20 R491). Log entry 88, DESIGN CHOICE. -/
def State.noticeDue (s : State) (x : HeldSector) : Bool := decide (x.since + s.fabCycles / 2 ≤ s.now)

/-- The source of a held sector receives another hold notice (20 R491). -/
def State.holdAgain (s : State) (n : Nat) (x : HeldSector) : State :=
  { s.tell (.hold x.src x.m) with heldSectors := s.heldSectors.set n { x with since := s.now }, answer := 2 }

/-- The binding of an entry ends, in the group that has it and in a saved one; sectors held for it come again (20 R489, R491). -/
def State.unbindEntry (s : State) (m : Nat) : State :=
  let off (g : Group) : Group := if bit g.rxw 63 && fld g.rxw 51 40 = m then { g with rxw := g.rxw &&& ~~~(1#64 <<< 63) } else g
  { s with
    groups := s.groups.map off
    tasks := s.tasks.map (fun k => { k with saved := k.saved.map (fun v =>
      { v with groups := v.groups.map (fun x => { x with g := off x.g }) }) })
    agenda := s.agenda ++ (s.heldSectors.filter (fun x => x.m == m)).map (fun x => .cremSectorArrive x.m x.src x.off x.data true)
    heldSectors := s.heldSectors.filter (fun x => x.m ≠ m) }

/-- A write of an inbound entry (20 R489). -/
def State.fgiPut (s : State) (m : Nat) (v : Word) : State :=
  let old := s.reg (.fgi m)
  let new := Reg.stored (.fgi m) old v
  if bit old 62 && (!bit new 63 || fld new 53 48 ≠ fld old 53 48) then
    (s.setReg (.fgi m) (new &&& ~~~(1#64 <<< 62))).unbindEntry m
  else s.setReg (.fgi m) new

/-- FGI_WRITE (20 R489). -/
def execFgiWrite (s : State) : Out :=
  match s.cur.ev with
  | some (.fgiWrite m v who) => .next (if s.mayWrite who then s.fgiPut m v else s.refuseWrite who (Reg.fgi m).off)
  | _ => .fault .noEvent

/-- LINK_REPLAY (20 R487, 19 R469): a flit is sent again, and the error ring receives a record of class 5. -/
def execLinkReplay (s : State) : Out :=
  match s.cur.ev with
  | some (.linkReplay port) => .next (if bit (s.reg .fabPen) port && decide (port < 12) then s.errReport 5 12 0 0 port 0 0 0 else s)
  | _ => .fault .noEvent

end Sys2Proof.Machine
end

