-- ==== Sys2Proof/Machine/Host.lean ====
section
/-!
DEFINITION. What the host and system software do to the package beside device registers that only store (01 R33, 10 R256, 20 R476-R479,
21 R509), and scrub (19 R471): SVC_CTL_WRITE, SVC_TINV_WRITE, HOST_MEM_READ, HOST_MEM_WRITE, HOST_SNOOP, ESC_RDX_WRITE and SCRUB_LINE.
-/

namespace Sys2Proof.Machine

/-! ### Services -/

/-- SVC_CTL_WRITE (01 R32, R33). -/
def execSvcCtlWrite (s : State) : Out :=
  match s.cur.ev with
  | some (.svcCtlWrite n v who) =>
    .next (if s.mayWrite who then s.setReg (.svcCtl n) (Reg.stored (.svcCtl n) (s.reg (.svcCtl n)) v)
      else s.refuseWrite who (Reg.svcCtl n).off)
  | _ => .fault .noEvent

/-- A handle of a tile that a write of `svc.tinv` names (20 R485). -/
def tinvNames (n : Nat) (v : Word) (x : Handle) : Bool := x.svc == n && x.tid == fld v 63 52 && (bit v 51 || x.idx == fld v 32 0)

/-- Accesses that peers have sent under handles that a write of `svc.tinv` names have not been performed (20 R485). -/
def State.recalling (s : State) (n : Nat) (v : Word) : Bool :=
  s.peerQ.any (fun a => match a with
    | .serve h _ _ _ _ _ => (s.handles.find h).any (tinvNames n v)
    | _ => false)

/-- SVC_TINV_WRITE (10 R255, R256): copies of a tensor's descriptor are dropped. The write first recalls the handles that it names: it waits
until their holders have acknowledged and what peers have sent has been performed, and then releases the recall (20 R485). A held translation
of a tile stays while it is leased. -/
def execSvcTinvWrite (s : State) : Out :=
  match s.cur.ev with
  | some (.svcTinvWrite n v who) =>
    if !s.mayWrite who then .next (s.refuseWrite who (Reg.svcTinv n).off)
    else if s.recalling n v || !s.recalled (tinvNames n v) then
      let s1 : State := { s with tinvQ := s.tinvQ ++ [(n, v)] }
      .next (if s1.toRecall (tinvNames n v) then s1.recall (tinvNames n v) else s1.stall)
    else
      let s1 := s.resume (tinvNames n v)
      .next (if bit v 51 then { s1 with dcache := s1.dcache.del (4096 * n + fld v 63 52) } else s1)
  | _ => .fault .noEvent

/-! ### The window of host-managed memory -/

/-- The device physical address of a byte of the window, where `n` bytes from it lie within (20 R479). -/
def State.hdmAddr (s : State) (off n : Nat) : Option Nat :=
  let r := s.reg .hpHdm
  if s.brs.st = 2 && decide (off + n ≤ fld r 7 0 * 2 ^ 30) then some (fld r 51 30 * 2 ^ 30 + off) else none

/-- The host caches the lines of some bytes (20 R479). -/
def State.hostCaches (s : State) (pa n : Nat) : State :=
  { s with hostLines := (List.range ((pa + n - 1) / 64 + 1 - pa / 64)).foldl (fun l i =>
      if l.contains (pa / 64 + i) then l else insertUp (pa / 64 + i) l) s.hostLines }

/-- HOST_MEM_READ (20 R479): at most 32 bytes, as they stand in coherence order at the home slice. -/
def execHostMemRead (s : State) : Out :=
  match s.cur.ev with
  | some (.hostMemRead off n) =>
    (match s.hdmAddr off (min n 32) with
    | none => .next s
    | some pa => .next { s.hostCaches pa (min n 32) with answer := BitVec.ofNat 256 (s.mem.getN pa (min n 32)) })
  | _ => .fault .noEvent

/-- Bytes that the host writes, by sector. -/
def State.hostPut (s : State) (pa n v : Nat) : State :=
  let lo := pa / 32
  (List.range ((pa + n - 1) / 32 + 1 - lo)).foldl (fun z i =>
    let sec := lo + i
    let from_ := max pa (32 * sec)
    let to_ := min (pa + n) (32 * sec + 32)
    z.sectWrite sec (BitVec.ofNat 256 (v / 2 ^ (8 * (from_ - pa)) * 2 ^ (8 * (from_ - 32 * sec))))
      (BitVec.ofNat 32 ((2 ^ (to_ - from_) - 1) * 2 ^ (from_ - 32 * sec)))) s

/-- HOST_MEM_WRITE (20 R479): at most 32 bytes, performed at the home slice. -/
def execHostMemWrite (s : State) : Out :=
  match s.cur.ev with
  | some (.hostMemWrite off n v) =>
    (match s.hdmAddr off (min n 32) with
    | none => .next s
    | some pa => .next (if n = 0 then s else s.hostPut pa (min n 32) v.toNat))
  | _ => .fault .noEvent

/-- HOST_SNOOP (20 R478): every core's copies of a class-10 line of 64 bytes go; what the host then stores there stands in its memory, from
which the device's loads and the scheduler's reads of launch records take it (17 R428, 20 R476). -/
def execHostSnoop (s : State) : Out :=
  match s.cur.ev with
  | some (.hostSnoop pa val) =>
    let line := (10 * 2 ^ 48 + pa % 2 ^ 48) / 64
    let s1 := s.dropLines (2 * line) 2
    .next (match val with
      | some v => (s1.sectWrite (2 * line) (v.setWidth 256) (BitVec.allOnes 32)).sectWrite (2 * line + 1) ((v >>> 256).setWidth 256)
          (BitVec.allOnes 32)
      | none => s1)
  | _ => .fault .noEvent

/-! ### The escrow view -/

/-- ESC_RDX_WRITE (21 R509). -/
def execEscRdxWrite (s : State) : Out :=
  match s.cur.ev with
  | some (.escRdxWrite die v who) => .next (if s.mayWrite who then s.setReg (.escRdx die) (v &&& 0x3FFFF#64)
      else s.refuseWrite who (Reg.escRdx die).off)
  | _ => .fault .noEvent

/-! ### Scrub -/

/-- The physical sectors that an uncorrectable error at an address spoils: one, or a drawer block of 256 bytes (19 R466). -/
def spoiled (unit loc : Nat) : List Nat :=
  if unit = 8 then (List.range 8).map (fun i => loc / 256 * 8 + i) else [loc / 32]

/-- The L1 of a core meets an uncorrectable error in a sector: a clean one is dropped; a dirty one goes home with its mark (19 R466, R467). -/
def State.l1Spoil (s : State) (c sec : Nat) : State :=
  match (s.core c).l1.find sec with
  | none => s
  | some x =>
    let s1 := if x.dirty.isSome then s.l1Send c sec (s.svcVc ((s.task? x.task).elim 0 (·.svc))) x true else s
    s1.modCore c (fun k => { k with l1 := k.l1.del sec })

/-- Containment strikes a task of which no word is at hand: the record of its first thread has the fault value (16 R415). Log entry 67,
DEDUCED. -/
def State.doomBy (s : State) (k : Task) (val : Word) : State :=
  let ths := s.threads.filter (·.task == k.id) ++ (k.saved.map (·.threads)).getD []
  (s.modTask k.id (fun y => { y with culprit := match y.culprit, ths with
    | none, th :: _ => some (th.c, th.t, th.oldest.1, val)
    | x, _ => x })).doomTask k.id 2

/-- An escrow entry meets an uncorrectable error (12 R312): its task is discarded, or its tile is lost. -/
def State.escSpoil (s : State) (die i : Nat) : State :=
  match (s.die die).esc.find i with
  | none => s
  | some e =>
    match s.desc? e.svc e.tid with
    | none => s
    | some d =>
      let s1 := s.freeEntry d die i
      if e.tag = 0 then
        (match s1.tileWord? e.svc e.tid d e.idx with
        | some w => s1.moveFrame e.svc e.tid d e.idx (w &&& 0x7FFFFFFFFFFFFFFF)
        | none => s1)
      else match s1.tasks.find? (fun k => k.svc == e.svc && escTag k.id == e.tag && k.guarded) with
        | some k => s1.doomBy k (faultVal e.tid 6 (e.idx * d.bytes))
        | none => s1

/-- A stamp meets an uncorrectable error (19 R468). -/
def State.stampSpoil (s : State) (sec : Nat) : State :=
  match s.stamps.find sec with
  | some x => { s.incomplete x.tag with stamps := s.stamps.del sec }
  | none => s

/-- A register of a thread, or an entry of the tile table of a core, meets an uncorrectable error (19 R466): s0, a0 and the queue ports hold
none. -/
def State.regSpoil (s : State) (c loc : Nat) : State :=
  if entryLoc 0 ≤ loc then
    s.modCore c (fun k => match k.tiles.find (loc - entryLoc 0) with
      | some y => { k with tiles := k.tiles.set (loc - entryLoc 0) { y with mark := true } }
      | none => k)
  else
    let r := loc % 256
    if (r < 64 && 0 < r % 32 && r % 32 < 28) || (64 ≤ r && r < 72) then
      s.modThread c (loc / 256) (fun th => { th with f := { th.f with marks := insertUp r (th.f.marks.filter (· ≠ r)) } })
    else s

/-- An instruction cache meets a parity error: the group of words goes, and is fetched again (19 R466). -/
def State.codeSpoil (s : State) (c loc : Nat) : State := s.modCore c (fun k => { k with icache := k.icache.del (loc / 16) })

/-- The mark that an uncorrectable error leaves in a memory of 19 Table 19.1: of the scratchpad (0), an L1 (1), operand memory (3), an
accumulator (4), the shared cache (5), the escrow store (6), near memory (7), the drawer (8), registers and tile table (9) and the stamp store
(11); of the instruction cache (2) the group of words is dropped. Log entry 67, DEDUCED. -/
def State.spoil (s : State) (unit die wh loc : Nat) : State :=
  match unit with
  | 0 =>
    let c := 32 * die + wh
    let k := spKey c loc
    if objAddr 0 ≤ loc then s.modCore c (fun z => { z with bars := z.bars.set ((loc - objAddr 0) / 16)
                                                                    { z.bar ((loc - objAddr 0) / 16) with mark := true } })
    else if s.spPoison.contains k then s else { s with spPoison := insertUp k s.spPoison }
  | 1 => s.l1Spoil (32 * die + wh) (loc / 32)
  | 2 => s.codeSpoil (32 * die + wh) loc
  | 3 => s.modStrip die wh (fun y =>
      let sl := y.slots.get Slot.init (loc / 4096)
      { y with slots := y.slots.set (loc / 4096) { sl with marks := sl.marks ++ [loc % 4096] } })
  | 4 => s.modStrip die wh (fun y =>
      let a := y.acc.get Acc.init (loc / 65536)
      { y with acc := y.acc.set (loc / 65536) { a with marks := a.marks ++ [loc % 65536] } })
  | 5 | 7 | 8 => (spoiled unit loc).foldl (fun z x => z.mark x) s
  | 6 => s.escSpoil die loc
  | 9 => s.regSpoil (32 * die + wh) loc
  | 11 => s.stampSpoil (loc / 32)
  | _ => s

/-- The memories of a die over which scrub walks: their unit of 19 Table 19.1, how many there are, and the lines of each. Operand memory is
taken by sectors, an accumulator by 16 elements, the shared cache by ways of slices. Log entry 87, DESIGN CHOICE. -/
def scrubMap : List (Nat × Nat × Nat) :=
  [(0, 32, 32768), (1, 32, 4096), (2, 32, 4096), (3, 8, 65536), (4, 8, 8192), (5, 512, 3072), (6, 1, 174762), (7, 1, 2 ^ 29), (8, 1, 2 ^ 37),
   (9, 32, 2304), (11, 1, 32 * 65536)]

/-- The unit, the memory and the line of a number of the walk. -/
def scrubPlace : List (Nat × Nat × Nat) → Nat → Option (Nat × Nat × Nat)
  | [], _ => none
  | (u, m, k) :: r, n => if n < m * k then some (u, n / k, n % k) else scrubPlace r (n - m * k)

/-- What stands at line `i` of a memory of a die: core, slice or strip, and location, word `x` of the line; none where nothing is held. -/
def State.scrubAt (s : State) (die unit m i x : Nat) : Option (Nat × Nat) :=
  let at_ (pa : Nat) : Nat × Nat := (homeSlice pa, pa)
  match unit with
  | 0 => some (m, 64 * i + 8 * (x % 8))
  | 1 => ((s.core (32 * die + m)).l1[i]?).map (fun p => (m, 32 * p.1))
  | 2 => ((s.core (32 * die + m)).icache[i]?).map (fun p => (m, 16 * p.1))
  | 3 => some (m, i)
  | 4 => some (m, 16 * i + x % 16)
  | 5 => (((s.die die).cache.filter (fun p => p.2.slice = m / 16 && p.2.way = m % 16))[i]?).map (fun p => at_ (64 * p.1 + 32 * (x % 2)))
  | 6 => ((s.die die).esc.find i).map (fun _ => (0, i))
  | 7 => some (at_ (die * 2 ^ 48 + 64 * i + 32 * (x % 2)))
  | 8 => some (at_ (8 * 2 ^ 48 + 256 * (8 * i + die)))
  | 9 => some (m, i)
  | _ => ((s.stamps.filter (fun p => homeDie (32 * p.1) = die))[i]?).map (fun p => at_ (32 * p.1))

/-- A request is using a line when scrub reaches it (19 R471). -/
def State.scrubBusy (s : State) (die unit wh loc : Nat) : Bool :=
  match unit with
  | 0 => (List.range 8).any (fun i => decide (s.now < (s.core (32 * die + wh)).busy.get 0 (loc / 64 * 8 % 32 + i)))
  | 3 => ((s.strip die wh).slots.get Slot.init (loc / 4096)).st.any (fun t => t == .filling || t == .draining)
  | 4 => (s.strip die wh).drain.isSome || (s.strip die wh).run.isSome
  | 5 | 7 => (s.storeQ.map (·.pa) ++ s.homeQ.map (·.pa) ++ (s.waits.filter (·.got.isNone)).map (·.pa)).any (fun p => p / 64 == loc / 64)
  | 8 => s.links.any (fun p => (p.2.wait ++ p.2.sent).any (fun q => q.pa / 256 == loc / 256))
  | _ => false

/-- SCRUB_LINE (19 R471, 18 R459): within the budget the next line of the walk is read, but for one in use, which waits for the next round;
over it the walk stands still until the next period. A corrected error is reported as class 0, an uncorrectable one as class 1, and its mark
stays. An error that a request meets is reported then: corrected before use, or uncorrectable, of class 1 unless the request consumes it (19
R466, R469). -/
def execScrubLine (s : State) : Out :=
  match s.cur.ev with
  | some (.scrubLine die sub err) =>
    if fld (s.reg (.actBud die)) 9 0 ≤ (s.die die).usedScr then .next s.stall
    else
      let n := (s.die die).scrub
      let s1 := s.modDie die (fun d => { d with usedScr := d.usedScr + 1, scrub := if (scrubPlace scrubMap (n + 1)).isSome then n + 1 else 0 })
      (match scrubPlace scrubMap n with
      | none => .next s1
      | some (u, m, i) => match s.scrubAt die u m i sub, err with
        | some (wh, loc), some ok =>
          if s.scrubBusy die u wh loc then .next s1
          else .next (if ok then s1.errReport 0 u die wh loc 0 0 0 else (s1.errReport 1 u die wh loc 0 0 0).spoil u die wh loc)
        | _, _ => .next s1)
  | some (.memoryError u die wh loc found) =>
    .next (if found = 0 then s.errReport 0 u die wh loc 0 0 0
      else ((if found = 1 then s.errReport 1 u die wh loc 0 0 0 else s).spoil u die wh loc))
  | _ => .fault .noEvent

end Sys2Proof.Machine
end

