-- ==== Sys2Proof/Machine/Firmware.lean ====
section
/-!
DEFINITION. The bursar (22): reset and bring-up (R510), firmware trust (R511), consent to service tuning (R515) and attestation (R517):
DEVICE_RESET, FIRMWARE_VERIFY, LOAD_COMPLETE, BRS_STAT_UPD, BRS_TUNE_WRITE, ATT_CTL_GO and ATT_SIGN_DONE.
-/

namespace Sys2Proof.Machine

/-- DEVICE_RESET (22 R510, R511, R514): everything is as at package reset; the installed image stays, takes effect and raises the minimum
version to its own, and the free values go on. -/
def execDeviceReset (s : State) : Out :=
  match s.cur.ev with
  | some .deviceReset =>
    .next { State.reset with
      freeCount := s.freeCount, cur := { s.cur with ev := none, stalled := false }
      brs := { State.reset.brs with svn := BitVec.ofNat 16 (max s.brs.svn.toNat ((s.brs.installed.map (·.toNat)).getD 0)), installed := s.brs.installed } }
  | _ => .fault .noEvent

/-- The least security version of an image that is accepted (22 R511, R513). -/
def State.svnMin (s : State) : Nat := max s.brs.svn.toNat (Config.svnFuse).toNat

/-- FIRMWARE_VERIFY (22 R511, Table 22.1): in boot the installed image, or without one the image at hand, is verified: accepted, it runs and
raises the minimum; in an update an accepted image is installed for the next reset. A rejected image sends the package to recovery, where it
is no longer the installed one. `ok` says whether the signature is valid, `ver` is the version of the image at hand. Log entry 68, DEDUCED. -/
def execFirmwareVerify (s : State) : Out :=
  match s.cur.ev with
  | some (.firmwareVerify ok ver) =>
    let b := s.brs
    let v := if b.st = 0 then b.installed.getD ver else ver
    let good := ok && decide (s.svnMin ≤ v.toNat)
    .next (if b.st = 0 then
        { s with brs := if good then { b with st := 1, ver := v, svn := v, installed := some v } else { b with st := 3, installed := none } }
      else if b.updating then
        { s with brs := if good then { b with updating := false, installed := some v } else { b with updating := false, st := 3 } }
      else s)
  | _ => .fault .noEvent

/-- The bursar enables the links that are down, which begin training (12 R320, Table 12.4). -/
def State.enableLinks (s : State) : State :=
  ((List.range 16).filter (fun l => (s.link l).st = .down)).foldl (fun z l => z.enableLink l) s

/-- LOAD_COMPLETE (22 R510, Table 22.1; 20 R481): in load the bursar enables every link, and with none left in training it writes `fab.id`
and the package is ready. Log entry 68, DEDUCED. -/
def execLoadComplete (s : State) : Out :=
  match s.cur.ev with
  | some .loadComplete =>
    .next (if s.brs.st ≠ 1 then s
      else if (List.range 16).any (fun l => (s.link l).st = .down) then s.enableLinks
      else if (List.range 16).any (fun l => (s.link l).st = .training) then s.stall
      else { s with brs := { s.brs with st := 2, pkg := Config.pkgNumber } })
  | _ => .fault .noEvent

/-- BRS_STAT_UPD (22 R510, R511, R513): in recovery the boot ROM verifies the image; in load and ready it is verified to be installed. A
request while a verification runs is ignored. -/
def execBrsStatUpd (s : State) : Out :=
  match s.cur.ev with
  | some .brsStatUpd =>
    .next (if s.brs.st = 3 then { s with brs := { s.brs with st := 0 } }
      else if s.brs.st = 0 then s
      else { s with brs := { s.brs with updating := true } })
  | _ => .fault .noEvent

/-- The bursar tunes a link again, if a service did, and restores its last consistent lane map (22 R515, 12 R325). -/
def State.takeBack (s : State) (l : Nat) : State :=
  if bit (s.reg (.phOwn l)) 7 then (s.setReg (.phOwn l) (s.reg (.phOwn l) &&& ~~~0x80#64)).restoreLanes l else s

/-- BRS_TUNE_WRITE (22 R513, R515): only the host writes it. -/
def execBrsTuneWrite (s : State) : Out :=
  match s.cur.ev with
  | some (.brsTuneWrite v who) =>
    .next (if who = .host then
        ((List.range 16).filter (fun l => bit (s.reg .brsTune) l && !bit v l)).foldl (fun z l => z.takeBack l)
          (s.setReg .brsTune (v &&& 0xFFFF#64))
      else s.refuseWrite who Reg.brsTune.off)
  | _ => .fault .noEvent

/-- ATT_CTL_GO (22 R517): a signature begins over the nonce as it stands. -/
def execAttCtlGo (s : State) : Out :=
  match s.cur.ev with
  | some .attCtlGo =>
    .next (if s.brs.busy then s else { s with brs := { s.brs with busy := true, ok := false, signing := s.brs.nonce } })
  | _ => .fault .noEvent

/-- The digest that a signature covers: of the nonce, the running image's digest, the fuse digest and the capability list's (22 R517). -/
def State.attDigest (s : State) : BitVec 256 :=
  Config.sm3 [(List.range 4).foldr (fun i x => x * 2 ^ 64 + (s.brs.signing.get 0 i).setWidth 256) 0,
    Config.imageDigest s.brs.ver, Config.fuseDigest, Config.capsDigest]

/-- ATT_SIGN_DONE (22 R517): the bursar writes the signature, then sets `att.ctl.ok`. -/
def execAttSignDone (s : State) : Out :=
  match s.cur.ev with
  | some .attSignDone =>
    .next (if s.brs.busy then
        ({ s with brs := { s.brs with busy := false, ok := true, sig := Config.sm2Sign s.attDigest s.freeCount } } : State).bump
      else s)
  | _ => .fault .noEvent

end Sys2Proof.Machine
end

