-- ==== Sys2Proof/Machine/Devreg.lean ====
section
/-!
DEFINITION. Accesses to the device-register space (00 R6): REGISTER_WRITE and REGISTER_READ. A write of a register that has a step of its
own makes that step next.
-/

namespace Sys2Proof.Machine

/-- Makes a step the next one. -/
def State.soon (s : State) (e : Event) : State := { s with agenda := e :: s.agenda }

/-- Registers of the chapter on the bursar, which the host reaches in every state of bring-up (22 R510). -/
def Reg.early : Reg → Bool
  | .brsStat | .brsPriv | .brsTune | .fabPen | .brsImg | .pkgTime | .dwWin _ | .attCtl | .attNonce _ | .attSig _ | .dbgReq
  | .attPub _ | .attClen | .attCert _ => true
  | _ => false

/-- The register at an offset that an agent reaches now. -/
def State.regAt (s : State) (off : Nat) (who : Agent) : Option Reg :=
  match decodeReg off with
  | none => none
  | some r => if who == .host && s.brs.st ≠ 2 && !r.early then none else some r

/-- The step that a request of the debug interface asks for (22 R516). -/
def dbgEvent (v : Word) : Option Event :=
  let c := fld v 23 16
  let t := fld v 15 13
  match fld v 2 0 with
  | 1 => some (.dbgStop c t)
  | 2 => some (.dbgRelease c t)
  | 3 => some (.dbgSetTrcDbg c t)
  | 4 => some (.dbgClearTrcDbg c t)
  | _ => none

/-- A write of `dl.ctl` (12 R320, R323): the bursar's bit 0, and bit 1. A privileged service writes `dl.ctl.rt` only: bit 1 is set, and bit 0
is clear or as it stands; none for any other write. Log entry 64, DEDUCED. -/
def State.dlCtlSteps (s : State) (l : Nat) (v : Word) (who : Agent) : Option (List Event) :=
  let en := bit (s.reg (.dlCtl l)) 0
  let rt : List Event := if bit v 1 then [.dlRetrain l who] else []
  match who with
  | .bursar => some ((if bit v 0 && !en then [.dlEnable l] else if !bit v 0 && en then [.dlDisable l] else []) ++ rt)
  | .service c t => if s.privAt c t && bit v 1 && (!bit v 0 || en) then some rt else none
  | .host => none

/-- The steps that a write of a register makes; none for a register that only stores. -/
def State.stepsOf (s : State) (r : Reg) (v : Word) (who : Agent) : Option (List Event) :=
  let host (l : List Event) : Option (List Event) := some (if who = .host then l else [])
  match r with
  | .svcCtl n => some [.svcCtlWrite n v who]
  | .svcTinv n => some [.svcTinvWrite n v who]
  | .dieSram d => some [.dieSramWrite d v who]
  | .cluOp k => some [.cluOpWrite (k / 4) (k % 4) v who]
  | .fgi m => some [.fgiWrite m v who]
  | .escRdx d => some [.escRdxWrite d v who]
  | .nfBase k z => some [.nfBaseWrite k z v who]
  | .nfPut k z => some [.nfPut k z v who]
  | .nfDrop k z => some [.nfDrop k z v who]
  | .phOwn l => some [.phOwnWrite l v who]
  | .bmxClr c => some [.bmxClr c who]
  | .lnqTail n q => some [.lnqTailWrite n q v who]
  | .dlCtl l => s.dlCtlSteps l v who
  | .brsTune => some [.brsTuneWrite v who]
  | .brsStat => host (if bit v 3 then [.brsStatUpd] else [])
  | .attCtl => host (if bit v 0 then [.attCtlGo] else [])
  | .dbgReq => host (match dbgEvent v with
      | some e => [e]
      | none => [])
  | _ => none

/-- An agent may write a register (01 R32, 20 R479, 22 R513). -/
def State.regWriter (s : State) (r : Reg) (who : Agent) : Bool :=
  match r with
  | .brsPriv | .brsImg | .attNonce _ => who == .host
  | .fabPen => who == .host || who == .bursar
  | .dlCtl _ => false
  | _ => s.mayWrite who

/-- Registers of the bursar and of the host alone, whose writes by any service take PRIVILEGED (22 R513). -/
def Reg.notService : Reg → Bool
  | .brsStat | .brsPriv | .brsTune | .fabPen | .brsImg | .attCtl | .attNonce _ | .attSig _ | .dbgReq | .dwWin _ => true
  | _ => false

/-- Registers every field of which is RO or RC: a write is ignored, without a trap (00 R6). -/
def Reg.readOnly : Reg → Bool
  | .scEcc _ | .tlStat _ | .alwBal _ | .dieCurst _ | .enTab _ | .errHead | .errCnt _ | .fabId | .pkgTime | .dwWin _ | .attSig _
  | .svcKhead _ | .escStat _ | .escRd _ _ | .attPub _ | .attClen | .attCert _ | .dlStat _ | .trcHead _ | .recHead _ | .lnqStat _ _
  | .bmx _ _ => true
  | _ => false

/-- A write of a register that only stores (00 R6). -/
def State.regPut (s : State) (r : Reg) (v : Word) (who : Agent) : State :=
  match r with
  | .ring l i => s.ringWrite l i v who
  | .slotOut l i => s.slotWrite l (.slotOut l i) v who
  | .slotIn l i => s.slotWrite l (.slotIn l i) v who
  | _ =>
    if r.readOnly then s
    else if !s.regWriter r who then s.refuseWrite who r.off
    else match r with
      | .attNonce i => { s with brs := { s.brs with nonce := s.brs.nonce.set i v } }
      | .nfStat k z => s.setReg (.nfStat k z) (s.reg (.nfStat k z) &&& ~~~(v &&& 0xC000000000000000#64))
      | _ => s.setReg r (r.stored (s.reg r) v)

/-- REGISTER_WRITE (00 R6). A write where no register lies does nothing. Log entry 64, DEDUCED. -/
def execRegisterWrite (s : State) : Out :=
  match s.cur.ev with
  | some (.registerWrite off v who) =>
    (match s.regAt off who with
    | none => .next s
    | some r => if r.notService && who != .host && who != .bursar then .next (s.refuseWrite who off) else match s.stepsOf r v who with
      | some l => .next (l.foldr (fun e z => z.soon e) s)
      | none => .next (s.regPut r v who))
  | _ => .fault .noEvent

/-- REGISTER_READ (00 R6): the answer is the register's value, and fields that a read clears are cleared; zero where no register lies. -/
def execRegisterRead (s : State) : Out :=
  match s.cur.ev with
  | some (.registerRead off who) =>
    (match s.regAt off who with
    | none => .next { s with answer := 0 }
    | some r => .next { s.regReadEffect r with answer := (s.regVal r).setWidth 256 })
  | _ => .fault .noEvent

end Sys2Proof.Machine
end

