-- ==== Sys2Proof/Machine/Front.lean ====
section
/-!
DEFINITION. The S words (05): arithmetic, immediates and moves, selection, branches and calls, the hardware loops and the
L word. The front executes them in program order.
-/

namespace Sys2Proof.Machine

/-! ### Functions of words -/

/-- Leading zero bits of a word (05 R128). -/
def clz64 (x : Word) : Nat := if x = 0 then 64 else 63 - x.toNat.log2

/-- Trailing zero bits among the low `n` bits of a natural value; `n` for none set. -/
def ctzN : Nat → Nat → Nat
  | 0, _ => 0
  | n + 1, v => if v % 2 = 1 then 0 else 1 + ctzN n (v / 2)

/-- One bits among the low `n` bits of a natural value. -/
def popN : Nat → Nat → Nat
  | 0, _ => 0
  | n + 1, v => v % 2 + popN n (v / 2)

/-- 1 or 0. -/
def b2w (b : Bool) : Word := if b then 1 else 0

/-- Bits [127:64] of the signed product (05 Table 5.2). -/
def mulHigh (x y : Word) : Word := BitVec.ofInt 64 (x.toInt * y.toInt / 2 ^ 64)

/-- Bits [127:64] of the natural product (05 Table 5.2). -/
def mulHighN (x y : Word) : Word := wd (x.toNat * y.toNat / 2 ^ 64)

/-- Signed quotient toward zero; −2^63 by −1 wraps (05 R127). -/
def quotS (x y : Word) : Word := BitVec.ofInt 64 (x.toInt.tdiv y.toInt)

/-- Signed remainder with the sign of the dividend (05 R127). -/
def remS (x y : Word) : Word := BitVec.ofInt 64 (x.toInt.tmod y.toInt)

/-- Field `k` of a work identifier under widths `ws` (05 R131, 01 R27). -/
def widField (ws x : Word) (k : Nat) : Word :=
  let w (i : Nat) : Nat := fld ws (6 * i + 5) (6 * i)
  let lo := (List.range k).foldl (fun n i => n + w i) 0
  wd (x.toNat / 2 ^ lo % 2 ^ w k)

/-! ### Shapes of S words -/

/-- A word of two sources and a destination (05 R122, R126). -/
def opRR (s : State) (d a b : BitVec 5) (f : Word → Word → Word) : Out :=
  sWord s (fun th => do
    th.sReady s.now [a, b]
    th.sRoom d
    .ok ((th.sPop [a, b]).sPut d (f (th.sVal a) (th.sVal b)), none))

/-- A division: a zero divisor takes DIVZERO with the dividend, nothing popped or pushed (05 R127). -/
def opDiv (s : State) (d a b : BitVec 5) (f : Word → Word → Word) : Out :=
  sWord s (fun th => do
    th.sReady s.now [a, b]
    if th.sVal b = 0 then .error (.trap 0x04 (th.sVal a))
    else
      th.sRoom d
      .ok ((th.sPop [a, b]).sPut d (f (th.sVal a) (th.sVal b)), none))

/-- A word of one source and a destination. -/
def opR (s : State) (d a : BitVec 5) (f : Thread → Word → Word) : Out :=
  sWord s (fun th => do
    th.sReady s.now [a]
    th.sRoom d
    .ok ((th.sPop [a]).sPut d (f th (th.sVal a)), none))

/-- The thread after a taken transfer to `t` from address `p`, which leaves the loops it jumps out of (05 R138). -/
def Thread.jump (th : Thread) (p t : Word) : Thread := th.setLoops (leaveLoops p t th.loops)

/-- A conditional branch (05 R133). -/
def opBranch (s : State) (a b : BitVec 5) (off : Word) (c : Word → Word → Bool) : Out :=
  sWord s (fun th => do
    th.sReady s.now [a, b]
    let th1 := th.sPop [a, b]
    if c (th.sVal a) (th.sVal b) then
      let t := s.cur.e.addr + 4 * off
      .ok (th1.jump s.cur.e.addr t, some t)
    else .ok (th1, none))

/-- A target held in a register must be word-aligned; else ALIGN, nothing written or popped (05 R134). -/
def opRegJump (s : State) (a : BitVec 5) (off : Word) (link : Bool) : Out :=
  sWord s (fun th => do
    th.sReady s.now [a]
    let t := th.sVal a + off
    if t &&& 3#64 ≠ 0 then .error (.trap 0x05 t)
    else
      let th1 := th.sPop [a]
      if link then .ok (th1.sPut 27 s.cur.e.after, some t) else .ok (th1.jump s.cur.e.addr t, some t))

/-- The checks of a loop word before it opens a level (05 R136 steps 2 to 4): four levels active, a body that ends
beyond the enclosing one, an enclosing LOOPS level. -/
def Thread.loopIllegal (th : Thread) (last : Word) : Bool :=
  decide (4 ≤ th.loops.length) || (match th.loops with
    | [] => false
    | l :: _ => decide (l.last < last) || l.pipelined)

/-- LOOP and LOOPI: a zero count skips the body; otherwise a level opens (05 R136). -/
def Thread.openLoop (th : Thread) (e : QEntry) (n count : Nat) : Except Stop (Thread × Option Word) :=
  let last := e.addr + wd (4 * n)
  if count = 0 then .ok (th, some (last + 4))
  else if th.loopIllegal last then .error (.trap 0x01 e.wordVal)
  else
    let l : Loop := { addr := e.addr, first := e.addr + 4, last := last, count := count, j := 0, pipelined := false,
                      n := count, stages := 1, map := 0 }
    .ok (th.setLoops (l :: th.loops), some (e.addr + 4))

/-- LOOPS (05 R141): the checks come first, then a zero count skips the body. -/
def Thread.openLoops (th : Thread) (e : QEntry) (n st : Nat) (iters : Nat) (map : Word) :
    Except Stop (Thread × Option Word) :=
  let last := e.addr + wd (4 * n)
  if th.loopIllegal last || (List.range n).any (fun i => decide (st ≤ fld map (2 * i + 1) (2 * i))) then
    .error (.trap 0x01 e.wordVal)
  else if iters = 0 then .ok (th, some (last + 4))
  else
    let l : Loop := { addr := e.addr, first := e.addr + 4, last := last, count := iters + st - 1, j := 0,
                      pipelined := true, n := iters, stages := st, map := map }
    .ok (th.setLoops (l :: th.loops), some (e.addr + 4))

/-- The effect of LEXIT on the levels (05 R143): without drain level 0 is popped and the outer test follows at its last
word; with drain no new iteration starts. -/
def lexitLoops (drain : Bool) : List Loop → List Loop × Option Word
  | [] => ([], none)
  | l :: r =>
    if drain then
      let n := min l.n (l.j + 1)
      (if l.pipelined then ({ l with n := n, count := n + l.stages - 1 } :: r, none)
       else ({ l with count := min l.count (l.j + 1) } :: r, none))
    else
      let x := loopBack l.last r (l.last + 4)
      (x.1, some x.2)

/-- The value of LCNT (05 R144). -/
def Thread.lcntVal (th : Thread) (lev : Nat) (rem : Bool) : Word :=
  match th.loops[lev]? with
  | none => 0xFFFFFFFFFFFFFFFF
  | some l => if rem then wd (l.count - l.j) else wd l.j

/-! ### The words -/

/-- ADD (05 Table 5.2). -/
def execAdd (d a b : BitVec 5) (s : State) : Out :=
  opRR s d a b (fun x y => x + y)

/-- SUB (05 Table 5.2). -/
def execSub (d a b : BitVec 5) (s : State) : Out :=
  opRR s d a b (fun x y => x - y)

/-- MUL: the low 64 bits (05 Table 5.2). -/
def execMul (d a b : BitVec 5) (s : State) : Out :=
  opRR s d a b (fun x y => x * y)

/-- MULH (05 Table 5.2). -/
def execMulh (d a b : BitVec 5) (s : State) : Out :=
  opRR s d a b mulHigh

/-- MULHN (05 Table 5.2). -/
def execMulhn (d a b : BitVec 5) (s : State) : Out :=
  opRR s d a b mulHighN

/-- DIV (05 R127). -/
def execDiv (d a b : BitVec 5) (s : State) : Out :=
  opDiv s d a b quotS

/-- DIVN (05 R127). -/
def execDivn (d a b : BitVec 5) (s : State) : Out :=
  opDiv s d a b (fun x y => x / y)

/-- REM (05 R127). -/
def execRem (d a b : BitVec 5) (s : State) : Out :=
  opDiv s d a b remS

/-- REMN (05 R127). -/
def execRemn (d a b : BitVec 5) (s : State) : Out :=
  opDiv s d a b (fun x y => x % y)

/-- AND (05 Table 5.2). -/
def execAnd (d a b : BitVec 5) (s : State) : Out :=
  opRR s d a b (fun x y => x &&& y)

/-- OR (05 Table 5.2). -/
def execOr (d a b : BitVec 5) (s : State) : Out :=
  opRR s d a b (fun x y => x ||| y)

/-- XOR (05 Table 5.2). -/
def execXor (d a b : BitVec 5) (s : State) : Out :=
  opRR s d a b (fun x y => x ^^^ y)

/-- SHL: bits [63:6] of the count are ignored (05 Table 5.2). -/
def execShl (d a b : BitVec 5) (s : State) : Out :=
  opRR s d a b (fun x y => x <<< (y.toNat % 64))

/-- SHR (05 Table 5.2). -/
def execShr (d a b : BitVec 5) (s : State) : Out :=
  opRR s d a b (fun x y => x >>> (y.toNat % 64))

/-- SRA (05 Table 5.2). -/
def execSra (d a b : BitVec 5) (s : State) : Out :=
  opRR s d a b (fun x y => x.sshiftRight (y.toNat % 64))

/-- SLT (05 Table 5.2). -/
def execSlt (d a b : BitVec 5) (s : State) : Out :=
  opRR s d a b (fun x y => b2w (x.slt y))

/-- SLTN (05 Table 5.2). -/
def execSltn (d a b : BitVec 5) (s : State) : Out :=
  opRR s d a b (fun x y => b2w (x.ult y))

/-- SEQ (05 Table 5.2). -/
def execSeq (d a b : BitVec 5) (s : State) : Out :=
  opRR s d a b (fun x y => b2w (x == y))

/-- MIN (05 Table 5.2). -/
def execMin (d a b : BitVec 5) (s : State) : Out :=
  opRR s d a b (fun x y => if x.slt y then x else y)

/-- MINN (05 Table 5.2). -/
def execMinn (d a b : BitVec 5) (s : State) : Out :=
  opRR s d a b (fun x y => if x.ult y then x else y)

/-- MAX (05 Table 5.2). -/
def execMax (d a b : BitVec 5) (s : State) : Out :=
  opRR s d a b (fun x y => if x.slt y then y else x)

/-- MAXN (05 Table 5.2). -/
def execMaxn (d a b : BitVec 5) (s : State) : Out :=
  opRR s d a b (fun x y => if x.ult y then y else x)

/-- CLZ (05 R128). -/
def execClz (d a : BitVec 5) (s : State) : Out :=
  opR s d a (fun _ x => wd (clz64 x))

/-- CTZ (05 R128). -/
def execCtz (d a : BitVec 5) (s : State) : Out :=
  opR s d a (fun _ x => wd (ctzN 64 x.toNat))

/-- POPC (05 R128). -/
def execPopc (d a : BitVec 5) (s : State) : Out :=
  opR s d a (fun _ x => wd (popN 64 x.toNat))

/-- WFLD: the widths are those of the issuing thread's launch (05 R131). -/
def execWfld (d a : BitVec 5) (k : BitVec 3) (s : State) : Out :=
  opR s d a (fun th x => widField th.widw x k.toNat)

/-- ADDI (05 R129). -/
def execAddi (d a : BitVec 5) (i : BitVec 13) (pre : Option (BitVec 29)) (s : State) : Out :=
  opR s d a (fun _ x => x + immS i pre)

/-- ANDI (05 R129). -/
def execAndi (d a : BitVec 5) (i : BitVec 13) (pre : Option (BitVec 29)) (s : State) : Out :=
  opR s d a (fun _ x => x &&& immS i pre)

/-- ORI (05 R129). -/
def execOri (d a : BitVec 5) (i : BitVec 13) (pre : Option (BitVec 29)) (s : State) : Out :=
  opR s d a (fun _ x => x ||| immS i pre)

/-- XORI (05 R129). -/
def execXori (d a : BitVec 5) (i : BitVec 13) (pre : Option (BitVec 29)) (s : State) : Out :=
  opR s d a (fun _ x => x ^^^ immS i pre)

/-- SLTI (05 R129). -/
def execSlti (d a : BitVec 5) (i : BitVec 13) (pre : Option (BitVec 29)) (s : State) : Out :=
  opR s d a (fun _ x => b2w (x.slt (immS i pre)))

/-- SHLI (05 R129). -/
def execShli (d a : BitVec 5) (c : BitVec 6) (s : State) : Out :=
  opR s d a (fun _ x => x <<< c.toNat)

/-- SHRI (05 R129). -/
def execShri (d a : BitVec 5) (c : BitVec 6) (s : State) : Out :=
  opR s d a (fun _ x => x >>> c.toNat)

/-- SRAI (05 R129). -/
def execSrai (d a : BitVec 5) (c : BitVec 6) (s : State) : Out :=
  opR s d a (fun _ x => x.sshiftRight c.toNat)

/-- MOVI (05 R130). -/
def execMovi (d : BitVec 5) (i : BitVec 18) (pre : Option (BitVec 29)) (s : State) : Out :=
  sWord s (fun th => do
    th.sRoom d
    .ok (th.sPut d (immS i pre), none))

/-- MOVHI reads its destination (05 R130). -/
def execMovhi (d : BitVec 5) (i : BitVec 18) (pre : Option (BitVec 29)) (s : State) : Out :=
  sWord s (fun th => do
    th.clean [d.toNat]
    .ok (th.sPut d (immS i pre <<< 32 ||| (th.sVal d &&& 0xFFFFFFFF#64)), none))

/-- SEL: all three sources are read and popped (05 R132). -/
def execSel (d a b c : BitVec 5) (s : State) : Out :=
  sWord s (fun th => do
    th.sReady s.now [a, b, c]
    th.sRoom d
    .ok ((th.sPop [a, b, c]).sPut d (if th.sVal c ≠ 0 then th.sVal a else th.sVal b), none))

/-- BEQ (05 R133, Table 5.4). -/
def execBeq (a b : BitVec 5) (i : BitVec 13) (pre : Option (BitVec 29)) (s : State) : Out :=
  opBranch s a b (immS i pre) (fun x y => x == y)

/-- BNE (05 R133, Table 5.4). -/
def execBne (a b : BitVec 5) (i : BitVec 13) (pre : Option (BitVec 29)) (s : State) : Out :=
  opBranch s a b (immS i pre) (fun x y => x != y)

/-- BLT (05 R133, Table 5.4). -/
def execBlt (a b : BitVec 5) (i : BitVec 13) (pre : Option (BitVec 29)) (s : State) : Out :=
  opBranch s a b (immS i pre) (fun x y => x.slt y)

/-- BGE (05 R133, Table 5.4). -/
def execBge (a b : BitVec 5) (i : BitVec 13) (pre : Option (BitVec 29)) (s : State) : Out :=
  opBranch s a b (immS i pre) (fun x y => !x.slt y)

/-- BLTN (05 R133, Table 5.4). -/
def execBltn (a b : BitVec 5) (i : BitVec 13) (pre : Option (BitVec 29)) (s : State) : Out :=
  opBranch s a b (immS i pre) (fun x y => x.ult y)

/-- BGEN (05 R133, Table 5.4). -/
def execBgen (a b : BitVec 5) (i : BitVec 13) (pre : Option (BitVec 29)) (s : State) : Out :=
  opBranch s a b (immS i pre) (fun x y => !x.ult y)

/-- JMP (05 R134). -/
def execJmp (i : BitVec 23) (pre : Option (BitVec 29)) (s : State) : Out :=
  sWord s (fun th =>
    let t := s.cur.e.addr + 4 * immS i pre
    .ok (th.jump s.cur.e.addr t, some t))

/-- CALL: the link register takes the address of the next word; no loop is popped (05 R134, R138). -/
def execCall (i : BitVec 23) (pre : Option (BitVec 29)) (s : State) : Out :=
  sWord s (fun th => .ok (th.sPut 27 s.cur.e.after, some (s.cur.e.addr + 4 * immS i pre)))

/-- JR (05 R134). -/
def execJr (a : BitVec 5) (i : BitVec 13) (pre : Option (BitVec 29)) (s : State) : Out :=
  opRegJump s a (immS i pre) false

/-- CALLR reads its register before it writes s27 (05 R134). -/
def execCallr (a : BitVec 5) (i : BitVec 13) (pre : Option (BitVec 29)) (s : State) : Out :=
  opRegJump s a (immS i pre) true

/-- LOOP (05 R135, R136). -/
def execLoop (a : BitVec 5) (l : BitVec 7) (s : State) : Out :=
  sWord s (fun th => do
    th.sReady s.now [a]
    (th.sPop [a]).openLoop s.cur.e l.toNat (th.sVal a).toNat)

/-- LOOPI (05 R135, R136). -/
def execLoopi (c : BitVec 16) (l : BitVec 7) (s : State) : Out :=
  sWord s (fun th => th.openLoop s.cur.e l.toNat c.toNat)

/-- LOOPS (05 R140, R141). -/
def execLoops (a b : BitVec 5) (t : BitVec 2) (l : BitVec 5) (s : State) : Out :=
  sWord s (fun th => do
    th.sReady s.now [a, b]
    (th.sPop [a, b]).openLoops s.cur.e (l.toNat + 1) (t.toNat + 1) (th.sVal a).toNat (th.sVal b))

/-- LEXIT (05 R143); `w` is the always bit, `n` the drain bit. -/
def execLexit (a : BitVec 5) (w n : BitVec 1) (s : State) : Out :=
  sWord s (fun th => do
    th.sReady s.now [a]
    if th.loops.isEmpty then .error (.trap 0x01 s.cur.e.wordVal)
    else
      let th1 := th.sPop [a]
      if w = 1 || th.sVal a ≠ 0 then
        let r := lexitLoops (n == 1) th1.loops
        .ok (th1.setLoops r.1, r.2)
      else .ok (th1, none))

/-- LCNT (05 R144). -/
def execLcnt (d : BitVec 5) (r : BitVec 1) (l : BitVec 2) (s : State) : Out :=
  sWord s (fun th => do
    th.sRoom d
    .ok (th.sPut d (th.lcntVal l.toNat (r == 1)), none))

/-- NOP (05 R145). -/
def execNop (s : State) : Out := sWord s (fun th => .ok (th, none))

/-- The L word: the next word in program order merges with it; the pc stays at the L word, whose address the merged
instruction takes (02 R49). -/
def execLimm (p : BitVec 29) (s : State) : Out :=
  match s.thread? s.cur.c s.cur.t with
  | none => .fault .noThread
  | some th => .next (s.setThread { th with lpre := some p, issue := { th.issue with lastF := s.now + 1, group := s.cur.e.addr &&& 15#64 != 12 } })

end Sys2Proof.Machine
end

