-- ==== Sys2Proof/Machine/Dispatch.lean ====
section
/-!
DEFINITION. The dispatch: one arm for each row of the opcode table, each a direct call of that row's meaning.
-/

namespace Sys2Proof.Machine

/-- Runs one instruction word, or makes one step of the device, in the state whose `cur` names the agent. -/
def exec (i : Instr) (s : State) : Host.Outcome State Fault Refusal :=
  match i with
  | .add d a b => Sys2Proof.Machine.execAdd d a b s
  | .sub d a b => Sys2Proof.Machine.execSub d a b s
  | .mul d a b => Sys2Proof.Machine.execMul d a b s
  | .mulh d a b => Sys2Proof.Machine.execMulh d a b s
  | .mulhn d a b => Sys2Proof.Machine.execMulhn d a b s
  | .div d a b => Sys2Proof.Machine.execDiv d a b s
  | .divn d a b => Sys2Proof.Machine.execDivn d a b s
  | .rem d a b => Sys2Proof.Machine.execRem d a b s
  | .remn d a b => Sys2Proof.Machine.execRemn d a b s
  | .and d a b => Sys2Proof.Machine.execAnd d a b s
  | .or d a b => Sys2Proof.Machine.execOr d a b s
  | .xor d a b => Sys2Proof.Machine.execXor d a b s
  | .shl d a b => Sys2Proof.Machine.execShl d a b s
  | .shr d a b => Sys2Proof.Machine.execShr d a b s
  | .sra d a b => Sys2Proof.Machine.execSra d a b s
  | .slt d a b => Sys2Proof.Machine.execSlt d a b s
  | .sltn d a b => Sys2Proof.Machine.execSltn d a b s
  | .seq d a b => Sys2Proof.Machine.execSeq d a b s
  | .min d a b => Sys2Proof.Machine.execMin d a b s
  | .minn d a b => Sys2Proof.Machine.execMinn d a b s
  | .max d a b => Sys2Proof.Machine.execMax d a b s
  | .maxn d a b => Sys2Proof.Machine.execMaxn d a b s
  | .clz d a => Sys2Proof.Machine.execClz d a s
  | .ctz d a => Sys2Proof.Machine.execCtz d a s
  | .popc d a => Sys2Proof.Machine.execPopc d a s
  | .wfld d a k => Sys2Proof.Machine.execWfld d a k s
  | .addi d a imm pre => Sys2Proof.Machine.execAddi d a imm pre s
  | .andi d a imm pre => Sys2Proof.Machine.execAndi d a imm pre s
  | .ori d a imm pre => Sys2Proof.Machine.execOri d a imm pre s
  | .xori d a imm pre => Sys2Proof.Machine.execXori d a imm pre s
  | .shli d a c => Sys2Proof.Machine.execShli d a c s
  | .shri d a c => Sys2Proof.Machine.execShri d a c s
  | .srai d a c => Sys2Proof.Machine.execSrai d a c s
  | .slti d a imm pre => Sys2Proof.Machine.execSlti d a imm pre s
  | .movi d imm pre => Sys2Proof.Machine.execMovi d imm pre s
  | .movhi d imm pre => Sys2Proof.Machine.execMovhi d imm pre s
  | .sel d a b c => Sys2Proof.Machine.execSel d a b c s
  | .beq a b o pre => Sys2Proof.Machine.execBeq a b o pre s
  | .bne a b o pre => Sys2Proof.Machine.execBne a b o pre s
  | .blt a b o pre => Sys2Proof.Machine.execBlt a b o pre s
  | .bge a b o pre => Sys2Proof.Machine.execBge a b o pre s
  | .bltn a b o pre => Sys2Proof.Machine.execBltn a b o pre s
  | .bgen a b o pre => Sys2Proof.Machine.execBgen a b o pre s
  | .jmp o pre => Sys2Proof.Machine.execJmp o pre s
  | .call o pre => Sys2Proof.Machine.execCall o pre s
  | .jr a imm pre => Sys2Proof.Machine.execJr a imm pre s
  | .callr a imm pre => Sys2Proof.Machine.execCallr a imm pre s
  | .loop a l => Sys2Proof.Machine.execLoop a l s
  | .loopi c l => Sys2Proof.Machine.execLoopi c l s
  | .loops a b t l => Sys2Proof.Machine.execLoops a b t l s
  | .lexit a y x => Sys2Proof.Machine.execLexit a y x s
  | .lcnt d r l => Sys2Proof.Machine.execLcnt d r l s
  | .nop => Sys2Proof.Machine.execNop s
  | .trap imm => Sys2Proof.Machine.execTrap imm s
  | .rft => Sys2Proof.Machine.execRft s
  | .brk imm => Sys2Proof.Machine.execBrk imm s
  | .csrr d c => Sys2Proof.Machine.execCsrr d c s
  | .csrw a c => Sys2Proof.Machine.execCsrw a c s
  | .csrx d a c => Sys2Proof.Machine.execCsrx d a c s
  | .csrs d a c => Sys2Proof.Machine.execCsrs d a c s
  | .csrc d a c => Sys2Proof.Machine.execCsrc d a c s
  | .exit => Sys2Proof.Machine.execExit s
  | .yield => Sys2Proof.Machine.execYield s
  | .sleep a imm => Sys2Proof.Machine.execSleep a imm s
  | .prio d a imm => Sys2Proof.Machine.execPrio d a imm s
  | .esync => Sys2Proof.Machine.execEsync s
  | .spawn d a b => Sys2Proof.Machine.execSpawn d a b s
  | .flease d t q sc => Sys2Proof.Machine.execFlease d t q sc s
  | .fret d => Sys2Proof.Machine.execFret d s
  | .draw d a t => Sys2Proof.Machine.execDraw d a t s
  | .dret d a => Sys2Proof.Machine.execDret d a s
  | .mark a imm => Sys2Proof.Machine.execMark a imm s
  | .capr d a => Sys2Proof.Machine.execCapr d a s
  | .lext d a b => Sys2Proof.Machine.execLext d a b s
  | .fencei => Sys2Proof.Machine.execFencei s
  | .halt => Sys2Proof.Machine.execHalt s
  | .limm imm => Sys2Proof.Machine.execLimm imm s
  | .vadd d a b t m x => Sys2Proof.Machine.execVadd d a b t m x s
  | .vsub d a b t m x => Sys2Proof.Machine.execVsub d a b t m x s
  | .vmul d a b t m x => Sys2Proof.Machine.execVmul d a b t m x s
  | .vmulh d a b t m => Sys2Proof.Machine.execVmulh d a b t m s
  | .vfma d a b t m => Sys2Proof.Machine.execVfma d a b t m s
  | .vfms d a b t m => Sys2Proof.Machine.execVfms d a b t m s
  | .vfnm d a b t m => Sys2Proof.Machine.execVfnm d a b t m s
  | .vmin d a b t m => Sys2Proof.Machine.execVmin d a b t m s
  | .vmax d a b t m => Sys2Proof.Machine.execVmax d a b t m s
  | .vabs d a t m x => Sys2Proof.Machine.execVabs d a t m x s
  | .vneg d a t m x => Sys2Proof.Machine.execVneg d a t m x s
  | .vdiv d a b t m => Sys2Proof.Machine.execVdiv d a b t m s
  | .vsqrt d a t m => Sys2Proof.Machine.execVsqrt d a t m s
  | .vrcp d a t m x => Sys2Proof.Machine.execVrcp d a t m x s
  | .vrsq d a t m x => Sys2Proof.Machine.execVrsq d a t m x s
  | .vexp2 d a t m x => Sys2Proof.Machine.execVexp2 d a t m x s
  | .vlog2 d a t m x => Sys2Proof.Machine.execVlog2 d a t m x s
  | .vand d a b t m => Sys2Proof.Machine.execVand d a b t m s
  | .vor d a b t m => Sys2Proof.Machine.execVor d a b t m s
  | .vxor d a b t m => Sys2Proof.Machine.execVxor d a b t m s
  | .vnot d a t m => Sys2Proof.Machine.execVnot d a t m s
  | .vshl d a b t m => Sys2Proof.Machine.execVshl d a b t m s
  | .vshr d a b t m => Sys2Proof.Machine.execVshr d a b t m s
  | .vsra d a b t m => Sys2Proof.Machine.execVsra d a b t m s
  | .vcmpeq d a b t m x => Sys2Proof.Machine.execVcmpeq d a b t m x s
  | .vcmplt d a b t m x => Sys2Proof.Machine.execVcmplt d a b t m x s
  | .vcmple d a b t m x => Sys2Proof.Machine.execVcmple d a b t m x s
  | .vcmpun d a b t m x => Sys2Proof.Machine.execVcmpun d a b t m x s
  | .vsel d a b t m => Sys2Proof.Machine.execVsel d a b t m s
  | .vcvt d a sc c t m r => Sys2Proof.Machine.execVcvt d a sc c t m r s
  | .vqblk d a b t => Sys2Proof.Machine.execVqblk d a b t s
  | .vdqblk d a b t m => Sys2Proof.Machine.execVdqblk d a b t m s
  | .vred d a p t m => Sys2Proof.Machine.execVred d a p t m s
  | .vscan d a p t m => Sys2Proof.Machine.execVscan d a p t m s
  | .vperm d a b t m x => Sys2Proof.Machine.execVperm d a b t m x s
  | .vrot d a b t m => Sys2Proof.Machine.execVrot d a b t m s
  | .vzip d a b t m x => Sys2Proof.Machine.execVzip d a b t m x s
  | .vunzip d a b t m x => Sys2Proof.Machine.execVunzip d a b t m x s
  | .vbcst d a b t m => Sys2Proof.Machine.execVbcst d a b t m s
  | .viota d t m => Sys2Proof.Machine.execViota d t m s
  | .vmovi d imm pre => Sys2Proof.Machine.execVmovi d imm pre s
  | .vdot4 d a b t m x => Sys2Proof.Machine.execVdot4 d a b t m x s
  | .vdot2 d a b t m x => Sys2Proof.Machine.execVdot2 d a b t m x s
  | .mlog d a p b m n => Sys2Proof.Machine.execMlog d a p b m n s
  | .mpop d a m => Sys2Proof.Machine.execMpop d a m s
  | .mfirst d a m => Sys2Proof.Machine.execMfirst d a m s
  | .vtos a j => Sys2Proof.Machine.execVtos a j s
  | .vtoa a => Sys2Proof.Machine.execVtoa a s
  | .vmov d a t m => Sys2Proof.Machine.execVmov d a t m s
  | .vwait => Sys2Proof.Machine.execVwait s
  | .vclass d a t m => Sys2Proof.Machine.execVclass d a t m s
  | .vclz d a t m => Sys2Proof.Machine.execVclz d a t m s
  | .vpopc d a t m => Sys2Proof.Machine.execVpopc d a t m s
  | .aadd d a b => Sys2Proof.Machine.execAadd d a b s
  | .asub d a b => Sys2Proof.Machine.execAsub d a b s
  | .amul d a b => Sys2Proof.Machine.execAmul d a b s
  | .ashl d a b => Sys2Proof.Machine.execAshl d a b s
  | .ashr d a b => Sys2Proof.Machine.execAshr d a b s
  | .aand d a b => Sys2Proof.Machine.execAand d a b s
  | .aor d a b => Sys2Proof.Machine.execAor d a b s
  | .aaddi d a imm pre => Sys2Proof.Machine.execAaddi d a imm pre s
  | .amovi d imm pre => Sys2Proof.Machine.execAmovi d imm pre s
  | .amovhi d imm pre => Sys2Proof.Machine.execAmovhi d imm pre s
  | .lds d a imm pre => Sys2Proof.Machine.execLds d a imm pre s
  | .sts d a imm pre => Sys2Proof.Machine.execSts d a imm pre s
  | .ldv d a imm pre => Sys2Proof.Machine.execLdv d a imm pre s
  | .stv a imm pre => Sys2Proof.Machine.execStv a imm pre s
  | .ldvs d a b w => Sys2Proof.Machine.execLdvs d a b w s
  | .stvs a b w => Sys2Proof.Machine.execStvs a b w s
  | .ldg d a w => Sys2Proof.Machine.execLdg d a w s
  | .stg a w => Sys2Proof.Machine.execStg a w s
  | .ldt d a imm pre => Sys2Proof.Machine.execLdt d a imm pre s
  | .stt a imm pre => Sys2Proof.Machine.execStt a imm pre s
  | .kset d a p => Sys2Proof.Machine.execKset d a p s
  | .kadd d a b => Sys2Proof.Machine.execKadd d a b s
  | .kaddi d a e j pre => Sys2Proof.Machine.execKaddi d a e j pre s
  | .kclr d => Sys2Proof.Machine.execKclr d s
  | .tld d a k x n => Sys2Proof.Machine.execTld d a k x n s
  | .tst d a k sc n => Sys2Proof.Machine.execTst d a k sc n s
  | .tldv d a k => Sys2Proof.Machine.execTldv d a k s
  | .tstv a k sc => Sys2Proof.Machine.execTstv a k sc s
  | .tldg d a k j => Sys2Proof.Machine.execTldg d a k j s
  | .tstg a k sc j => Sys2Proof.Machine.execTstg a k sc j s
  | .tpf a k p => Sys2Proof.Machine.execTpf a k p s
  | .ttreg a t => Sys2Proof.Machine.execTtreg a t s
  | .ttrel t => Sys2Proof.Machine.execTtrel t s
  | .ttstat d t => Sys2Proof.Machine.execTtstat d t s
  | .binit d a imm => Sys2Proof.Machine.execBinit d a imm s
  | .breg a imm => Sys2Proof.Machine.execBreg a imm s
  | .barv d a sc imm => Sys2Proof.Machine.execBarv d a sc imm s
  | .bard d a sc imm => Sys2Proof.Machine.execBard d a sc imm s
  | .bexp d a b sc v => Sys2Proof.Machine.execBexp d a b sc v s
  | .bwait d a sc imm => Sys2Proof.Machine.execBwait d a sc imm s
  | .btest d a sc imm => Sys2Proof.Machine.execBtest d a sc imm s
  | .ldf d a sc o => Sys2Proof.Machine.execLdf d a sc o s
  | .ldfe d a sc o => Sys2Proof.Machine.execLdfe d a sc o s
  | .stef d a sc o => Sys2Proof.Machine.execStef d a sc o s
  | .stf d a sc o => Sys2Proof.Machine.execStf d a sc o s
  | .feset f a o => Sys2Proof.Machine.execFeset f a o s
  | .tready t => Sys2Proof.Machine.execTready t s
  | .tempty t => Sys2Proof.Machine.execTempty t s
  | .twait sc t => Sys2Proof.Machine.execTwait sc t s
  | .ldaq d a k sc w => Sys2Proof.Machine.execLdaq d a k sc w s
  | .strl d a k sc w => Sys2Proof.Machine.execStrl d a k sc w s
  | .ldaqs d a b sc w => Sys2Proof.Machine.execLdaqs d a b sc w s
  | .strls d a b sc w => Sys2Proof.Machine.execStrls d a b sc w s
  | .fence sc k => Sys2Proof.Machine.execFence sc k s
  | .amo d a r k sc p => Sys2Proof.Machine.execAmo d a r k sc p s
  | .amoc d a r k sc w => Sys2Proof.Machine.execAmoc d a r k sc w s
  | .red d a r k sc p => Sys2Proof.Machine.execRed d a r k sc p s
  | .redv a r k sc y => Sys2Proof.Machine.execRedv a r k sc y s
  | .amos d a b sc p => Sys2Proof.Machine.execAmos d a b sc p s
  | .mnest a b l => Sys2Proof.Machine.execMnest a b l s
  | .mbody n => Sys2Proof.Machine.execMbody n s
  | .mgo a b => Sys2Proof.Machine.execMgo a b s
  | .msel k => Sys2Proof.Machine.execMsel k s
  | .mconf m => Sys2Proof.Machine.execMconf m s
  | .mclm n k sc => Sys2Proof.Machine.execMclm n k sc s
  | .mrel n k sc => Sys2Proof.Machine.execMrel n k sc s
  | .mldb d g x p t => Sys2Proof.Machine.execMldb d g x p t s
  | .mmma d g x h t => Sys2Proof.Machine.execMmma d g x h t s
  | .mmms d g x h t => Sys2Proof.Machine.execMmms d g x h t s
  | .mmmc d a g x h t => Sys2Proof.Machine.execMmmc d a g x h t s
  | .mzacc g b h => Sys2Proof.Machine.execMzacc g b h s
  | .mdrn d a b g h sc t => Sys2Proof.Machine.execMdrn d a b g h sc t s
  | .mdrc d b g h sc t => Sys2Proof.Machine.execMdrc d b g h sc t s
  | .mamax a g h => Sys2Proof.Machine.execMamax a g h s
  | .mmqclr => Sys2Proof.Machine.execMmqclr s
  | .cnest d a b c => Sys2Proof.Machine.execCnest d a b c s
  | .ccpy d a b c v o sc => Sys2Proof.Machine.execCcpy d a b c v o sc s
  | .cst d a b c v o sc => Sys2Proof.Machine.execCst d a b c v o sc s
  | .ccpys d a b c v o sc => Sys2Proof.Machine.execCcpys d a b c v o sc s
  | .cmc d a b c v o sc => Sys2Proof.Machine.execCmc d a b c v o sc s
  | .cgth d a b c v o sc => Sys2Proof.Machine.execCgth d a b c v o sc s
  | .copf d a b c v o sc => Sys2Proof.Machine.execCopf d a b c v o sc s
  | .cmeta d a b c o => Sys2Proof.Machine.execCmeta d a b c o s
  | .cred d a b c p o => Sys2Proof.Machine.execCred d a b c p o s
  | .cset d a b c o => Sys2Proof.Machine.execCset d a b c o s
  | .crem d a b c v o sc => Sys2Proof.Machine.execCrem d a b c v o sc s
  | .cpro d a b c o => Sys2Proof.Machine.execCpro d a b c o s
  | .vResultLand => Sys2Proof.Machine.execVResultLand s
  | .copyCommandStart => Sys2Proof.Machine.execCopyCommandStart s
  | .sectorLands => Sys2Proof.Machine.execSectorLands s
  | .copyCommandComplete => Sys2Proof.Machine.execCopyCommandComplete s
  | .takeTrap => Sys2Proof.Machine.execTakeTrap s
  | .waitTimeout => Sys2Proof.Machine.execWaitTimeout s
  | .vStallTimeout => Sys2Proof.Machine.execVStallTimeout s
  | .escrowWaitTimeout => Sys2Proof.Machine.execEscrowWaitTimeout s
  | .linkstall => Sys2Proof.Machine.execLinkstall s
  | .sleepExpiry => Sys2Proof.Machine.execSleepExpiry s
  | .loadDataArrive => Sys2Proof.Machine.execLoadDataArrive s
  | .inheritMessage => Sys2Proof.Machine.execInheritMessage s
  | .atomicApply => Sys2Proof.Machine.execAtomicApply s
  | .slicePeriod => Sys2Proof.Machine.execSlicePeriod s
  | .urgentPromotion => Sys2Proof.Machine.execUrgentPromotion s
  | .tellerGrant => Sys2Proof.Machine.execTellerGrant s
  | .stripRundownEnd => Sys2Proof.Machine.execStripRundownEnd s
  | .stripScrubComplete => Sys2Proof.Machine.execStripScrubComplete s
  | .fragmentSaveComplete => Sys2Proof.Machine.execFragmentSaveComplete s
  | .nestComplete => Sys2Proof.Machine.execNestComplete s
  | .lnqTailWrite => Sys2Proof.Machine.execLnqTailWrite s
  | .gangAccept => Sys2Proof.Machine.execGangAccept s
  | .recordFinish => Sys2Proof.Machine.execRecordFinish s
  | .leaseMapped => Sys2Proof.Machine.execLeaseMapped s
  | .gangStart => Sys2Proof.Machine.execGangStart s
  | .clearingComplete => Sys2Proof.Machine.execClearingComplete s
  | .preemptGang => Sys2Proof.Machine.execPreemptGang s
  | .gangSaveComplete => Sys2Proof.Machine.execGangSaveComplete s
  | .gangRestore => Sys2Proof.Machine.execGangRestore s
  | .checkerMismatch => Sys2Proof.Machine.execCheckerMismatch s
  | .residueMismatch => Sys2Proof.Machine.execResidueMismatch s
  | .taskDiscard => Sys2Proof.Machine.execTaskDiscard s
  | .scrubLine => Sys2Proof.Machine.execScrubLine s
  | .tileFetch => Sys2Proof.Machine.execTileFetch s
  | .fetchComplete => Sys2Proof.Machine.execFetchComplete s
  | .escrowApply => Sys2Proof.Machine.execEscrowApply s
  | .deferredAppend => Sys2Proof.Machine.execDeferredAppend s
  | .hwFramePut => Sys2Proof.Machine.execHwFramePut s
  | .drawerSlotSend => Sys2Proof.Machine.execDrawerSlotSend s
  | .drawerReadReturn => Sys2Proof.Machine.execDrawerReadReturn s
  | .drawerWriteComplete => Sys2Proof.Machine.execDrawerWriteComplete s
  | .dlEnable => Sys2Proof.Machine.execDlEnable s
  | .dlDisable => Sys2Proof.Machine.execDlDisable s
  | .dlRetrain => Sys2Proof.Machine.execDlRetrain s
  | .lanesLocked => Sys2Proof.Machine.execLanesLocked s
  | .lockLoss => Sys2Proof.Machine.execLockLoss s
  | .trainingTimeout => Sys2Proof.Machine.execTrainingTimeout s
  | .tuningTimeout => Sys2Proof.Machine.execTuningTimeout s
  | .phOwnWrite => Sys2Proof.Machine.execPhOwnWrite s
  | .allowancePeriod => Sys2Proof.Machine.execAllowancePeriod s
  | .leaveGrant => Sys2Proof.Machine.execLeaveGrant s
  | .leaveAgeing => Sys2Proof.Machine.execLeaveAgeing s
  | .leaveSettle => Sys2Proof.Machine.execLeaveSettle s
  | .activityPeriod => Sys2Proof.Machine.execActivityPeriod s
  | .dieSramWrite => Sys2Proof.Machine.execDieSramWrite s
  | .eccModeChangeDone => Sys2Proof.Machine.execEccModeChangeDone s
  | .cluOpWrite => Sys2Proof.Machine.execCluOpWrite s
  | .opPointChange => Sys2Proof.Machine.execOpPointChange s
  | .svcCtlWrite => Sys2Proof.Machine.execSvcCtlWrite s
  | .svcTinvWrite => Sys2Proof.Machine.execSvcTinvWrite s
  | .nfPut => Sys2Proof.Machine.execNfPut s
  | .nfDrop => Sys2Proof.Machine.execNfDrop s
  | .nfBaseWrite => Sys2Proof.Machine.execNfBaseWrite s
  | .hostMemRead => Sys2Proof.Machine.execHostMemRead s
  | .hostMemWrite => Sys2Proof.Machine.execHostMemWrite s
  | .hostSnoop => Sys2Proof.Machine.execHostSnoop s
  | .peerLeaseRequest => Sys2Proof.Machine.execPeerLeaseRequest s
  | .peerLeaseReply => Sys2Proof.Machine.execPeerLeaseReply s
  | .handleRecall => Sys2Proof.Machine.execHandleRecall s
  | .peerAccess => Sys2Proof.Machine.execPeerAccess s
  | .fabricTimeout => Sys2Proof.Machine.execFabricTimeout s
  | .cremSectorArrive => Sys2Proof.Machine.execCremSectorArrive s
  | .cremAck => Sys2Proof.Machine.execCremAck s
  | .holdNotice => Sys2Proof.Machine.execHoldNotice s
  | .collectiveResult => Sys2Proof.Machine.execCollectiveResult s
  | .rxwWrite => Sys2Proof.Machine.execRxwWrite s
  | .fgiWrite => Sys2Proof.Machine.execFgiWrite s
  | .ntfWrite => Sys2Proof.Machine.execNtfWrite s
  | .bmxClr => Sys2Proof.Machine.execBmxClr s
  | .escRdxWrite => Sys2Proof.Machine.execEscRdxWrite s
  | .deviceReset => Sys2Proof.Machine.execDeviceReset s
  | .firmwareVerify => Sys2Proof.Machine.execFirmwareVerify s
  | .loadComplete => Sys2Proof.Machine.execLoadComplete s
  | .brsStatUpd => Sys2Proof.Machine.execBrsStatUpd s
  | .brsTuneWrite => Sys2Proof.Machine.execBrsTuneWrite s
  | .attCtlGo => Sys2Proof.Machine.execAttCtlGo s
  | .attSignDone => Sys2Proof.Machine.execAttSignDone s
  | .dbgStop => Sys2Proof.Machine.execDbgStop s
  | .dbgRelease => Sys2Proof.Machine.execDbgRelease s
  | .dbgSetTrcDbg => Sys2Proof.Machine.execDbgSetTrcDbg s
  | .dbgClearTrcDbg => Sys2Proof.Machine.execDbgClearTrcDbg s
  | .registerWrite => Sys2Proof.Machine.execRegisterWrite s
  | .registerRead => Sys2Proof.Machine.execRegisterRead s
  | .homeSliceWrite => Sys2Proof.Machine.execHomeSliceWrite s
  | .remoteRequestArrive => Sys2Proof.Machine.execRemoteRequestArrive s
  | .schedulerReply => Sys2Proof.Machine.execSchedulerReply s
  | .sramRailSettled => Sys2Proof.Machine.execSramRailSettled s
  | .linkReplay => Sys2Proof.Machine.execLinkReplay s
  | .hostStoreAck => Sys2Proof.Machine.execHostStoreAck s
  | .peerLeaseRelease => Sys2Proof.Machine.execPeerLeaseRelease s

end Sys2Proof.Machine
end

