-- ==== Sys2Proof/Machine/Pick.lean ====
section
/-!
DEFINITION. What a core does next: the fetch and decode of a thread's next word with the checks made at the front (02 R52,
R53, 05 R124, R137, R142), the readiness of stages and the picks of R106, and the steps that fall due.
-/

namespace Sys2Proof.Machine

/-! ### Code -/

/-- What the fetch of a word gives (05 R124). -/
inductive Got where
  | word (w : BitVec 32)
  | bounds (val : Word)
  /-- The tile cannot be read now. -/
  | wait
  /-- It is to be fetched first: it lies in the drawer, and its log holds untagged entries (12 Table 12.1). -/
  | fetch (idx : Nat)
  /-- The word lies in a sector with a poison mark (19 R467): the physical address of the word. -/
  | poisoned (pa : Nat)
  deriving DecidableEq, Repr

/-- The physical address of a word of a task's code tensor (05 R124): the descriptor check, the extent check, then the tile map. -/
def State.codeAt (s : State) (k : Task) (pc : Word) : Except Got Nat :=
  match s.desc? k.svc k.code with
  | none => .error (.bounds (faultVal k.code 3 0))
  | some d =>
    if d.ext.getD 0 0 ≤ pc.toNat then .error (.bounds pc)
    else
      let l := d.loc [pc.toNat]
      match s.tileWord? k.svc k.code d l.1 with
      | none => .error .wait
      | some w =>
        match resid? w false with
        | some .resident | some .drawer | some .host => .ok (frameBase w + swz d.swz l.2)
        | _ => .error .wait

/-- A group of four words as memory holds it now. -/
def State.codeGroup (s : State) (g : Nat) : BitVec 128 := BitVec.ofNat 128 (s.mem.getN (16 * g) 16)

/-- The word at a physical address of a task's code, as memory gives it: of a tile whose log holds untagged entries, none before they have
been applied (12 Table 12.1); of a drawer tile, over a link that is up (12 R321). -/
def State.codeRead (s : State) (k : Task) (pc : Word) (pa : Nat) : Got :=
  let behind := (s.desc? k.svc k.code).any (fun d => s.untagged d (d.loc [pc.toNat]).1)
  let far := pa / 2 ^ 48 = 8 && !s.cached (pa / 32)
  let link := (s.link (linkOf pa)).st
  if behind then
    (if pa / 2 ^ 48 = 8 then .fetch ((s.desc? k.svc k.code).elim 0 (fun d => (d.loc [pc.toNat]).1)) else .wait)
  else if far && link == .failed then .poisoned pa
  else if far && link != .up then .wait
  else if s.poison.contains (pa / 32) then .poisoned pa
  else .word (((s.codeGroup (pa / 16)) >>> (8 * (pa % 16))).setWidth 32)

/-- The word at a pc for a core (05 R124): that of the group that its instruction cache holds, else memory's. -/
def State.fetch (s : State) (c : Nat) (k : Task) (pc : Word) : Got :=
  match s.codeAt k pc with
  | .error x => x
  | .ok pa =>
    match (s.core c).icache.find (pa / 16) with
    | some g => .word ((g >>> (8 * (pa % 16))).setWidth 32)
    | none => s.codeRead k pc pa

/-- Groups of an instruction cache of 64 KiB (00 R2, 02 R35). -/
def icacheGroups : Nat := 4096

/-- The group of a fetched word enters the instruction cache; which other goes for it, with the cache full, is open. Log entry 17, DESIGN
CHOICE. -/
def State.warm (s : State) (c : Nat) (k : Task) (pc : Word) : State :=
  match s.codeAt k pc with
  | .error _ => s
  | .ok pa =>
    let m := (s.core c).icache
    if (m.find (pa / 16)).isSome then s
    else
      let z := if icacheGroups ≤ m.length then
          (s.modCore c (fun x => { x with icache := x.icache.eraseIdx (Config.victim s.freeCount % m.length) })).bump
        else s
      z.modCore c (fun x => { x with icache := x.icache.set (pa / 16) (s.codeGroup (pa / 16)) })

/-! ### Decode and checks of the front -/

/-- A word that may not stand last in a body, nor anywhere in a LOOPS body (05 R137, R142). -/
def isTransfer : Instr → Bool
  | .beq _ _ _ _ | .bne _ _ _ _ | .blt _ _ _ _ | .bge _ _ _ _ | .bltn _ _ _ _ | .bgen _ _ _ _ | .jmp _ _ | .call _ _
  | .jr _ _ _ | .callr _ _ _ | .loop _ _ | .loopi _ _ | .loops _ _ _ _ => true
  | _ => false

/-- A word stands where the active loops forbid it (05 R137, R142, 02 R51). `a` is the address of the word itself. -/
def Thread.misplaced (th : Thread) (i : Instr) (a : Word) : Bool :=
  (isTransfer i && (th.loops.any (·.last == a) || (match th.loops with
    | [] => false
    | l :: _ => l.pipelined && decide (l.first ≤ a) && decide (a ≤ l.last)))) ||
  ((match i with
    | .limm _ => true
    | _ => false) && th.loops.any (·.last == a))

/-- A C word that takes no nest, while the splitter holds one for its channel: ILLEGAL at decode (02 R52, R53, 13 R332). -/
def Thread.nestBars (th : Thread) (i : Instr) : Bool :=
  match i with
  | .copf _ _ _ ch _ _ _ | .cmeta _ _ _ ch _ | .cpro _ _ _ ch _ => (th.nests.find ch.toNat).isSome
  | _ => false

/-- What the front finds at a thread's next word. -/
inductive Found where
  /-- An instruction to execute or steer. -/
  | instr (i : Instr)
  /-- A body word whose stage is not active: it is discarded (05 R142). -/
  | idle (i : Instr)
  /-- A decode fault with its cause and value (02 R52, R53, 05 R124). -/
  | trap (cause : BitVec 6) (val : Word)
  /-- The word cannot be fetched now, or not before its tile has been fetched from the drawer. -/
  | wait
  | fetch (idx : Nat)
  /-- The word carries a poison mark (19 R467). -/
  | poisoned (pa : Nat)
  deriving DecidableEq, Repr

/-- Decodes a fetched word with the L word before it, if any (02 R49-R53). The place of a prefixed word in a LOOPS body is that of its L
word, which is itself fetched whatever its stage (05 R142; log entry 77, DESIGN CHOICE). -/
def Thread.find (th : Thread) (w : BitVec 32) : Found :=
  let a := if th.lpre.isSome then th.pc + 4 else th.pc
  let val : Word := match th.lpre with
    | some p => (0x7#3 ++ p) ++ w
    | none => 0x0#32 ++ w
  let bad := match decodeRow w with
    | some i => th.misplaced i a || th.nestBars i
    | none => false
  match decode th.lpre w with
  | .error .illegal => .trap 0x01 val
  | .error .queue => if bad then .trap 0x01 val else .trap 0x03 val
  | .ok i =>
    if bad then .trap 0x01 val
    else match i with
      | .limm _ => .instr i
      | _ =>
        match th.loops with
        | [] => .instr i
        | l :: _ => if l.active th.pc then .instr i else .idle i

/-- The thread's next word (05 R124). -/
def State.look (s : State) (th : Thread) : Found :=
  match s.task? th.task with
  | none => .wait
  | some k =>
    match s.fetch th.c k (if th.lpre.isSome then th.pc + 4 else th.pc) with
    | .word w => th.find w
    | .bounds v => .trap 0x11 v
    | .wait => .wait
    | .fetch idx => .fetch idx
    | .poisoned pa => .poisoned pa

/-- The queue entry of a word at the front: its number, and what every engine captures (02 R36, 03 R76, 18 R458,
21 R499). -/
def Thread.entry (th : Thread) (i : Instr) : QEntry :=
  { ins := i, addr := th.pc, size := i.size, seq := th.seq, frm := th.csr.frm, corr := th.csr.corr,
    pace := if engineOf i = .m then th.csr.paceM else if engineOf i = .c then th.csr.paceC else 0,
    urgent := false, capD := [], capA := [], capB := 0, nest := none, lease := 0, c := th.c, t := th.t, task := th.task }

/-- The state in which a thread's word at the front is run; an engine's word takes the thread's class with it (11 R294). -/
def State.atFront (s : State) (th : Thread) (i : Instr) : State :=
  { s with cur := { c := th.c, t := th.t, front := true, e := { th.entry i with urgent := s.eff th == 3 }, ev := none, unit := none, stalled := false } }

/-- The state in which the word at the head of a thread's queue is run. -/
def State.atHead (s : State) (th : Thread) (e : QEntry) : State :=
  { s with cur := { c := th.c, t := th.t, front := false, e := e, ev := none, unit := none, stalled := false } }

/-- The state in which a step of the device is made. -/
def State.atEvent (s : State) (e : Event) : State :=
  { s with cur := { s.cur with ev := some e, unit := none, stalled := false } }

/-- An inactive body word is discarded: no number, no effect but the loop-back test (05 R142), which is logged with the word before it, since
it is older than the word that takes the next number (05 R148). -/
def State.discard (s : State) (th : Thread) (i : Instr) : State :=
  let th1 := { th with seq := th.seq - 1 }.advance (th.entry i) none s.now
  let th2 := { th1 with seq := th.seq }
  s.moved th ((s.setThread th2).traceLoops th2 th.seq th.loops th2.loops)

/-! ### Picks -/

/-- The front goes on with the rest of a thread's group: nothing of another thread of the core has come in between (04 R106, R107). -/
def State.inGroup (s : State) (st : Stage) (x : Thread) : Bool :=
  st == .front && x.issue.group && s.threads.all (fun y => y.c != x.c || decide (y.issue.lastF ≤ x.issue.lastF))

/-- A thread is denied issue on a stage (18 R455), the notification thread but for one front pick, which is that of a whole group (04 R106),
and one access pick in each period of 1,024 cycles (18 R457). -/
def State.denied (s : State) (th : Thread) (st : Stage) : Bool :=
  let start := s.now / 1024 * 1024
  (s.svc th.svc).deny && !(bit th.csr.ntf 63 && (match st with
    | .front => decide (th.issue.lastF ≤ start) || s.inGroup .front th
    | .a => decide (th.issue.lastA ≤ start)
    | .v => false))

/-- The thread may use a stage: outside its pacing gaps, in which no tick passes either (18 R458). -/
def State.mayIssue (s : State) (th : Thread) (st : Stage) : Bool :=
  !th.issue.stopped && !s.denied th st && (match st with
    | .front => th.issue.sleepEnd.isNone && th.issue.lext.isNone
    | .v => !th.xq.isEmpty || (th.drains && decide (th.issue.paced.1 + th.csr.paceV.toNat ≤ s.now + 1))
    | .a => !th.aq.isEmpty && decide (th.issue.paced.2 + th.csr.paceA.toNat ≤ s.now + 1))

/-- The cycle of the last issue on a stage, 0 for none (04 R106). -/
def Thread.last (th : Thread) : Stage → Nat
  | .front => th.issue.lastF
  | .v => th.issue.lastV
  | .a => th.issue.lastA

/-- Thread `x` is picked before thread `y` on a stage (04 R106): the front's pick stands for its whole group. -/
def State.before (s : State) (st : Stage) (x y : Thread) : Bool :=
  if s.inGroup st x ≠ s.inGroup st y then s.inGroup st x
  else if s.eff x ≠ s.eff y then decide (s.eff y < s.eff x)
  else if x.last st ≠ y.last st then decide (x.last st < y.last st)
  else decide (x.t < y.t)

/-- Puts a thread in its place in a pick order. -/
def State.place (s : State) (st : Stage) (x : Thread) : List Thread → List Thread
  | [] => [x]
  | y :: r => if s.before st x y then x :: y :: r else y :: State.place s st x r

/-- The threads of a core that may use a stage, best first (04 R106). -/
def State.order (s : State) (c : Nat) (st : Stage) : List Thread :=
  (s.threads.filter (fun th => th.c == c && s.mayIssue th st)).foldl (fun l x => s.place st x l) []

end Sys2Proof.Machine
end

