-- ==== Sys2Proof/Machine/Place.lean ====
section
/-!
DEFINITION. The moves of a step: which stages and units may act, in which order, and how each is made ready to run; the steps that fall
due; and the placing of a program's word for a thread that runs.
-/

namespace Sys2Proof.Machine

/-- A move: a stage of a thread, a fragment, or a unit with a step to make. -/
inductive Move where
  | front (c t : Nat)
  | access (c t : Nat)
  | v (c t : Nat)
  /-- The nest that runs on a strip's sequencer: its next body word, its drain, or its end. -/
  | nest (die n : Nat)
  /-- The head of a strip's matrix queue. -/
  | head (die n : Nat)
  | unit (e : Event)
  /-- A request of a peer that waits for handles; a write of `svc.tinv` that waits for recalls. -/
  | ask (n : Nat)
  | recall (n : Nat)
  /-- A die grants a request that waits where its owner stands (11 R297); the drops of a killed thread are made (08 R210). -/
  | grant (die : Nat)
  | drops (n : Nat)
  /-- A recall of a peer is acknowledged (20 R485); a hold notice is repeated (20 R491). -/
  | ack (n : Nat)
  | notice (n : Nat)
  deriving DecidableEq, Repr

/-- How a move begins. -/
inductive Ready where
  /-- The stage cannot act. -/
  | skip
  /-- The front cannot act: the group of four words that it was in, if any, ends, in the state given (04 R106). -/
  | hold (s : State)
  /-- It acted without a word. -/
  | done (s : State)
  /-- It runs a word, or makes a step, in a state. -/
  | run (i : Instr) (s : State)

/-! ### Which moves there are -/

/-- A strip's nest stands at a drain that has not begun. -/
def Strip.drainsNext (x : Strip) : Bool :=
  x.drain.isNone && (match x.run.bind (fun r => x.abody[r.word]?) with
    | some e => (match e.ins with
      | .mdrn _ _ _ _ _ _ _ => true
      | _ => false)
    | none => false)

/-- What may flip a tile of a die in the same cycle as a word of a thread goes before it: drains, then channels, those of the core before
those of the others, which come through the remote port (07 R188). Log entry 9, DESIGN CHOICE. -/
def State.flippers (s : State) (c : Nat) : List Move :=
  let starts (p : Nat × Core) : List Move := (p.2.chans.filter (fun q => q.2.run.isNone && !q.2.q.isEmpty)).map (fun q =>
    .unit (.copyCommandStart p.1 q.1))
  ((s.die (dieOf c)).strips.filter (fun p => p.2.drainsNext)).map (fun p => .nest (dieOf c) p.1) ++ starts (c, s.core c) ++
    (s.cores.filter (fun p => dieOf p.1 = dieOf c && p.1 ≠ c)).flatMap starts

/-- The entry at whose tile a thread's access word waits to flip it (07 R188). -/
def State.flipAt (s : State) (th : Thread) : Option Nat :=
  let at_ (t : BitVec 8) : Option Nat := match s.tileOf th t.toNat 0 with
    | .ok r => some r.2.1
    | .error _ => none
  match th.aq with
  | e :: _ =>
    if th.issue.waitA.isNone then none
    else match e.ins with
      | .tready t | .tempty t | .ttrel t => at_ t
      | _ => none
  | [] => none

/-- Those of some threads that wait to flip one tile are taken in ascending slot order, in the places that they have among the others (07
R188). -/
def State.bySlot (s : State) (all : List Thread) : List Thread → List Thread
  | [] => []
  | th :: r =>
    (match s.flipAt th with
    | none => th
    | some e =>
      let same (x : Thread) : Bool := s.flipAt x == some e
      let ws := (List.range 8).filterMap (fun t => all.find? (fun x => x.t == t && same x))
      ws.getD (ws.length - 1 - (r.filter same).length) th) :: State.bySlot s all r

/-- The stages of a core, best thread first (04 R106), and the running commands of its copy channels (13 R327). -/
def State.coreMoves (s : State) (c : Nat) : List (List Move) :=
  [ (s.order c .front).map (fun th => .front th.c th.t),
    s.flippers c ++ (s.bySlot (s.order c .a) (s.order c .a)).map (fun th => .access th.c th.t),
    (s.order c .v).map (fun th => .v th.c th.t),
    (s.core c).chans.flatMap (fun p => match p.2.run with
      | some r => if r.sent then [] else if r.left.isEmpty then [.unit (.copyCommandComplete c p.1)] else [.unit (.sectorLands c p.1)]
      | none => []) ]

/-- A command at the head of a core's channel names no tile of another core. -/
def State.startsHere (s : State) (c : Nat) (e : QEntry) : Bool :=
  match s.task? e.task, s.groupOn? e.task c, cForm e.ins with
  | some k, some g, some f => (match (if f.op = .pro then .error 0x11 else s.command k g e f) with
    | .ok m => (m.index ++ (match m.src with
        | some a => a.1.entries
        | none => []) ++ m.dsts.flatMap (fun d => d.1.entries)).all (fun p => p.1 == c)
    | .error _ => true)
  | _, _, _ => true

/-- What starts with a flip of tiles: drains, then the commands of channels that name tiles of their own core alone, then those that reach
others through the remote port (07 R188). Log entry 9, DESIGN CHOICE. -/
def State.startMoves (s : State) : List Move :=
  let l := s.cores.flatMap (fun p => p.2.chans.filterMap (fun q => match q.2.run, q.2.q with
    | none, e :: _ => some (p.1, q.1, s.startsHere p.1 e)
    | _, _ => none))
  let go (p : Nat × Nat × Bool) : Move := .unit (.copyCommandStart p.1 p.2.1)
  s.dies.flatMap (fun p => (p.2.strips.filter (fun q => q.2.drainsNext)).map (fun q => .nest p.1 q.1)) ++
    (l.filter (·.2.2)).map go ++ (l.filter (fun p => !p.2.2)).map go

/-- The steps of a strip (14 R357, 15 R382-R385). -/
def State.stripMoves (s : State) (die n : Nat) : List Move :=
  let x := s.strip die n
  match x.st with
  | .free => []
  | .returning => [.nest die n, .head die n, .unit (.stripRundownEnd die n)]
  | .scrubbing => [.unit (.stripScrubComplete die n)]
  | _ => [.nest die n, .head die n, .unit (.fragmentSaveComplete die n)]

/-- The steps of a die: its strips, its escrow store (12 R307, R309), and its clusters' operating points (18 R462). -/
def State.dieMoves (s : State) (d : Nat) (x : Die) : List (List Move) :=
  [ x.strips.flatMap (fun p => s.stripMoves d p.1),
    (if x.defer.isEmpty then [] else [.unit (.deferredAppend d)]) ++
      (x.esc.filter (fun p => p.2.tag = 0)).map (fun p => .unit (.escrowApply d p.1)),
    x.opWant.map (fun p => .unit (.opPointChange d p.1)) ]

/-- The steps of the scheduler about a task (17 Table 17.3). -/
def Task.moves (k : Task) : List Move :=
  let life : List Event := match k.st with
    | .ready => [.leaseMapped k.id]
    | .mapped => [.gangStart k.id, .preemptGang k.id]
    | .reserved => [.gangStart k.id, .gangRestore k.id]
    | .saving => [.gangSaveComplete k.id]
    | .saved => [.gangRestore k.id, .preemptGang k.id]
    | .clearing => [.clearingComplete k.id]
    | _ => []
  let ends : List Event := if k.doom = 0 then [] else [.taskDiscard k.id]
  (ends ++ life).map .unit

/-- A queue has a record to finish, or a raise to end (17 R428, R444). -/
def State.finishDue (s : State) (n q : Nat) : Bool :=
  s.launches.any (fun l => l.svc == n && l.queue == q &&
    (s.launchDone l || (decide (2 ≤ l.status) && l.index = (s.lnqHead n q).head && (s.lnqHead n q).head ≠ (s.lnqHead n q).acc))) ||
  ((s.lnqHead n q).raised && decide (s.lnqDepth n q < fld (s.reg (.lnqCtl n q)) 31 16))

/-- The services any of whose launch queue registers have been written (17 R427). -/
def State.queueSvcs (s : State) : List Nat :=
  ((s.regs.filter (fun p => decide (0x60000 ≤ p.1) && decide (p.1 < 0x80000))).map (fun p => (p.1 - 0x60000) / 0x800)).eraseDups

/-- The steps of the scheduler about queues and threads. -/
def State.queueMoves (s : State) : List Move :=
  (((s.launches.map (fun (l : Launch) => 16 * l.svc + l.queue)) ++ s.lnq.map (fun p => p.1)).eraseDups.filter (fun k => s.finishDue (k / 16) (k % 16))).map
    (fun k => .unit (.recordFinish (k / 16) (k % 16))) ++
  s.queueSvcs.map (fun n => .unit (.gangAccept n)) ++
  (s.threads.filter (fun th => th.issue.lext.isSome)).map (fun th => .unit (.schedulerReply th.c th.t))

/-- What the meshes grant next, at each die (11 R297): a message to a core, a write or a reduction at a home (07 R203, 09 R233, 11 R284), or a
request whose owner waits for it. -/
def State.meshMoves (s : State) : List Move :=
  ((List.range 8).filterMap (fun d => (s.meshPick d).map (fun x => match x.kind with
    | .red => Move.unit .atomicApply
    | .store => .unit .homeSliceWrite
    | .msg => .unit (.remoteRequestArrive (s.mesh.findIdx (fun m => m.n == x.n)))
    | .own => .grant d))).eraseDups

/-- The steps of a drawer link: the slots of this cycle, and answers (12 R317, R319). -/
def State.linkMoves (s : State) (l : Nat) (k : Link) : List Move :=
  (if k.wait.isEmpty then [] else
    (List.range (slotAt (s.now + 1) - slotAt s.now)).map (fun i => .unit (.drawerSlotSend l ((slotAt s.now + i) % 256)))) ++
  (if k.sent.isEmpty then [] else [.unit (.drawerReadReturn l), .unit (.drawerWriteComplete l)])

/-- Fetches, hardware puts, and what peers wait for (12 R301, R306; 20 R484, R486). -/
def State.otherMoves (s : State) : List Move :=
  (if s.brs.st = 1 then [.unit .loadComplete] else []) ++
  s.fetches.map (fun f => .unit (.fetchComplete f.svc f.tid f.idx)) ++
  ((s.hwPuts.map (fun h => (h.set, h.z))).eraseDups).map (fun p => .unit (.hwFramePut p.1 p.2)) ++
  (List.range s.peerQ.length).map (fun n => .unit (.peerAccess (.perform n))) ++
  (List.range s.leaseAsks.length).map .ask ++ (List.range s.tinvQ.length).map .recall ++ (List.range s.drops.length).map .drops ++
  (List.range s.ackOwed.length).map .ack ++ (List.range s.heldSectors.length).map .notice

/-- Grants, which come before all else: a request with `try` asks once (14 R367, 18 R454). -/
def State.grantMoves (s : State) : List Move :=
  s.dies.flatMap (fun p =>
    (if (p.2.tq ++ p.2.enter).any (fun q => !q.2.isEmpty) then [.unit (.tellerGrant p.1)] else []) ++
    (if p.2.leaveQ.any (fun q => !q.2.isEmpty) then [.unit (.leaveGrant p.1)] else []))

/-- The stages and units that may act, in the order in which they are tried: grants, then cores, dies, the scheduler, meshes, links and the
rest in turn. -/
def State.moves (s : State) : List Move :=
  let cs := (s.threads.map (·.c) ++ (s.cores.filter (fun p => !p.2.chans.isEmpty)).map (·.1)).eraseDups
  let bs := cs.flatMap s.coreMoves ++ s.dies.flatMap (fun p => s.dieMoves p.1 p.2) ++
    [s.startMoves, s.tasks.flatMap Task.moves, s.queueMoves, s.meshMoves, s.links.flatMap (fun p => s.linkMoves p.1 p.2), s.otherMoves]
  let k := s.now % bs.length
  s.grantMoves ++ (bs.drop k ++ bs.take k).flatten

/-! ### Making a move ready -/

/-- A word that an engine's queue takes, and that a VWAIT before it holds at the front (06 R177). -/
def steered (i : Instr) : Bool :=
  match engineOf i with
  | .v | .a | .m | .c | .y => true
  | _ => false

/-- The value of an uncorrectable error at a fetch (10 R259, 16 R415). -/
def State.fetchVal (s : State) (k : Task) (pc : Word) : Word :=
  match s.desc? k.svc k.code with
  | some d => faultVal k.code 6 ((d.loc [pc.toNat]).1 * d.bytes)
  | none => faultVal k.code 6 0

/-- The front of a thread cannot act. -/
def State.frontHeld (s : State) (th : Thread) : Ready :=
  if th.issue.group then .hold (s.setThread { th with issue := { th.issue with group := false } }) else .skip

/-- Runs a thread's next word: behind a VWAIT a word for an engine waits until it has issued and every result has landed (06 R177).
Log entry 20, DEDUCED. -/
def State.frontGo (s : State) (th : Thread) (i : Instr) : Ready :=
  if th.issue.vwait && steered i then
    if !(th.xq.isEmpty && th.land.isEmpty) then s.frontHeld th
    else
      let th1 := { th with issue := { th.issue with vwait := false } }
      .run i ((s.setThread th1).atFront th1 i)
  else .run i (s.atFront th i)

/-- Makes the front of a thread ready: it fetches and decodes, unless too much hangs on words that can trap (05 R147, 16 R406). -/
def State.frontReady (s : State) (th : Thread) (k : Task) : Ready :=
  if th.frontFull then s.frontHeld th
  else match s.look th with
  | .instr i => (s.warm th.c k (if th.lpre.isSome then th.pc + 4 else th.pc)).frontGo th i
  | .idle i => .done ((s.warm th.c k th.pc).discard th i)
  | .trap cause val =>
    if th.settled th.seq then .run .takeTrap (s.atEvent (.takeTrap th.c th.t cause val)) else s.frontHeld th
  | .wait => s.frontHeld th
  | .fetch idx => if s.fetching k.svc k.code idx then s.frontHeld th else .done (s.askFetch k.svc k.code idx)
  | .poisoned pa =>
    .done (s.consume k.id th.c th.t th.pc th.csr.corr (memUnit pa) (homeDie pa) (homeSlice pa) pa (s.fetchVal k th.pc))

/-- A thread's task runs, and nothing ends it. Log entry 19, DEDUCED. -/
def Task.goes (k : Task) : Bool := k.st == .running && k.doom = 0

/-- A thread of a gang that a trap has ended waits in BWAIT on an object that a kill has poisoned, and can take POISON
there: it does so before its gang is killed, once its older V words have issued that can (08 R210, R215; 16 R407, R414). Log entry 19,
DEDUCED. -/
def State.poisonWaits (s : State) (th : Thread) (k : Task) : Bool :=
  k.doom = 1 && k.st == .running && !th.issue.stopped && !s.denied th .a &&
  (match th.aq with
  | e :: _ =>
    (match e.ins with
    | .bwait _ a _ i => th.issue.waitA.isSome && (th.settled e.seq || !s.denied th .v) &&
        (match s.objRef th.task th.group th.c (th.aVal a) i.toNat with
        | .ok o => th.issue.woke == some (e.seq, .poison) ||
            (th.issue.woke.isNone && (o.1 == th.c || th.issue.far == some (e.seq, true)) && ((s.core o.1).bar o.2).poison)
        | .error _ => false)
    | _ => false)
  | [] => false)

/-- The task of a strip may go on: it is not being discarded after containment, and a gang that is saved stops at a retirement (14 R363,
19 R472). A returning lease runs on after its task. -/
def State.stripGoes (s : State) (x : Strip) (nest : Bool) : Bool :=
  match s.task? x.task with
  | none => true
  | some k => k.doom ≠ 2 && (k.st ≠ .saving || x.st == .returning || (nest && !x.retired))

/-- The state in which a word of a fragment is run. -/
def State.atUnit (s : State) (die n : Nat) (e : QEntry) (nest : Bool) : State :=
  { s with cur := { c := e.c, t := e.t, front := false, e := e, ev := none, unit := some (die, n, nest), stalled := false } }

/-- Makes a move ready. -/
def State.prepare (s : State) (m : Move) : Ready :=
  match m with
  | .front c t =>
    (match s.thread? c t with
    | none => .skip
    | some th => match s.task? th.task with
      | none => .skip
      | some k =>
        if k.goes then
          (if th.issue.refused.isSome then
             (if th.settled th.point && th.issue.woke.isNone && !s.headPast th then
                .done (s.refusedTrap th (th.issue.refused.getD 0)) else s.frontHeld th)
           else if th.issue.stopReq ≠ 0 && s.mayStop th then .done (s.tryStop th)
           else if th.issue.stopReq ≠ 0 && (!th.inLoops || th.atPass) then s.frontHeld th
           else s.frontReady th k)
        else if k.st == .saving && k.doom ≠ 2 && th.issue.got.isSome then s.frontReady th k
        else .skip)
  | .access c t =>
    (match s.thread? c t with
    | none => .skip
    | some th => match th.aq, s.task? th.task with
      | e :: _, some k => if k.goes || s.poisonWaits th k || (k.st == .saving && k.doom ≠ 2 && (s.headPast th || th.goesOn)) then
          .run e.ins (s.atHead th e) else .skip
      | _, _ => .skip)
  | .v c t =>
    (match s.thread? c t with
    | none => .skip
    | some th => match th.xq, s.task? th.task with
      | e :: _, some k => if k.goes || (k.st == .saving && k.doom ≠ 2 && older e.seq th.point) ||
          (s.poisonWaits th k && older e.seq th.point) then .run e.ins (s.atHead th e) else .skip
      | [], some k => if k.goes && th.drains then .done (s.drainTick th) else .skip
      | _, _ => .skip)
  | .nest die n =>
    let x := s.strip die n
    if !s.stripGoes x true then .skip
    else (match x.drain, x.run with
    | some r, _ => .run r.e.ins (s.atUnit die n r.e true)
    | none, some r =>
      if r.finished then .run .nestComplete (s.atEvent (.nestComplete die n))
      else (match x.abody[r.word]? with
        | some e => .run e.ins (s.atUnit die n e true)
        | none => .skip)
    | none, none => .skip)
  | .head die n =>
    let x := s.strip die n
    if !s.stripGoes x false || s.driverOf die n ≠ n then .skip
    else (match x.q with
    | e :: _ => .run e.ins (s.atUnit die n e false)
    | [] => .skip)
  | .unit e =>
    (match e with
    | .taskDiscard id => (match s.task? id with
      | some k => if s.threads.any (fun th => th.task == id && s.poisonWaits th k) then .skip else .run e.row (s.atEvent e)
      | none => .run e.row (s.atEvent e))
    | _ => .run e.row (s.atEvent e))
  | .ask n =>
    (match s.leaseAsks[n]? with
    | none => .skip
    | some q => .run .peerLeaseRequest
        (({ s with leaseAsks := s.leaseAsks.eraseIdx n } : State).atEvent (.peerLeaseRequest q.pkg q.svc q.tid q.tiles q.write q.like)))
  | .recall n =>
    (match s.tinvQ[n]? with
    | none => .skip
    | some q => .run .svcTinvWrite (({ s with tinvQ := s.tinvQ.eraseIdx n } : State).atEvent (.svcTinvWrite q.1 q.2 .host)))
  | .grant die =>
    (match (s.meshPick die).bind (fun x => s.waits.find? (fun w => w.n == x.n)) with
    | some w => .done (s.grantWait w)
    | none => .skip)
  | .drops n =>
    (match s.drops[n]? with
    | some x => if s.dropHeldUp x then .skip else .done ({ s with drops := s.drops.eraseIdx n } |>.makeDrops x)
    | none => .skip)
  | .ack n =>
    (match s.ackOwed[n]? with
    | some h => if s.inFlight h then .skip else .done (s.ackRecall h)
    | none => .skip)
  | .notice n =>
    (match s.heldSectors[n]? with
    | some x => if s.noticeDue x then .done (s.holdAgain n x) else .skip
    | none => .skip)

/-! ### Steps that fall due -/

/-- Boundaries of periods that have been passed (11 R279, 18 R448, R459). Log entry 39, DESIGN CHOICE. -/
def State.periodDue (s : State) : Option Event :=
  if s.alwPd < s.alwPeriodNow then some (.allowancePeriod (Config.overCeiling s.freeCount))
  else match (List.range 8).find? (fun d => decide ((s.die d).slicePd < s.now / 1024)) with
    | some d => some (.slicePeriod d)
    | none => ((List.range 8).find? (fun d => decide ((s.die d).actPd < s.now / 1024))).map .activityPeriod

/-- What has fallen due for a thread: results of V words, the end of a SLEEP, and waits that have reached their limit. -/
def State.threadDue (s : State) (th : Thread) : Option Event :=
  if th.land.any (fun l => decide (l.due ≤ th.tick)) then some (.vResultLand th.c th.t)
  else if !(match s.task? th.task with
    | some k => k.goes
    | none => false) then none
  else if (match th.issue.sleepEnd with
    | some n => decide (n ≤ s.now)
    | none => false) then some (.sleepExpiry th.c th.t)
  else if (s.waitTrap th blockKind).isSome then some (.waitTimeout th.c th.t)
  else if (s.waitTrap th escrowKind).isSome then some (.escrowWaitTimeout th.c th.t)
  else if (s.waitTrap th linkKind).isSome then some (.linkstall th.c th.t)
  else if (s.stallTrap th).isSome then some (.vStallTimeout th.c th.t)
  else none

/-- What has fallen due on a link (12 R320, R325). -/
def State.linkDue (s : State) (l : Nat) (k : Link) : Option Event :=
  if (k.st = .training || k.st = .retraining) && decide (k.since + trainCycles ≤ s.now) then some (.trainingTimeout l)
  else if k.st = .retraining && bit (s.reg (.phOwn l)) 7 && !s.lanesOk l && decide (k.since + tuneCycles ≤ s.now) then
    some (.tuningTimeout l)
  else none

/-- What has fallen due on a die (18 R451, R461; 11 R282). -/
def State.dieDue (s : State) (d : Nat) : Option Event :=
  if s.ageingDue d then some (.leaveAgeing d)
  else if s.eccDue d then some (.eccModeChangeDone d)
  else if s.railMoves d then some (.sramRailSettled d)
  else none

/-- A request that has waited long enough to be urgent (11 R297): its source's die, and its number. -/
def State.meshDue (s : State) : Option Event :=
  let late (fast : Bool) (since : Nat) : Bool := !fast && decide (since + 1024 ≤ s.now)
  let l := (s.mesh.filter (fun m => late (m.urgent || m.fast) m.since)).map (fun m => (m.c, m.n)) ++
    (s.storeQ.filter (fun q => !q.host && late (q.urgent || q.fast) q.since)).map (fun q => (q.c, q.n)) ++
    (s.homeQ.filter (fun q => late (q.urgent || q.fast) q.since)).map (fun q => (q.c, q.n)) ++
    (s.waits.filter (fun w => w.got.isNone && late (w.vc.urgent || w.fast) w.since)).map (fun w => (w.c, w.n))
  l.head?.map (fun p => .urgentPromotion (dieOf p.1) p.2)

/-- A step that has fallen due. -/
def State.due (s : State) : Option Event :=
  match s.periodDue with
  | some e => some e
  | none => match s.threads.findSome? s.threadDue with
    | some e => some e
    | none => match s.links.findSome? (fun p => s.linkDue p.1 p.2) with
      | some e => some e
      | none => match s.dies.findSome? (fun p => s.dieDue p.1) with
        | some e => some e
        | none => match s.meshDue with
          | some e => some e
          | none => (s.fab.find? s.fabLate).map (fun q => .fabricTimeout q.id)

/-- The physical addresses at which a placed program's descriptor table, descriptor, root, leaf and code stand. -/
def placeAt : Nat := 0x100000

/-- The state with a running thread whose next word is `w`: service 0 with a descriptor table of its own, whose tensor 0
is a code tensor of one tile, a task of one thread on core 0 of die 0. -/
def State.withRunning (s : State) (w : Nat) : State :=
  let m := s.mem
  let m := m.putWord placeAt 0x9300200000000000
  let m := m.putWord (placeAt + 8) 12
  let m := m.putWord (placeAt + 16) 4096
  let m := m.putWord (placeAt + 40) 0x140000
  let m := m.putWord (placeAt + 48) 1
  let m := m.putWord 0x140000 0x141001
  let m := m.putWord 0x141000 0x8000000000142000
  let m := m.putN 0x142000 4 w
  let m := m.putN 0x142004 4 0
  let s1 := { s with mem := m, agenda := [], brs := { s.brs with st := 2 } }
  let s2 := (s1.setReg (.svcDtab 0) (wd (placeAt + 1))).setReg (.svcCtl 0) 0xC01
  let k : Task := { id := 1, svc := 0, queue := 0, launch := 0, gang := 0, seq := 0, run := 0, cls := 0, st := .running,
                    hdr := [], ranges := [], held := [], extra := 0, deps := [], die := 0, cores := [0], leaveOk := true, leave := 0,
                    leaseOk := 0, saved := none, doom := 0, culprit := none, tag := 0 }
  let g : Group := { task := 1, j := 0, c := 0, base := 0, size := 1, tbase := 0, tcnt := 1, live := 1, lease := 0,
                     mask := 0, shape := 0, lq := 0, mode := 0, flt := 0, lost := 0, pend := false, mferr := 0, rxw := 0,
                     ended := false }
  { s2 with threads := [Thread.blank], tasks := [k], groups := [g], nextTask := max 2 s.nextTask }

end Sys2Proof.Machine
end

