-- ==== Sys2Proof/Machine/Step.lean ====
section
/-!
DEFINITION. One step of the package: a step that a unit owes, else a step that has fallen due, else the first stage, in
the order of the picks, whose word makes progress, else a cycle in which nothing happens.
-/

namespace Sys2Proof.Machine

/-- One cycle has passed. Log entry 10, DESIGN CHOICE. -/
def Out.tick : Out → Out
  | .next s => .next { s with now := s.now + 1 }
  | .fault r => .fault r
  | .refused r => .refused r

/-- Makes a step of the device. -/
def runEvent (s : State) (e : Event) : Out := Out.tick (exec e.row (s.atEvent e))

/-- Makes the first of some moves that is no wait; a cycle passes in any case (04 R106: a stage whose word waits is not
ready). -/
def runMoves (s : State) : List Move → Out
  | [] => .next { s with now := s.now + 1 }
  | m :: r =>
    match s.prepare m with
    | .skip => runMoves s r
    | .hold s1 => runMoves s1 r
    | .done s1 => .next { s1 with now := s1.now + 1 }
    | .run i s1 =>
      match exec i s1 with
      | .next s2 => if s2.cur.stalled then runMoves s2 r else .next { s2 with now := s2.now + 1 }
      | .fault f => .fault f
      | .refused f => .refused f

/-- One step. Log entry 9, DESIGN CHOICE. -/
def step (s : State) : Host.Outcome State Fault Refusal :=
  match s.agenda with
  | e :: r => runEvent { s with agenda := r } e
  | [] =>
    match s.due with
    | some e => runEvent s e
    | none => runMoves s s.moves

/-- The state with an instruction of `nbits` bits `w` as the next one of a running thread, the bits above zero: the bytes
of the word, and of zeros after it, stand at the pc of thread 0 of core 0. Log entry 8, DESIGN CHOICE. -/
def State.withFetchWord (s : State) (nbits w : Nat) : State := s.withRunning (w % 2 ^ nbits)

end Sys2Proof.Machine
end

