-- ==== Sys2Proof/Safety.lean ====
section
/-!
DEFINITION. What counts as a safe run: a run of any number of steps that meets neither a fault nor a refusal.
-/

namespace Sys2Proof

/-- From `s`, `n` steps end in a next state. -/
def SafeFor (n : Nat) (s : Machine.State) : Prop := ∃ t, core.run n s = .next t

/-- Every number of steps from `s` ends in a next state. -/
def Safe (s : Machine.State) : Prop := ∀ n, SafeFor n s

end Sys2Proof
end

