-- ==== Sys2Proof/Claims/Base.lean ====
section
/-!
DEFINITION. The situations that the statements speak of: a word at the front of a thread, a word at the head of a queue, a step that
is due, and what stays the same in the rest of the package.
-/

namespace Sys2Proof.Machine

/-- A thread that writes no trace records, is not asked to stop and has room in its history for a word's entries, those of the loop levels
that it may leave among them (05 R146). -/
structure Thread.Calm (th : Thread) : Prop where
  quiet : th.csr.trc = 0
  free : th.issue.stopReq = 0
  room : th.hist.length + th.loops.length + 8 ≤ 64

/-- The word at hand stands at the front of thread `th`. -/
structure AtFront (s : State) (th : Thread) : Prop where
  here : s.thread? s.cur.c s.cur.t = some th
  front : s.cur.front = true
  calm : th.Calm

/-- The word at hand stands at the front of thread `th`, and no older access word is left (05 R147). -/
structure AtHorizon (s : State) (th : Thread) : Prop where
  here : s.thread? s.cur.c s.cur.t = some th
  front : s.cur.front = true
  calm : th.Calm
  horizon : th.atHorizon th.seq = true

/-- The word `i` at hand stands at the head of the execute queue of thread `th`, and can issue (04 R102, R103). -/
structure AtIssue (s : State) (th : Thread) (i : Instr) : Prop where
  here : s.thread? s.cur.c s.cur.t = some th
  queue : s.cur.front = false
  word : s.cur.e.ins = i
  ready : th.vBlocked s.now s.cur.e = none

/-- The word at hand stands at the head of the access queue of thread `th` (02 R38). -/
structure AtAccess (s : State) (th : Thread) : Prop where
  here : s.thread? s.cur.c s.cur.t = some th
  queue : s.cur.front = false

/-- The state in which the thread of the front word at hand stands as `x` and moves past the word, to `tgt` or to the next word. -/
def State.past (s : State) (x : Thread) (tgt : Option Word) : State := s.setThread (x.advance s.cur.e tgt s.now)

/-- The state in which the thread of the access word at hand stands as `x` and the word has left its queue. -/
def State.accessed (s : State) (x : Thread) : State := s.setThread (x.accessDone s.now)

end Sys2Proof.Machine
end

