-- ==== Sys2Proof/Claims/Front.lean ====
section
/-!
DEFINITION. What the chapter of the front gives as the results of the S words, in arithmetic of integers and natural numbers (05
Tables 5.2 to 5.4).
-/

namespace Sys2Proof.Machine

/-- The integer that an immediate stands for, with its L word's bits above it (02 R49). -/
def immInt {n : Nat} (i : BitVec n) (pre : Option (BitVec 29)) : Int :=
  match pre with
  | none => i.toInt
  | some p => (p ++ i).toInt

/-- The widths of the fields of a work identifier below field `k`, added up (01 R27). -/
def widthsBelow (ws : Word) : Nat → Nat
  | 0 => 0
  | k + 1 => widthsBelow ws k + ws.toNat / 2 ^ (6 * k) % 64

/-- Sources, destination and result of the S words that always write one result (05 Tables 5.2, 5.3, R129 to R132, R144). -/
def scalarOf (th : Thread) (i : Instr) : Option (List (BitVec 5) × BitVec 5 × Word) :=
  let n (r : BitVec 5) : Nat := (th.sVal r).toNat
  let z (r : BitVec 5) : Int := (th.sVal r).toInt
  let is (b : Prop) [Decidable b] : Word := if b then 1 else 0
  match i with
  | .add d a b => some ([a, b], d, wd (n a + n b))
  | .sub d a b => some ([a, b], d, BitVec.ofInt 64 (z a - z b))
  | .mul d a b => some ([a, b], d, wd (n a * n b))
  | .mulh d a b => some ([a, b], d, BitVec.ofInt 64 (z a * z b / 2 ^ 64))
  | .mulhn d a b => some ([a, b], d, wd (n a * n b / 2 ^ 64))
  | .and d a b => some ([a, b], d, th.sVal a &&& th.sVal b)
  | .or d a b => some ([a, b], d, th.sVal a ||| th.sVal b)
  | .xor d a b => some ([a, b], d, th.sVal a ^^^ th.sVal b)
  | .shl d a b => some ([a, b], d, wd (n a * 2 ^ (n b % 64)))
  | .shr d a b => some ([a, b], d, wd (n a / 2 ^ (n b % 64)))
  | .sra d a b => some ([a, b], d, BitVec.ofInt 64 (z a / 2 ^ (n b % 64)))
  | .slt d a b => some ([a, b], d, is (z a < z b))
  | .sltn d a b => some ([a, b], d, is (n a < n b))
  | .seq d a b => some ([a, b], d, is (n a = n b))
  | .min d a b => some ([a, b], d, BitVec.ofInt 64 (min (z a) (z b)))
  | .minn d a b => some ([a, b], d, wd (min (n a) (n b)))
  | .max d a b => some ([a, b], d, BitVec.ofInt 64 (max (z a) (z b)))
  | .maxn d a b => some ([a, b], d, wd (max (n a) (n b)))
  | .wfld d a k => some ([a], d, wd (n a / 2 ^ widthsBelow th.widw k.toNat % 2 ^ (th.widw.toNat / 2 ^ (6 * k.toNat) % 64)))
  | .addi d a i p => some ([a], d, BitVec.ofInt 64 (z a + immInt i p))
  | .andi d a i p => some ([a], d, th.sVal a &&& BitVec.ofInt 64 (immInt i p))
  | .ori d a i p => some ([a], d, th.sVal a ||| BitVec.ofInt 64 (immInt i p))
  | .xori d a i p => some ([a], d, th.sVal a ^^^ BitVec.ofInt 64 (immInt i p))
  | .shli d a c => some ([a], d, wd (n a * 2 ^ c.toNat))
  | .shri d a c => some ([a], d, wd (n a / 2 ^ c.toNat))
  | .srai d a c => some ([a], d, BitVec.ofInt 64 (z a / 2 ^ c.toNat))
  | .slti d a i p => some ([a], d, is (z a < immInt i p))
  | .movi d i p => some ([], d, BitVec.ofInt 64 (immInt i p))
  | .movhi d i p => some ([d], d, wd ((immInt i p % 2 ^ 32).toNat * 2 ^ 32 + n d % 2 ^ 32))
  | .sel d a b c => some ([a, b, c], d, if n c = 0 then th.sVal b else th.sVal a)
  | .lcnt d r l => some ([], d, match th.loops[l.toNat]? with
    | none => BitVec.allOnes 64
    | some y => if r = 1 then wd (y.count - y.j) else wd y.j)
  | _ => none

/-- Sources, condition and offset of a conditional branch (05 Table 5.4). -/
def branchOf (th : Thread) (i : Instr) : Option (List (BitVec 5) × Prop × Int) :=
  let n (r : BitVec 5) : Nat := (th.sVal r).toNat
  let z (r : BitVec 5) : Int := (th.sVal r).toInt
  match i with
  | .beq a b o p => some ([a, b], n a = n b, immInt o p)
  | .bne a b o p => some ([a, b], n a ≠ n b, immInt o p)
  | .blt a b o p => some ([a, b], z a < z b, immInt o p)
  | .bge a b o p => some ([a, b], z b ≤ z a, immInt o p)
  | .bltn a b o p => some ([a, b], n a < n b, immInt o p)
  | .bgen a b o p => some ([a, b], n b ≤ n a, immInt o p)
  | _ => none

/-- Destination, dividend, divisor and result of a division by a divisor other than zero (05 R127). -/
def divisionOf (th : Thread) (i : Instr) : Option (BitVec 5 × BitVec 5 × BitVec 5 × Word) :=
  let n (r : BitVec 5) : Nat := (th.sVal r).toNat
  let z (r : BitVec 5) : Int := (th.sVal r).toInt
  match i with
  | .div d a b => some (d, a, b, BitVec.ofInt 64 ((z a).tdiv (z b)))
  | .divn d a b => some (d, a, b, wd (n a / n b))
  | .rem d a b => some (d, a, b, BitVec.ofInt 64 ((z a).tmod (z b)))
  | .remn d a b => some (d, a, b, wd (n a % n b))
  | _ => none

/-- Source, destination and source word of a count of bits (05 R128). -/
def countOf (i : Instr) : Option (BitVec 5 × BitVec 5 × (Word → Nat → Prop)) :=
  match i with
  | .clz d a => some (d, a, fun x n => n ≤ 64 ∧ (∀ j, 64 - n ≤ j → x.getLsbD j = false) ∧ (n < 64 → x.getLsbD (63 - n) = true))
  | .ctz d a => some (d, a, fun x n => n ≤ 64 ∧ (∀ j, j < n → x.getLsbD j = false) ∧ (n < 64 → x.getLsbD n = true))
  | .popc d a => some (d, a, fun x n => n = ((List.range 64).filter (fun j => x.getLsbD j)).length)
  | _ => none

end Sys2Proof.Machine
end

