-- ==== Sys2Proof/Claims/Access.lean ====
section
/-!
DEFINITION. What the chapters of the access engine give for A and Y words: results of the `a` and `k` files (07 R193, R194, 10 R268),
the bytes that scratchpad and tensor words reach (07 R181 to R199, 10 R257 to R272), and the updates of objects and of words in memory
(08 R207 to R220, 11 Table 11.3).
-/

namespace Sys2Proof.Machine

/-- The word at hand stands at the head of the access queue of thread `th`; no watchpoint of the thread is armed, it does not record,
and no task takes part in race detection (02 R38, 09 R246, 21 R504, R506). -/
structure AtPlainAccess (s : State) (th : Thread) : Prop where
  here : AtAccess s th
  unwatched : ∀ n, n < 4 → fld (th.csr.wpt.get 0 n) 63 62 = 0
  unrecorded : fld th.csr.recd 1 0 = 0
  raceless : ∀ k ∈ s.tasks, k.raced = false

/-- The state in which the thread of the access word at hand has been changed by `f` and the word has left its queue. -/
def State.accessedBy (s : State) (th : Thread) (f : Thread → Thread) : State :=
  s.modThread th.c th.t (fun x => (f x).accessDone s.now)

/-! ### Registers -/

/-- Sources, destination and result of the words that write a function of `a` registers (07 R194). -/
def accessOf (th : Thread) (i : Instr) : Option (List (BitVec 5) × BitVec 5 × Word) :=
  let n (r : BitVec 5) : Nat := (th.aVal r).toNat
  match i with
  | .aadd d a b => some ([a, b], d, wd (n a + n b))
  | .asub d a b => some ([a, b], d, BitVec.ofInt 64 ((th.aVal a).toInt - (th.aVal b).toInt))
  | .amul d a b => some ([a, b], d, wd (n a * n b))
  | .ashl d a b => some ([a, b], d, wd (n a * 2 ^ (n b % 64)))
  | .ashr d a b => some ([a, b], d, wd (n a / 2 ^ (n b % 64)))
  | .aand d a b => some ([a, b], d, th.aVal a &&& th.aVal b)
  | .aor d a b => some ([a, b], d, th.aVal a ||| th.aVal b)
  | .aaddi d a k p => some ([a], d, BitVec.ofInt 64 ((th.aVal a).toInt + immInt k p))
  | .amovi d k p => some ([], d, BitVec.ofInt 64 (immInt k p))
  | .amovhi d k p => some ([d], d, wd ((immInt k p % 2 ^ 32).toNat * 2 ^ 32 + n d % 2 ^ 32))
  | _ => none

/-- Coordinate `j` of register `r`. -/
def Thread.coord (th : Thread) (r : BitVec 3) (j : Nat) : BitVec 32 := Tab.get 0 (Tab.get [] th.f.k r.toNat) j

/-- Sources, destination and coordinates of the words that write a `k` register (10 R268). -/
def coordsOf (th : Thread) (i : Instr) : Option (List (BitVec 5) × BitVec 3 × (Nat → BitVec 32)) :=
  match i with
  | .kset d a p => some ([a], d, fun j =>
      if j = 2 * p.toNat then (th.aVal a).setWidth 32
      else if j = 2 * p.toNat + 1 then (th.aVal a >>> 32).setWidth 32 else th.coord d j)
  | .kadd d a b => some ([], d, fun j => th.coord a j + th.coord b j)
  | .kaddi d a e k p => some ([], d, fun j => th.coord a j + if j = k.toNat then BitVec.ofInt 32 (immInt e p) else 0)
  | .kclr d => some ([], d, fun _ => 0)
  | _ => none

/-- The `k` registers that a word which writes one reads (10 R268). -/
def kReads (i : Instr) : List (BitVec 3) :=
  match i with
  | .kset d _ _ => [d]
  | .kadd _ a b => [a, b]
  | .kaddi _ a _ _ _ => [a]
  | _ => []

/-! ### Scratchpad bytes -/

/-- Byte `k` of a vector. -/
def vecByte (v : Vec) (k : Nat) : Byte := v.extractLsb' (8 * k) 8

/-- `n` bytes at the address `x`, aligned to `al`, lie in the window of group `g` that `x` names, outside the barrier region and every
registered tile (07 R181 to R183). -/
structure InWindow (s : State) (th : Thread) (g : Group) (x : Word) (n al : Nat) : Prop where
  group : s.refGroup th.task th.group th.c x = some g
  aligned : x.toNat % al = 0
  some : 0 < n
  inside : x.toNat % 2 ^ 21 + n ≤ 65536 * g.size
  below : 65536 * g.base + x.toNat % 2 ^ 21 + n ≤ 0x1FC000
  free : ∀ p ∈ s.tilesOf g, 512 * (p.2.base + p.2.size) ≤ x.toNat % 2 ^ 21 ∨ x.toNat % 2 ^ 21 + n ≤ 512 * p.2.base

/-- The offset in its core's scratchpad of the byte that an address names in a group's window (07 R179). -/
def Group.place (g : Group) (x : Word) : Nat := 65536 * g.base + x.toNat % 2 ^ 21

/-- Addresses of the elements of a scratchpad word, their bytes and their alignment; none for an element that is skipped (07 R195,
R197, R198). -/
def elementsOf (th : Thread) (i : Instr) : Option (Nat × Nat × List (Option Word)) :=
  let near (a : BitVec 5) (k : BitVec 13) (p : Option (BitVec 29)) : Word :=
    BitVec.ofInt 64 ((th.aVal a).toInt + 8 * immInt k p)
  let size (w : BitVec 1) : Nat := if w = 0 then 4 else 8
  let lanes (w : BitVec 1) (f : Nat → Option Word) : Option (Nat × Nat × List (Option Word)) :=
    some (size w, size w, (List.range (256 / size w)).map f)
  let step (a b : BitVec 5) (j : Nat) : Option Word := some (BitVec.ofNat 64 ((th.aVal a).toNat + j * (th.aVal b).toNat))
  let pick (a : BitVec 5) (w : BitVec 1) (j : Nat) : Option Word :=
    let k : BitVec 32 := (headVal 0 th.q.vaq).extractLsb' (32 * j) 32
    if k = BitVec.allOnes 32 then none else some (BitVec.ofNat 64 ((th.aVal a).toNat + size w * k.toNat))
  match i with
  | .lds _ a k p | .sts _ a k p => some (8, 8, [some (near a k p)])
  | .ldv _ a k p | .stv a k p => some (256, 8, [some (near a k p)])
  | .ldvs _ a b w | .stvs a b w => lanes w (step a b)
  | .ldg _ a w | .stg a w => lanes w (pick a w)
  | _ => none

/-- An LDT or STT at offset `o` of a registered tile `y` of the thread's own group `g` (07 R199). -/
structure InTile (s : State) (th : Thread) (x : Word) (o : Int) (g : Group) (y : Tile) : Prop where
  named : x.toNat < 256
  group : s.groupOf? th = some g
  allotted : x.toNat < 8 * g.tcnt
  registered : (s.core g.c).tiles.find (8 * g.tbase + x.toNat) = some y
  sound : y.mark = false
  inside : 0 ≤ o ∧ o + 256 ≤ 512 * y.size

/-- The places, each a core and an offset of its scratchpad, at which the elements of a scratchpad word lie: `n` bytes each. -/
def Places (s : State) (th : Thread) (i : Instr) (n : Nat) (l : List (Option (Nat × Nat))) : Prop :=
  let inTile (a : BitVec 5) (k : BitVec 13) (p : Option (BitVec 29)) (ok : TileSt → Prop) : Prop :=
    n = 16 ∧ ∃ g y, InTile s th (th.aVal a) (16 * immInt k p) g y ∧ ok y.st ∧
      l = (List.range 16).map (fun c => some (g.c, 65536 * g.base + 512 * y.base + swz y.swz.toNat ((16 * immInt k p).toNat + 16 * c)))
  match i with
  | .ldt _ a k p => inTile a k p (· = .ready)
  | .stt a k p => inTile a k p (fun t => t = .ready ∨ t = .empty)
  | _ => ∃ al xs, elementsOf th i = some (n, al, xs) ∧ l.length = xs.length ∧ ∀ j, j < xs.length →
      match xs.getD j none with
      | none => l.getD j none = none
      | some x => ∃ g, InWindow s th g x n al ∧ l.getD j none = some (g.c, g.place x)

/-- The scalar sources of a scratchpad word, and whether it pops `vaq` and `sq`. -/
def popsOf (i : Instr) : List (BitVec 5) × Bool × Bool :=
  match i with
  | .lds _ a _ _ | .ldv _ a _ _ | .ldt _ a _ _ => ([a], false, false)
  | .ldvs _ a b _ => ([a, b], false, false)
  | .ldg _ a _ => ([a], true, false)
  | .sts d a _ _ => ([a, d], false, false)
  | .stv a _ _ | .stt a _ _ => ([a], false, true)
  | .stvs a b _ => ([a, b], false, true)
  | .stg a _ => ([a], true, true)
  | _ => ([], false, false)

/-- The ports of a scratchpad word can pop. -/
def PortsReady (s : State) (th : Thread) (i : Instr) : Prop :=
  th.aReady s.now s.cur.e.seq (popsOf i).1 = .ok () ∧ ((popsOf i).2.1 = true → headReady s.now th.q.vaq = true) ∧
    ((popsOf i).2.2 = true → headReady s.now th.q.sq = true)

/-- What the ports of a scratchpad word leave of its thread. -/
def Thread.popped (th : Thread) (i : Instr) : Thread :=
  let x := th.aPop (popsOf i).1
  let y := if (popsOf i).2.1 then x.vaqPop else x
  if (popsOf i).2.2 then y.sqPop else y

/-- What a scratchpad word stores, its first element's bytes lowest. -/
def storedOf (th : Thread) (i : Instr) : Vec :=
  match i with
  | .sts d _ _ _ => (th.aVal d).setWidth 2048
  | _ => headVal 0 th.q.sq

/-- The vector queue that a load fills; none for LDS, which writes a register. -/
def loadsTo (i : Instr) : Option (BitVec 5) :=
  match i with
  | .ldv d _ _ _ | .ldt d _ _ _ | .ldvs d _ _ _ | .ldg d _ _ => some d
  | _ => none

/-- `u` differs from `s` only in the banks that are at work, and in their counts (07 R184). -/
def OnlyBanks (s u : State) : Prop :=
  u = { s with cores := u.cores } ∧ ∀ c, { u.core c with busy := (s.core c).busy, bmx := (s.core c).bmx } = s.core c

/-- The count of the cycles that a requester has waited at a bank, after an access to one of its words (07 R184, 21 R503). -/
def bankCount (s : State) (c req b : Nat) : Nat :=
  let old := (s.core c).bmx.get 0 (32 * req + b)
  let wait := (s.core c).busy.get 0 b - s.now
  if wait = 0 then old else min (2 ^ 32 - 1) (old + wait)

/-- Byte `o` lies in the `n` bytes at a place of core `c`. -/
def Meets (c o n : Nat) (p : Option (Nat × Nat)) : Prop := ∃ a, p = some (c, a) ∧ a ≤ o ∧ o < a + n

/-! ### Objects -/

/-- A reference and an index name object `o` of a group's window (08 R205). -/
def NamesObject (s : State) (th : Thread) (r : Word) (idx : Nat) (o : Nat × Nat) : Prop :=
  r.toNat / 2 ^ 30 = 0 ∧ r.toNat / 2 ^ 10 % 2 ^ 11 = 0 ∧ ∃ g, s.refGroup th.task th.group th.c r = some g ∧
    r.toNat % 1024 + idx < 32 * g.size ∧ o = (g.c, 32 * g.base + r.toNat % 1024 + idx)

/-- What an update leaves of an object: `n` more bytes awaited, an arrival, an arrival that leaves for good; with none awaited the
phase goes on and every waiter is released (08 R207, R213). -/
def Bar.updated (b : Bar) (n : Int) (arv drop : Bool) : Bar :=
  let bytes := b.bytes + n
  let pend := if arv then b.pend - 1 else b.pend
  let reload := if drop then b.reload - 1 else b.reload
  let bad := b.poison || (arv && b.pend == 0) || (drop && b.reload == 0) || decide (bytes < 0)
  if pend = 0 ∧ bytes = 0 then
    { b with phase := b.phase + 1, poison := bad, reload := reload, pend := reload, bytes := 0, waiters := [] }
  else { b with poison := bad, reload := reload, pend := pend, bytes := bytes }

/-- A thread, but for the end of the wait of its access word. -/
def Thread.unwoken (x : Thread) : Thread := { x with issue := { x.issue with woke := none } }

/-- `t` differs from `u` only in the cores' objects, of which `o` is now `b`, in the messages that tell registrants of it, and in the waits
of threads, which may have ended. -/
def OneObject (t u : State) (o : Nat × Nat) (b : Bar) : Prop :=
  t = { u with cores := t.cores, agenda := t.agenda, threads := t.threads } ∧ (t.core o.1).bar o.2 = b ∧
    (∀ c, { t.core c with bars := (u.core c).bars } = u.core c) ∧
    (∀ c n, (c, n) ≠ o → (t.core c).bar n = (u.core c).bar n) ∧
    (∀ c n, (t.thread? c n).map Thread.unwoken = (u.thread? c n).map Thread.unwoken)

/-- The wait of the access word of thread `n` of core `c` has ended, as `w`. -/
def Woken (t : State) (c n : Nat) (w : Woke) : Prop :=
  ∃ x e q, t.thread? c n = some x ∧ x.aq = e :: q ∧ x.issue.woke = some (e.seq, w)

/-- Thread `n` of core `c` has an access word whose wait has not ended. -/
def Waits (s : State) (c n : Nat) : Prop := n < 8 ∧ ∃ x, s.thread? c n = some x ∧ x.aq ≠ [] ∧ x.issue.woke = none

/-! ### Full and empty words -/

/-- The tag that a word waits for, and the one that it leaves (08 R220). -/
def tagOf (i : Instr) : Option (Option Bool × Bool) :=
  match i with
  | .ldf _ _ _ _ => some (some true, true)
  | .ldfe _ _ _ _ => some (some true, false)
  | .stef _ _ _ _ => some (some false, true)
  | .stf _ _ _ _ => some (none, true)
  | .feset f _ _ => some (none, f == 1)
  | _ => none

/-! ### Atomics -/

/-- Bytes of an operation code (11 Table 11.3). -/
def codeBytes (p : Nat) : Nat :=
  if p < 15 then (if p % 5 = 4 then 2 else if p % 5 = 2 then 8 else 4) else if p < 0x18 then (if p % 2 = 1 then 4 else 8)
  else (if p = 0x18 then 4 else 8)

/-- The new value that an operation code of integers or bits gives for an old value, an operand and, for a compare and swap, a value to
swap in (11 R286, R290, Table 11.3). -/
def atomicOf (p old x y : Nat) : Option Nat :=
  let m := 2 ^ (8 * codeBytes p)
  let z (v : Nat) : Int := if p % 5 ≠ 1 ∧ m / 2 ≤ v then (v : Int) - m else v
  let v := x % m
  if p < 15 ∧ 3 ≤ p % 5 then none
  else if p < 5 then some ((old + v) % m)
  else if p < 10 then some (if z v < z old then v else old)
  else if p < 15 then some (if z old < z v then v else old)
  else if p ≤ 0x10 then some (old &&& v)
  else if p ≤ 0x12 then some (old ||| v)
  else if p ≤ 0x14 then some (old ^^^ v)
  else if p ≤ 0x16 then some v
  else if p = 0x18 ∨ p = 0x19 then some (if old = v then y % m else old)
  else none

/-- The value that an atomic returns: a 32-bit integer with its sign, any other with zeros (11 R290). -/
def oldOf (p old : Nat) : Word :=
  if p = 0 ∨ p = 5 ∨ p = 10 then (BitVec.ofNat 32 old).signExtend 64 else wd old

/-! ### Tensor bytes -/

/-- The byte at a physical address as a core sees it: of its L1 where that holds the sector, else of memory (09 R236). -/
def State.seen (s : State) (c pa : Nat) : Byte :=
  match (s.core c).l1.find (pa / 32) with
  | some x => x.data.extractLsb' (8 * (pa % 32)) 8
  | none => s.mem.get pa

/-- The task, the tensor and its descriptor that a word of a thread names; the task is not guarded and the type is no packed one
(10 R254, R269). -/
structure Named (s : State) (th : Thread) (x : Word) (k : Task) (tid : Nat) (d : Desc) : Prop where
  named : x.toNat = tid
  small : tid < 4096
  desc : s.desc? th.svc tid = some d
  task : s.task? th.task = some k
  open_ : k.guarded = false
  plain : d.ty < 11

/-- The element at coordinates `c` lies in the extents, at a multiple of `n` bytes, in a leased tile that is resident in near memory
with no append waiting for it: its physical address is `pa` (10 R257, R261, R269, 12 Table 12.1). -/
def Near (s : State) (k : Task) (tid : Nat) (d : Desc) (c : List Nat) (n : Nat) (a : Access) (pa : Nat) : Prop :=
  d.inside c = true ∧ (d.loc c).2 % n = 0 ∧ k.leaseFails d tid (d.loc c).1 a = none ∧
    s.untagged d (d.loc c).1 = false ∧ ∃ h, k.held? tid (d.loc c).1 = some h ∧ resid? h.frame true = some .resident ∧
      pa = frameBase h.frame + swz d.swz (d.loc c).2

/-- The home of an address serves the thread at once: no posted store or reduction of the core to its sector is on its way, and nothing
waits to leave the core's die; the class of the word's requests has no allotment, the cache changes no mode and the sector carries no mark
(09 R225, 11 R279, R282, R295, R297, 19 R467). -/
structure Served (s : State) (th : Thread) (pa : Nat) : Prop where
  stored : s.storing th.c (pa / 32) = false
  reduced : s.reducing th.c (pa / 32) = false
  idle : s.meshIdle (dieOf th.c) = true
  unmetered : (s.die (homeDie pa)).allot.get 0 (s.chanOf th).cls = 0
  settled : (s.die (homeDie pa)).eccPend = false
  good : s.marked (pa / 32) = false

/-- Nothing need leave the L1 of a core for an access, and no line of the shared cache has a sideband to be written back (03 R92, 09
R238). -/
structure Roomy (s : State) (c : Nat) : Prop where
  room : (s.core c).l1.length + 256 ≤ l1Lines
  clean : ∀ d n l, (s.die d).cache.find n = some l → ∀ p ∈ l.sects, p.2 = none ∨ p.1 ∉ l.dirty

/-- The core's own copy of the sector of an address has nothing to be written back. -/
def OwnClean (s : State) (c pa : Nat) : Prop := ∀ x, (s.core c).l1.find (pa / 32) = some x → x.dirty = none

/-- Coordinates `c` with `n` in place of dimension `j`. -/
def withCoord (c : List Nat) (j n : Nat) : List Nat := (List.range 6).map (fun i => if i = j then n else c.getD i 0)

/-- Bits of an element of a type below 11 (06 Table 6.1). -/
def elemWidth (t : Nat) : Nat := if t = 0 ∨ t = 3 ∨ t = 9 ∨ t = 10 then 8 else if t = 2 ∨ t = 5 ∨ t = 6 then 32 else 16

/-- The lanes of a vector word on a tensor and their elements' coordinates: a run along place 0 up to the extent, or one dimension moved
by the lanes of an index vector, those of all ones skipped (10 R271, R272). -/
def tensorLanes (th : Thread) (i : Instr) (d : Desc) : List (Nat × List Nat) :=
  let run (kr : BitVec 3) : List (Nat × List Nat) :=
    let j := d.dim 0
    let c := th.coords kr.toNat
    (List.range (min (2048 / elemWidth d.ty) (d.ext.getD j 0 - c.getD j 0))).map (fun n => (n, withCoord c j (c.getD j 0 + n)))
  let pick (kr j : BitVec 3) : List (Nat × List Nat) :=
    let c := th.coords kr.toNat
    ((List.range (min 64 (2048 / elemWidth d.ty))).map (fun n =>
      (n, ((headVal 0 th.q.vaq).extractLsb' (32 * n) 32 : BitVec 32)))).filterMap (fun p =>
        if p.2 = BitVec.allOnes 32 then none else some (p.1, withCoord c j.toNat ((c.getD j.toNat 0 + p.2.toNat) % 2 ^ 32)))
  match i with
  | .tldv _ _ kr | .tstv _ kr _ | .redv _ _ kr _ _ => run kr
  | .tldg _ _ kr j | .tstg _ kr _ j => pick kr j
  | _ => []

/-- The byte at a physical address as its home has it once a core's own written bytes have gone there (09 R236, 11 R284). -/
def State.homeByte (s : State) (c pa : Nat) : Byte :=
  match (s.core c).l1.find (pa / 32) with
  | some x => if x.dirty.isSome && x.wmask.getLsbD (pa % 32) then x.data.extractLsb' (8 * (pa % 32)) 8 else s.mem.get pa
  | none => s.mem.get pa

/-- A word on tensors at the head of its queue: its ports are ready, nothing of the thread is on its way or has arrived for it, and no FENCE
with release stands before it. -/
structure AtTensorWord (s : State) (th : Thread) (rs : List (BitVec 5)) (kr : BitVec 3) : Prop where
  at_ : AtPlainAccess s th
  ready : th.aReady s.now s.cur.e.seq rs = .ok ()
  coords : th.kClean [kr] = .ok ()
  posted : s.posted th 5 = false
  quiet : s.quiet th 5 = .ok ()
  fresh : th.issue.inp = none
  unfenced : th.issue.relAt = none
  near : ∀ g ∈ s.fab, g.who ≠ .thread th.c th.t
  lone : s.waiting (.thread th.c th.t) = false
  appended : ∀ svc tid idx, s.appending th svc tid idx = false

/-- Between `s` and `t` nothing moves: memory, what any core sees of it and every scratchpad are unchanged, and a core differs only in
its L1. -/
def NothingMoves (s t : State) : Prop :=
  t.mem = s.mem ∧ (∀ c pa, t.seen c pa = s.seen c pa) ∧ ∀ c, { t.core c with l1 := (s.core c).l1 } = s.core c

/-- The thread stands with the files and queues of `y`, and its word has left the access queue. -/
def LeavesThread (t : State) (th y : Thread) : Prop :=
  ∃ x, t.thread? th.c th.t = some x ∧ x.f = y.f ∧ x.q = y.q ∧ x.aq = th.aq.tail ∧ x.pc = th.pc ∧ x.trap = th.trap

/-- The bytes of lanes, each of `n` bytes at an address, as they come from a vector: lane `m` starts at byte `m * n` of it, and where
lanes coincide the later stands. -/
def LaneBytes (l : List (Nat × Nat)) (n : Nat) (v : Vec) (f : Nat → Byte → Prop) : Prop :=
  ∀ i k, i < l.length → k < n →
    (∀ j, i < j → j < l.length → (l.getD i (0, 0)).2 + k < (l.getD j (0, 0)).2 ∨ (l.getD j (0, 0)).2 + n ≤ (l.getD i (0, 0)).2 + k) →
    f ((l.getD i (0, 0)).2 + k) (vecByte v ((l.getD i (0, 0)).1 * n + k))

end Sys2Proof.Machine
end

