-- ==== Sys2Proof/Claims/Engines.lean ====
section
/-!
DEFINITION. What the chapters of the copy channels and of the fragments give: the sources that the front captures for M and C words (02
R39, 13 R338, 15 R371, R388), and the situations of a word at a fragment (15 R382 to R384).
-/

namespace Sys2Proof.Machine

/-- The step of the device at hand is `e`. -/
def Now (s : State) (e : Event) : Prop := s.cur.ev = some e

/-- The fields d, a and b of the M words that the front steers, 0 where a word has none, and whether d names an endpoint (15 R388). -/
def mWordOf (i : Instr) : Option (BitVec 5 × BitVec 5 × BitVec 5 × Bool) :=
  match i with
  | .mmqclr | .mclm _ _ _ | .mrel _ _ _ | .mbody _ | .mzacc _ _ _ => some (0, 0, 0, false)
  | .mnest a b _ | .mgo a b => some (0, a, b, false)
  | .mldb d _ _ _ _ | .mmma d _ _ _ _ | .mmms d _ _ _ _ => some (d, 0, 0, false)
  | .mmmc d a _ _ _ _ => some (d, a, 0, false)
  | .mdrn d a b _ _ _ _ => some (d, a, b, true)
  | .mdrc d b _ _ _ _ => some (d, 0, b, false)
  | .mamax a _ _ => some (0, a, 0, false)
  | _ => none

/-- The words of a nest's body, with their guards (15 R382). -/
def bodyWordOf (i : Instr) : Option (BitVec 2) :=
  match i with
  | .mldb _ g _ _ _ | .mmma _ g _ _ _ | .mmms _ g _ _ _ | .mmmc _ _ g _ _ _ | .mzacc g _ _ | .mdrn _ _ _ g _ _ _
  | .mdrc _ _ g _ _ _ | .mamax _ g _ => some g
  | _ => none

/-- A C word: its channel, its fields d, a and b, whether d and a name endpoints, whether it needs the group's lease, and whether it takes
no nest (13 R332, R338, R346, R347). -/
structure CWord where
  ch : BitVec 2
  d : BitVec 5
  a : BitVec 5
  b : BitVec 5
  dEnd : Bool
  aEnd : Bool
  leased : Bool
  plain : Bool

/-- The C words that the front steers. -/
def cWordOf (i : Instr) : Option CWord :=
  match i with
  | .ccpy d a b c _ _ _ | .cst d a b c _ _ _ | .ccpys d a b c _ _ _ | .cmc d a b c _ _ _ | .cgth d a b c _ _ _
  | .crem d a b c _ _ _ => some ⟨c, d, a, b, true, true, false, false⟩
  | .cred d a b c _ _ => some ⟨c, d, a, b, true, true, false, false⟩
  | .cset d a b c _ => some ⟨c, d, a, b, true, false, false, false⟩
  | .cpro d a b c _ => some ⟨c, d, a, b, true, false, false, true⟩
  | .copf d a b c _ _ _ | .cmeta d a b c _ => some ⟨c, d, a, b, false, true, true, true⟩
  | _ => none

/-- What the front captures of a field: the values of an endpoint's four registers, or one value (02 R39, R45). -/
def captured (th : Thread) (r : BitVec 5) (isEnd : Bool) : List Word :=
  if isEnd then [th.f.s.get 0 r.toNat, th.f.s.get 0 (r.toNat + 1), th.f.s.get 0 (r.toNat + 2), th.f.s.get 0 (r.toNat + 3)]
  else [th.sVal r]

/-- No register of an endpoint field carries a poison mark. -/
def EndClean (th : Thread) (r : BitVec 5) (isEnd : Bool) : Prop := isEnd = true → ∀ k, k < 4 → r.toNat + k ∉ th.f.marks

/-- The strips of a lease in ascending order. -/
def stripsIn (m : BitVec 8) : List Nat := (List.range 8).filter (fun n => m.getLsbD n)

/-- A word is at the sequencer of strip `n`, one of a die's eight, which stands as `x`: at the head of its queue, or in its nest for `nest`. The strip has no
fault, and the word's thread writes no trace records. -/
structure AtStrip (s : State) (die n : Nat) (nest : Bool) (x : Strip) : Prop where
  unit : s.cur.unit = some (die, n, nest)
  real : n < 8
  here : s.strip die n = x
  sound : x.fault = false
  untraced : ∀ th, s.thread? s.cur.e.c s.cur.e.t = some th → th.csr.trc = 0

/-- A word at the head of the queue of strip `n` that may run: at its thread's horizon, its pace kept, no request for leave of its own (15
R384, 18 R458). -/
structure AtStripHead (s : State) (die n : Nat) (x : Strip) : Prop where
  at_ : AtStrip s die n false x
  horizon : s.atHorizonOf s.cur.e = true
  paced : x.last = 0 ∨ x.last + s.cur.e.pace.toNat ≤ s.now + 1
  unasked : x.leave = 0

/-- The head of the queue of strip `n` has left it. -/
def State.leftStrip (s : State) (die n : Nat) : State :=
  s.modStrip die n (fun y => { y with q := y.q.tail, last := s.now + 1, leave := 0, granted := false })

/-- A body word of a running nest that its guard lets run (15 R383). -/
structure InNest (s : State) (die n : Nat) (x : Strip) (r : NestRun) (g : BitVec 2) : Prop where
  at_ : AtStrip s die n true x
  runs : x.run = some r
  goes : r.finished = false
  free : x.drain = none
  guarded : g = 0 ∨ (g = 1 ∧ x.firstOfRed r = true) ∨ (g = 2 ∧ x.lastOfRed r = true)

/-- The sum over the levels of a nest of its index times a step (15 R383). -/
def stepSum (x : Strip) (r : NestRun) (step : Level → Nat) : Nat :=
  ((List.range r.levels).map (fun i => r.idx.getD i 0 * step (x.active.get { a := 0, b := 0 } i))).foldl (· + ·) 0

/-- A slot reference of a word names slot `i` of the fragment's own strip `n` in this iteration (15 R374, R383). -/
def NamesSlot (s : State) (die n : Nat) (x : Strip) (r : NestRun) (v : Word) (lo : Nat) (i : Nat) : Prop :=
  v.toNat < 128 ∧ (s.leaseStrips die n)[v.toNat / 16]? = some n ∧
    i = (v.toNat % 16 + stepSum x r (fun l => l.a.toNat / 2 ^ lo % 16)) % 16

/-- A slot of a strip holds an operand of a type, ready and without marks. -/
def SlotReady (x : Strip) (i : Nat) (t : BitVec 4) (sl : Slot) : Prop :=
  x.slots.get Slot.init i = sl ∧ sl.st = some .ready ∧ sl.ty = t ∧ sl.marks = []

/-- The half that a word of a nest names in this iteration (15 R383). -/
def halfIn (x : Strip) (r : NestRun) (h : BitVec 1) : Nat := (h.toNat + stepSum x r (fun l => l.a.toNat / 2 ^ 24 % 2)) % 2

end Sys2Proof.Machine
end

