-- ==== Sys2Proof/Claims/Events.lean ====
section
/-!
DEFINITION. The situations of the device's own steps, and what such a step leaves: one thread changed, bytes of memory put, the words that
cross a mesh.
-/

namespace Sys2Proof.Machine

/-- The thread of a slot stands as `x`; no other thread has changed, and nothing else. -/
def OneThread (s t : State) (c n : Nat) (x : Thread) : Prop :=
  t = { s with threads := t.threads } ∧ t.thread? c n = some x ∧ ∀ c' n', ¬ (c' = c ∧ n' = n) → t.thread? c' n' = s.thread? c' n'

/-- A memory holds `f` at `n` bytes from `a`, and elsewhere what it held. -/
def PutBytes (m m' : Memory) (a n : Nat) (f : Nat → Byte) : Prop :=
  ∀ q, m'.get q = if a ≤ q ∧ q < a + n then f (q - a) else m.get q

/-- A memory holds the bytes of a sector that a mask names, and elsewhere what it held. -/
def PutMasked (m m' : Memory) (pa : Nat) (data : BitVec 256) (mask : BitVec 32) : Prop :=
  ∀ q, m'.get q = if q / 32 = pa / 32 ∧ mask.getLsbD (q % 32) = true then data.extractLsb' (8 * (q % 32)) 8 else m.get q

/-- The count of an error class has gone up by one, at most to 2^32 − 1 (19 R470). -/
def Counted (s t : State) (cls : Nat) : Prop :=
  t.reg (.errCnt cls) = wd (min ((s.reg (.errCnt cls)).toNat + 1) (2 ^ 32 - 1))

/-- The thread that a word stands behind writes no trace records. -/
def Untraced (s : State) (e : QEntry) : Prop := ∀ th, s.thread? e.c e.t = some th → th.csr.trc = 0

/-- A C word other than CPRO at the head of an idle channel, whose order, horizon and pace let it start, without a request for leave
(13 R327, R328, 18 R458). -/
structure AtChannel (s : State) (c ch : Nat) (e : QEntry) (q : List QEntry) (k : Task) (g : Group) (f : CForm) : Prop where
  now : Now s (.copyCommandStart c ch)
  idle : (s.chan c ch).run = none
  queue : (s.chan c ch).q = e :: q
  task : s.task? e.task = some k
  runs : k.st ≠ .saving
  group : s.groupOn? e.task c = some g
  form : cForm e.ins = some f
  copies : f.op ≠ .pro
  horizon : s.atHorizonOf e = true
  ordered : f.ord = false ∨ s.ordered e = true
  paced : (s.chan c ch).last = 0 ∨ (s.chan c ch).last + e.pace.toNat ≤ s.now + 1
  unasked : (s.chan c ch).leave = 0
  untraced : Untraced s e

/-- A unit of 32 bytes of scratchpad to scratchpad, element `j` from the place `f j`. -/
def byteUnit (c off : Nat) (f : Nat → Nat × Nat) (n : Nat) (o : Option (Nat × Nat)) : Sector :=
  { tgt := .sp c off, parts := [{ off := 0, els := (List.range 32).map (fun j => { src := .sp (f j).1 (f j).2 none, hi := false }), n := 32 }]
    side := [], count := n, obj := o }

/-- The words whose request crosses the mesh to another core (07 R203, 08 R205, R220, 09 R243, 11 R293). -/
def crosses : Instr → Bool
  | .binit _ _ _ | .breg _ _ | .barv _ _ _ _ | .bard _ _ _ _ | .bexp _ _ _ _ _ | .bwait _ _ _ _ | .btest _ _ _ _ | .ldf _ _ _ _
  | .ldfe _ _ _ _ | .stef _ _ _ _ | .stf _ _ _ _ | .feset _ _ _ | .ldaqs _ _ _ _ _ | .strls _ _ _ _ _ | .amos _ _ _ _ _ => true
  | _ => false

/-- A wait of a stage has lasted as long as its limit (08 R222). -/
def Overdue (s : State) (w : Option Wait) (why : WaitWhy) : Prop :=
  ∃ x, w = some x ∧ x.why = some why ∧ x.limit ≠ 0 ∧ x.since + x.limit ≤ s.now

/-- The agent may not write the registers of system software: the write has no effect but that a thread is to take PRIVILEGED, with the
register's offset as its value (01 R32, 16 Table 16.3). -/
def Refused (s t : State) (who : Agent) (off : Nat) : Prop :=
  (∀ c n, who = .service c n → t = { s with threads := t.threads } ∧
    (∀ th, s.thread? c n = some th → t.thread? c n = some { th with issue := { th.issue with refused := some (wd off) } }) ∧
    ∀ c' n', ¬ (c' = c ∧ n' = n) → t.thread? c' n' = s.thread? c' n') ∧
  ((∀ c n, who ≠ .service c n) → t = s)

/-- No request is on a mesh or waits to cross one but the posted ones of `q` and `h`, and no format range is active (03 R91, 11 R294). -/
structure Alone (s : State) (q : List StoreReq) (h : List HomeReq) : Prop where
  mesh : s.mesh = []
  stores : s.storeQ = q
  reductions : s.homeQ = h
  crossed : ∀ w ∈ s.waits, w.got.isSome = true
  plain : ∀ pa, s.sideAddr? pa = none

/-- A task stands in state `st`, as `x`. -/
def TaskIn (s : State) (id : Nat) (x : Task) (st : TaskSt) : Prop := s.task? id = some x ∧ x.st = st

end Sys2Proof.Machine
end

