-- ==== Sys2Proof/Claims/Steps.lean ====
section
/-!
DEFINITION. What a step makes of the outcome of the move that it has chosen, and the invariant of the memories.
-/

namespace Sys2Proof.Machine

/-- What a step makes of the outcome of the move that it has made ready: a move that only waits gives way to the next one, any other ends
the cycle (04 R106). -/
def afterMove (r : List Move) (o : Out) : Out :=
  match o with
  | .next t => if t.cur.stalled then runMoves t r else .next { t with now := t.now + 1 }
  | .fault f => .fault f
  | .refused f => .refused f

/-- The byte memory of the package and the scratchpad of every core stand in their canonical form: addresses rise, and no listed byte is
what an unlisted one reads as. -/
def State.MemoriesCanonical (s : State) : Prop := s.mem.wf = true ∧ ∀ c, (s.core c).sp.wf = true

end Sys2Proof.Machine
end

