-- ==== Sys2Proof/Claims/System.lean ====
section
/-!
DEFINITION. What the chapters of traps and scheduling give as the results of the CSR words (16 R424, R425 and the chapters that R425
names), in words that the five CSR words share.
-/

namespace Sys2Proof.Machine

/-- Destination, source, CSR and the value offered for the register by a CSR word that writes: of the old value and the source's (16
R424). CSRW reads nothing, so that its destination is s0. -/
def csrWriteOf (i : Instr) : Option (BitVec 5 × BitVec 5 × BitVec 12 × (Word → Word → Word)) :=
  match i with
  | .csrw a c => some (0, a, c, fun _ x => x)
  | .csrx d a c => some (d, a, c, fun _ x => x)
  | .csrs d a c => some (d, a, c, fun o x => o ||| x)
  | .csrc d a c => some (d, a, c, fun o x => o &&& ~~~x)
  | _ => none

/-- What a CSR of the thread that holds no field of another kind than RW and RO gives after a write of `v` over `o` (03 R74, R78, R79;
08 R222; 16 R411, R412; 17 R446; 18 R458; 21 R496, R499, R504). -/
def csrStored (c : BitVec 12) (o v : Word) : Option Word :=
  let keep (m : Word) : Option Word := some ((o &&& ~~~m) ||| (v &&& m))
  match c.toNat with
  | 0x010 | 0x011 | 0x012 | 0x013 | 0x014 | 0x019 | 0x01B | 0x01E | 0x034 | 0x043 | 0x047 | 0x04A => some o
  | 0x015 | 0x052 => some (v &&& 0xFFFFFFFF#64)
  | 0x01D => some ((o &&& ~~~0xF#64) ||| (if 8 ≤ (v &&& 0xF#64).toNat then 8 else v &&& 0xF#64))
  | 0x020 => some (v &&& 3#64)
  | 0x021 | 0x040 | 0x044 => some (v &&& 0x3F#64)
  | 0x022 => some (if v = 0 then 1 else v)
  | 0x030 | 0x031 | 0x032 | 0x033 => some (v &&& 0xFFFF#64)
  | 0x041 | 0x045 | 0x048 | 0x049 => some (v &&& ~~~3#64)
  | 0x042 | 0x046 => some v
  | 0x050 => keep 0x3F#64
  | _ => none

end Sys2Proof.Machine
end

