-- ==== Sys2Proof/Claims/Vector.lean ====
section
/-!
DEFINITION. What the chapters of issue and of the execute engine give for V words: their latency classes (04 Table 4.3), where their
results land, and the lanes of integer, bit, compare and permute words in arithmetic of integers and natural numbers (06 Table 6.4).
-/

namespace Sys2Proof.Machine

/-- The latency of a V word in ticks (04 Table 4.3; 06 Table 6.3). VWAIT has no result: it takes its tick alone. -/
def vLatencyOf (i : Instr) : Option Nat :=
  match i with
  | .vadd _ _ _ _ _ _ | .vsub _ _ _ _ _ _ | .vmin _ _ _ _ _ | .vmax _ _ _ _ _ | .vabs _ _ _ _ _ | .vneg _ _ _ _ _
  | .vand _ _ _ _ _ | .vor _ _ _ _ _ | .vxor _ _ _ _ _ | .vnot _ _ _ _ | .vshl _ _ _ _ _ | .vshr _ _ _ _ _ | .vsra _ _ _ _ _
  | .vcmpeq _ _ _ _ _ _ | .vcmplt _ _ _ _ _ _ | .vcmple _ _ _ _ _ _ | .vcmpun _ _ _ _ _ _ | .vsel _ _ _ _ _ | .vmov _ _ _ _
  | .viota _ _ _ | .vmovi _ _ _ | .mlog _ _ _ _ _ _ | .mpop _ _ _ | .mfirst _ _ _ | .vtos _ _ | .vtoa _ | .vclass _ _ _ _
  | .vclz _ _ _ _ | .vpopc _ _ _ _ => some 2
  | .vmul _ _ _ _ _ _ | .vmulh _ _ _ _ _ | .vfma _ _ _ _ _ | .vfms _ _ _ _ _ | .vfnm _ _ _ _ _ | .vcvt _ _ _ _ _ _ _
  | .vqblk _ _ _ _ | .vdqblk _ _ _ _ _ | .vdot4 _ _ _ _ _ _ | .vdot2 _ _ _ _ _ _ | .vperm _ _ _ _ _ _ | .vrot _ _ _ _ _
  | .vzip _ _ _ _ _ _ | .vunzip _ _ _ _ _ _ | .vbcst _ _ _ _ _ => some 4
  | .vred _ _ _ _ _ | .vscan _ _ _ _ _ => some 6
  | .vdiv _ _ _ _ _ | .vsqrt _ _ _ _ | .vrcp _ _ _ _ _ | .vrsq _ _ _ _ _ | .vexp2 _ _ _ _ _ | .vlog2 _ _ _ _ _ => some 10
  | .vwait => some 0
  | _ => none

/-- The registers at which results of a V word are aimed (06 Table 6.3, R154): a destination of 30 pushes and lands nothing. -/
def vTargets (i : Instr) : List LandDst :=
  match i with
  | .vcmpeq d _ _ _ _ _ | .vcmplt d _ _ _ _ _ | .vcmple d _ _ _ _ _ | .vcmpun d _ _ _ _ _ | .mlog d _ _ _ _ _ => [.m d.toNat]
  | .vqblk d _ b _ => if d = 30 then [.v b.toNat] else [.v d.toNat, .v b.toNat]
  | _ => match vDest i with
    | some d => if d = 30 then [] else [.v d.toNat]
    | none => []

/-- The width of a lane of a type of set ANY (06 R150, Table 6.2). -/
def typeWidth (t : BitVec 4) : Nat :=
  if t = 11 then 4 else if t = 0 ∨ t = 3 ∨ t = 9 ∨ t = 10 then 8 else if t = 2 ∨ t = 5 ∨ t = 6 then 32 else 16

/-- The integer in a lane of an integer type: 0 to 2 signed, 3 to 5 natural (03 R62). -/
def laneZ (t : BitVec 4) (n : Nat) : Int :=
  if t ≤ 2 ∧ 2 ^ (typeWidth t - 1) ≤ n then (n : Int) - 2 ^ typeWidth t else n

/-- The lane that an exact integer result gives: clamped to the type's range under `.sat`, and read back modulo 2^w (06 R158). -/
def laneOfZ (t : BitVec 4) (sat : Bool) (x : Int) : Nat :=
  let w := typeWidth t
  let lo : Int := if t ≤ 2 then -(2 ^ (w - 1)) else 0
  let hi : Int := if t ≤ 2 then 2 ^ (w - 1) - 1 else 2 ^ w - 1
  let y := if sat then (if x < lo then lo else if hi < x then hi else x) else x
  (y % 2 ^ w).toNat

/-- Destination, type, mask and lane values of a V word that works lane by lane on integers, bits counts or lane numbers: the value of
lane `j` (06 R158, R159, R162, R172, R173, R175). -/
def laneFnOf (th : Thread) (i : Instr) : Option (BitVec 5 × BitVec 4 × BitVec 3 × (Nat → Nat)) :=
  let n (t : BitVec 4) (r : BitVec 5) (j : Nat) : Nat := laneOf (typeWidth t) (th.vVal r (typeWidth t)) j
  let z (t : BitVec 4) (r : BitVec 5) (j : Nat) : Int := laneZ t (n t r j)
  let count (t : BitVec 4) : Nat := 2048 / typeWidth t
  let low (b : BitVec 5) : Nat := (th.vVal b 32).toNat % 2 ^ 16
  let ints (t : BitVec 4) (d : BitVec 5) (m : BitVec 3) (sat : Bool) (f : Nat → Int) :
      Option (BitVec 5 × BitVec 4 × BitVec 3 × (Nat → Nat)) :=
    if t ≤ 5 then some (d, t, m, fun j => laneOfZ t sat (f j)) else none
  let nats (t : BitVec 4) (d : BitVec 5) (m : BitVec 3) (f : Nat → Nat) : Option (BitVec 5 × BitVec 4 × BitVec 3 × (Nat → Nat)) :=
    if t ≤ 5 then some (d, t, m, f) else none
  match i with
  | .vadd d a b t m x => ints t d m (x == 1) (fun j => z t a j + z t b j)
  | .vsub d a b t m x => ints t d m (x == 1) (fun j => z t a j - z t b j)
  | .vmul d a b t m x => ints t d m (x == 1) (fun j => z t a j * z t b j)
  | .vmulh d a b t m => ints t d m false (fun j => z t a j * z t b j / 2 ^ typeWidth t)
  | .vfma d a b t m => ints t d m false (fun j => z t a j * z t b j + z t d j)
  | .vfms d a b t m => ints t d m false (fun j => z t a j * z t b j - z t d j)
  | .vfnm d a b t m => ints t d m false (fun j => z t d j - z t a j * z t b j)
  | .vmin d a b t m => ints t d m false (fun j => if z t a j ≤ z t b j then z t a j else z t b j)
  | .vmax d a b t m => ints t d m false (fun j => if z t a j ≤ z t b j then z t b j else z t a j)
  | .vabs d a t m x => ints t d m (x == 1) (fun j => if z t a j < 0 then -(z t a j) else z t a j)
  | .vneg d a t m x => ints t d m (x == 1) (fun j => -(z t a j))
  | .vshl d a b t m => nats t d m (fun j => n t a j * 2 ^ (n t b j % typeWidth t) % 2 ^ typeWidth t)
  | .vshr d a b t m => nats t d m (fun j => n t a j / 2 ^ (n t b j % typeWidth t))
  | .vpopc d a t m => nats t d m (fun j => ((List.range (typeWidth t)).filter (fun k => n t a j / 2 ^ k % 2 = 1)).length)
  | .vmov d a t m => if t ≤ 11 then some (d, t, m, fun j => n t a j) else none
  | .viota d t m => nats t d m (fun j => j % 2 ^ typeWidth t)
  | .vperm d a b t m x => if t ≤ 10 then some (d, t, m, fun j =>
      let k := if x = 0 then n t b j % count t else n t b j
      if k < count t then n t a k else 0) else none
  | .vrot d a b t m => if t ≤ 11 then some (d, t, m, fun j => n t a ((j + count t - low b % count t) % count t)) else none
  | .vbcst d a b t m => if t ≤ 11 then some (d, t, m, fun _ => n t a (low b % count t)) else none
  | .vzip d a b t m x => if t ≤ 11 then some (d, t, m, fun j =>
      n t (if j % 2 = 0 then a else b) ((if x = 1 then count t / 2 else 0) + j / 2)) else none
  | .vunzip d a b t m x => if t ≤ 11 then some (d, t, m, fun j =>
      let o := if x = 1 then 1 else 0
      if j < count t / 2 then n t a (2 * j + o) else n t b (2 * (j - count t / 2) + o)) else none
  | _ => none

/-- Destination, mask and bits of the V words that work on bits (06 R162, R164). The mask of VSEL selects and does not gate. -/
def vBitsOf (th : Thread) (i : Instr) : Option (BitVec 5 × BitVec 4 × BitVec 3 × (Nat → Bool)) :=
  let v (t : BitVec 4) (r : BitVec 5) (j : Nat) : Bool := (th.vVal r (typeWidth t)).getLsbD j
  match i with
  | .vand d a b t m => some (d, t, m, fun j => v t a j && v t b j)
  | .vor d a b t m => some (d, t, m, fun j => v t a j || v t b j)
  | .vxor d a b t m => some (d, t, m, fun j => v t a j != v t b j)
  | .vnot d a t m => some (d, t, m, fun j => !v t a j)
  | .vsel d a b t m => some (d, t, 0, fun j => if (th.mVal m).getLsbD (j / 32) then v t a j else v t b j)
  | _ => none

/-- The V word at hand issues, and its one result lands on register `v d` `lat` ticks later, its bits as `p` says where the mask `k`
governs them and no other bit written; a flag may land with it. For the destination 30 the result is pushed onto `sq`, with zeros where
the mask does not govern, and fills `lat` cycles later (04 R111, 06 R151). -/
structure LandsBits (s : State) (th : Thread) (i : Instr) (lat : Nat) (d : BitVec 5) (k : Word) (p : Vec → Prop) : Prop where
  lands : d ≠ 30 → ∃ (t : State) (x : Thread) (l : Landing) (fl : List Landing), exec i s = .next t ∧
    t.thread? th.c th.t = some x ∧ x.land = th.land ++ l :: fl ∧ (∀ y ∈ fl, y.dst = .flags) ∧ l.dst = .v d.toNat ∧
    l.due = th.tick + lat ∧ (∀ n, n < 2048 → l.mask.getLsbD n = k.getLsbD (n / 32)) ∧ p l.val ∧ x.f = th.f ∧ x.tick = th.tick + 1
  pushes : d = 30 → ∃ (t : State) (x : Thread) (e : QE Vec), exec i s = .next t ∧
    t.thread? th.c th.t = some x ∧ x.q.sq = th.q.sq ++ [e] ∧ e.full = true ∧ e.fillAt = s.now + lat ∧ p e.val ∧
    (∀ n, n < 2048 → k.getLsbD (n / 32) = false → e.val.getLsbD n = false) ∧ x.f = th.f ∧ x.tick = th.tick + 1

/-- The conditions of the integer compares (06 R163). -/
def compareOf (th : Thread) (i : Instr) : Option (BitVec 3 × BitVec 4 × BitVec 3 × Bool × (Nat → Bool)) :=
  let z (t : BitVec 4) (r : BitVec 5) (j : Nat) : Int := laneZ t (laneOf (typeWidth t) (th.vVal r (typeWidth t)) j)
  match i with
  | .vcmpeq d a b t m x => if t ≤ 5 then some (d, t, m, x == 1, fun j => decide (z t a j = z t b j)) else none
  | .vcmplt d a b t m x => if t ≤ 5 then some (d, t, m, x == 1, fun j => decide (z t a j < z t b j)) else none
  | .vcmple d a b t m x => if t ≤ 5 then some (d, t, m, x == 1, fun j => decide (z t a j ≤ z t b j)) else none
  | _ => none

end Sys2Proof.Machine
end

