-- ==== Sys2Proof/Certificates/Slice0/Obligations.lean ====
section
/-!
DEFINITION. The statements for the provers. Each is a proposition about the machine of `Sys2Proof.Machine`; its docstring names the
rules of spec/ that it formalises.
-/

open Sys2Proof
open Sys2Proof.Machine


/-! ### The front: S words -/

/-- An S word that always writes one result pops its sources, writes the result that its table gives, and the front moves past it; nothing
else changes (05 R122, R126, R129 to R132, R144). CLZ, CTZ and POPC write the count that their rule describes (05 R128). A word whose one
source carries a poison mark consumes it, at some place number (19 R466, R467). -/
def Obligations.ScalarWordsWriteTheirResult : Prop :=
  (∀ (i : Instr) (s : State) (th : Thread) (rs : List (BitVec 5)) (d : BitVec 5) (v : Word),
      AtFront s th → i.wellFormed = true → scalarOf th i = some (rs, d, v) → th.sReady s.now rs = .ok () → th.sRoom d = .ok () →
      exec i s = .next (s.past ((th.sPop rs).sPut d v) none)) ∧
  (∀ (i : Instr) (s : State) (th : Thread) (d a : BitVec 5) (counts : Word → Nat → Prop),
      AtFront s th → countOf i = some (d, a, counts) → th.sReady s.now [a] = .ok () → th.sRoom d = .ok () →
      ∃ n, counts (th.sVal a) n ∧ n ≤ 64 ∧ exec i s = .next (s.past ((th.sPop [a]).sPut d (wd n)) none)) ∧
  (∀ (i : Instr) (s : State) (th : Thread) (d r : BitVec 5) (v : Word),
      AtFront s th → i.wellFormed = true → scalarOf th i = some ([r], d, v) → r ≠ 28 → r ≠ 29 → r.toNat ∈ th.f.marks →
      ∃ loc val, exec i s = .next (s.consumed .front th 9 (dieOf th.c) (th.c % 32) loc val))

/-- A division by a divisor other than zero writes the truncated quotient or its remainder, and −2^63 by −1 wraps; a zero divisor takes
DIVZERO with the dividend, once older words have settled, and pops and writes nothing (05 R127, 16 R406). -/
def Obligations.DivisionsDivideOrTrap : Prop :=
  ∀ (i : Instr) (s : State) (th : Thread) (d a b : BitVec 5) (v : Word),
    AtFront s th → divisionOf th i = some (d, a, b, v) → th.sReady s.now [a, b] = .ok () →
    (th.sVal b ≠ 0 → th.sRoom d = .ok () → exec i s = .next (s.past ((th.sPop [a, b]).sPut d v) none)) ∧
    (th.sVal b = 0 → th.settled th.seq = true → exec i s = .next (s.takeTrap th th.seq s.cur.e.addr 0x04 (th.sVal a) 0))

/-- A conditional branch whose condition holds moves the front to its own address plus four times its offset and leaves the loops that the
target lies outside of; one whose condition fails goes to the next word (05 R133, R138, Table 5.4). JMP and CALL transfer to their own
address plus four times their offset, JR and CALLR to a register plus an offset if that is a word's address, and else take ALIGN; CALL and
CALLR write the address of the next word to s27 and leave no loop, JMP and JR leave the loops that they jump out of (05 R134, R138). -/
def Obligations.ControlTransfers : Prop :=
  (∀ (i : Instr) (s : State) (th : Thread) (rs : List (BitVec 5)) (c : Prop) (o : Int),
      AtFront s th → branchOf th i = some (rs, c, o) → th.sReady s.now rs = .ok () →
      (c → exec i s = .next (s.past
        ((th.sPop rs).setLoops (leaveLoops s.cur.e.addr (s.cur.e.addr + BitVec.ofInt 64 (4 * o)) (th.sPop rs).loops))
        (some (s.cur.e.addr + BitVec.ofInt 64 (4 * o))))) ∧
      (¬ c → exec i s = .next (s.past (th.sPop rs) none))) ∧
  (∀ (s : State) (th : Thread) (a : BitVec 5) (o : BitVec 23) (k : BitVec 13) (p : Option (BitVec 29)), AtFront s th →
      (let t := s.cur.e.addr + BitVec.ofInt 64 (4 * immInt o p)
       exec (.jmp o p) s = .next (s.past (th.setLoops (leaveLoops s.cur.e.addr t th.loops)) (some t)) ∧
       exec (.call o p) s = .next (s.past (th.sPut 27 (s.cur.e.addr + wd s.cur.e.size)) (some t))) ∧
      (th.sReady s.now [a] = .ok () →
        let t := th.sVal a + BitVec.ofInt 64 (immInt k p)
        (t.toNat % 4 = 0 →
          exec (.jr a k p) s = .next (s.past ((th.sPop [a]).setLoops (leaveLoops s.cur.e.addr t (th.sPop [a]).loops)) (some t)) ∧
          exec (.callr a k p) s = .next (s.past ((th.sPop [a]).sPut 27 (s.cur.e.addr + wd s.cur.e.size)) (some t))) ∧
        (t.toNat % 4 ≠ 0 → th.settled th.seq = true →
          exec (.jr a k p) s = .next (s.takeTrap th th.seq s.cur.e.addr 0x05 t 0) ∧
          exec (.callr a k p) s = .next (s.takeTrap th th.seq s.cur.e.addr 0x05 t 0))))

/-- LOOP and LOOPI with a count other than zero open a level whose body is the `l` words after them; with a count of zero they go to the
word after the body; where a level may not open they take ILLEGAL with the word (05 R135, R136, 02 R52). LOOPS opens a level that runs its
source iterations plus its stages less one; its checks, the stage map's among them, come before its count (05 R140, R141). -/
def Obligations.LoopsOpenALevel : Prop :=
  (∀ (s : State) (th : Thread) (a : BitVec 5) (c : BitVec 16) (l : BitVec 7), AtFront s th → th.sReady s.now [a] = .ok () →
      let last := s.cur.e.addr + wd (4 * l.toNat)
      let bad (x : Thread) : Prop := 4 ≤ x.loops.length ∨ ∃ y r, x.loops = y :: r ∧ (y.last < last ∨ y.pipelined = true)
      let does (i : Instr) (x : Thread) (n : Nat) : Prop :=
        (n = 0 → exec i s = .next (s.past x (some (last + 4)))) ∧
        (n ≠ 0 → ¬ bad x → exec i s = .next (s.past
          (x.setLoops ({ addr := s.cur.e.addr, first := s.cur.e.addr + 4, last := last, count := n, j := 0, pipelined := false,
                         n := n, stages := 1, map := 0 } :: x.loops))
          (some (s.cur.e.addr + 4)))) ∧
        (n ≠ 0 → bad x → th.settled th.seq = true →
          exec i s = .next (s.takeTrap th th.seq s.cur.e.addr 0x01 s.cur.e.wordVal 0))
      does (.loop a l) (th.sPop [a]) (th.sVal a).toNat ∧ does (.loopi c l) th c.toNat) ∧
  (∀ (s : State) (th : Thread) (a b : BitVec 5) (t : BitVec 2) (l : BitVec 5), AtFront s th → th.sReady s.now [a, b] = .ok () →
      let x := th.sPop [a, b]
      let last := s.cur.e.addr + wd (4 * (l.toNat + 1))
      let n := (th.sVal a).toNat
      let stage (k : Nat) : Nat := (th.sVal b).toNat / 4 ^ k % 4
      let bad : Prop := 4 ≤ x.loops.length ∨ (∃ y r, x.loops = y :: r ∧ (y.last < last ∨ y.pipelined = true)) ∨
        ∃ k, k ≤ l.toNat ∧ t.toNat < stage k
      (bad → th.settled th.seq = true →
        exec (.loops a b t l) s = .next (s.takeTrap th th.seq s.cur.e.addr 0x01 s.cur.e.wordVal 0)) ∧
      (¬ bad → n = 0 → exec (.loops a b t l) s = .next (s.past x (some (last + 4)))) ∧
      (¬ bad → n ≠ 0 → exec (.loops a b t l) s = .next (s.past
        (x.setLoops ({ addr := s.cur.e.addr, first := s.cur.e.addr + 4, last := last, count := n + t.toNat, j := 0, pipelined := true,
                       n := n, stages := t.toNat + 1, map := th.sVal b } :: x.loops))
        (some (s.cur.e.addr + 4)))))

/-- LEXIT without a level takes ILLEGAL; with its condition false it does nothing; with it true it pops the innermost level and the outer
test follows as at its last word, or with `.drain` lets no further iteration start. NOP only moves the front; an L word is held for the
word after it, and the front does not move (05 R143, R145, 02 R49). What a front word that is done leaves of its thread's place: without a
target the loop-back test decides, and every word takes one sequence number (02 R36, 05 R133, R137). -/
def Obligations.LoopExitAndThePlaceOfTheFront : Prop :=
  (∀ (s : State) (th : Thread) (a : BitVec 5) (w n : BitVec 1) (p : BitVec 29), AtFront s th →
      exec .nop s = .next (s.past th none) ∧
      exec (.limm p) s = .next (s.setThread { th with lpre := some p, issue :=
        { th.issue with lastF := s.now + 1, group := s.cur.e.addr &&& 15#64 != 12 } }) ∧
      (th.sReady s.now [a] = .ok () →
        let x := th.sPop [a]
        (th.loops = [] → th.settled th.seq = true →
          exec (.lexit a w n) s = .next (s.takeTrap th th.seq s.cur.e.addr 0x01 s.cur.e.wordVal 0)) ∧
        (th.loops ≠ [] → w = 0 → th.sVal a = 0 → exec (.lexit a w n) s = .next (s.past x none)) ∧
        (∀ y r, th.loops = y :: r → (w = 1 ∨ th.sVal a ≠ 0) →
          (n = 0 → exec (.lexit a w n) s =
            .next (s.past (x.setLoops (loopBack y.last r (y.last + 4)).1) (some (loopBack y.last r (y.last + 4)).2))) ∧
          (n = 1 → y.pipelined = false →
            exec (.lexit a w n) s = .next (s.past (x.setLoops ({ y with count := min y.count (y.j + 1) } :: r)) none)) ∧
          (n = 1 → y.pipelined = true →
            let m := min y.n (y.j + 1)
            exec (.lexit a w n) s = .next (s.past (x.setLoops ({ y with n := m, count := m + y.stages - 1 } :: r)) none))))) ∧
  (∀ (x : Thread) (e : QEntry) (now : Nat),
      (∀ t, (x.advance e (some t) now).pc = t ∧ (x.advance e (some t) now).loops = x.loops) ∧
      (∀ (o : Option Word), (x.advance e o now).seq = x.seq + 1 ∧ (x.advance e o now).lpre = none ∧ (x.advance e o now).f = x.f ∧
        (x.advance e o now).q = x.q ∧ (x.advance e o now).csr = x.csr ∧ (x.advance e o now).trap = x.trap) ∧
      (let last := e.addr + wd e.size - 4
       ((∀ y r, x.loops = y :: r → y.last ≠ last) → (x.advance e none now).pc = e.addr + wd e.size ∧
          (x.advance e none now).loops = x.loops) ∧
       (∀ y r, x.loops = y :: r → y.last = last → y.j + 1 < y.count → (x.advance e none now).pc = y.first ∧
          (x.advance e none now).loops = { y with j := y.j + 1 } :: r) ∧
       (∀ y, x.loops = [y] → y.last = last → y.count ≤ y.j + 1 → (x.advance e none now).pc = e.addr + wd e.size ∧
          (x.advance e none now).loops = [])))

/-- The s file: s0 reads zero and discards, s30 and s31 push one entry, s28 and s29 read the heads of `vsq` and `asq`, which a word that
names them pops once, and any other register gives what was written last (05 R122, 02 R46). The a file: a0 reads zero and discards, a28
reads the head of `saq`, which a word that names it pops once, a30 pushes one entry onto `asq`, and any other register gives what was
written last (07 R193, 02 R46). -/
def Obligations.ScalarFilesReadWhatWasWritten : Prop :=
  (∀ (th : Thread) (d r : BitVec 5) (v : Word),
      th.sVal 0 = 0 ∧ th.sVal 28 = headVal 0 th.q.vsq ∧ th.sVal 29 = headVal 0 th.q.asq ∧
      th.sPut 0 v = th ∧
      (th.sPut 30 v).q.saq = th.q.saq ++ [QE.now v th.seq] ∧ (th.sPut 30 v).f = th.f ∧
      (th.sPut 31 v).q.svq = th.q.svq ++ [QE.now v th.seq] ∧ (th.sPut 31 v).f = th.f ∧
      (th.sPop [28]).q = { th.q with vsq := th.q.vsq.tail } ∧ (th.sPop [28]).f = th.f ∧ th.sPop [28, 28] = th.sPop [28] ∧
      (th.sPop [29]).q = { th.q with asq := th.q.asq.tail } ∧ (th.sPop [29]).f = th.f ∧ th.sPop [29, 29] = th.sPop [29] ∧
      (r ≠ 28 → r ≠ 29 → th.sPop [r] = th) ∧
      (d ≠ 0 → d < 28 → (th.sPut d v).q = th.q ∧ (th.sPut d v).sVal d = v ∧ (r ≠ d → (th.sPut d v).sVal r = th.sVal r) ∧
        (th.sPut d v).f.a = th.f.a ∧ (th.sPut d v).f.k = th.f.k ∧ (th.sPut d v).f.v = th.f.v ∧ (th.sPut d v).f.m = th.f.m ∧
        (∀ m, m ∈ (th.sPut d v).f.marks ↔ m ∈ th.f.marks ∧ m ≠ d.toNat))) ∧
  (∀ (th : Thread) (d r : BitVec 5) (v : Word) (q : Nat),
      th.aVal 0 = 0 ∧ th.aVal 28 = headVal 0 th.q.saq ∧ th.aPut 0 v q = th ∧
      th.aPop [28] = { th with q := { th.q with saq := th.q.saq.tail } } ∧ th.aPop [28, 28] = th.aPop [28] ∧
      (r ≠ 28 → th.aPop [r] = th) ∧
      (th.aPut 30 v q).q = { th.q with asq := th.q.asq ++ [QE.now v q] } ∧ (th.aPut 30 v q).f = th.f ∧
      (d ≠ 0 → d < 28 → (th.aPut d v q).q = th.q ∧ (th.aPut d v q).aVal d = v ∧
        (r ≠ d → (th.aPut d v q).aVal r = th.aVal r) ∧
        (th.aPut d v q).f = { th.f with a := (th.aPut d v q).f.a, marks := (th.aPut d v q).f.marks } ∧
        (∀ m, m ∈ (th.aPut d v q).f.marks ↔ m ∈ th.f.marks ∧ m ≠ 32 + d.toNat)))

/-- The frame of every S word: it waits, or it takes a trap, or it consumes the poison mark of a register, or its thread changes only in the
s registers and their marks, the queues `vsq`, `asq`, `saq` and `svq`, its loop levels, its history, its place at the front, and what the
front's issue notes; no other thread, no byte of memory and nothing else of the package changes (05 R122, R133 to R145). -/
def Obligations.ScalarWordsChangeOnlyTheirThread : Prop :=
  ∀ (i : Instr) (s t : State) (th : Thread), AtFront s th → engineOf i = .s → exec i s = .next t →
    (∃ w, t = s.noteWait .front th w) ∨
    (∃ c v, t = s.takeTrap th th.seq s.cur.e.addr c v 0) ∨
    (∃ l, l % 256 ∈ th.f.marks ∧ t = s.consumed .front th 9 (dieOf th.c) (th.c % 32) l (wd l)) ∨
    (∃ x : Thread, t = s.setThread x ∧ (∀ m, 32 ≤ m → (m ∈ x.f.marks ↔ m ∈ th.f.marks)) ∧
      x = { th with
        pc := x.pc, seq := x.seq, lpre := x.lpre, loops := x.loops, hist := x.hist
        f := { th.f with s := x.f.s, marks := x.f.marks }
        q := { th.q with vsq := x.q.vsq, asq := x.q.asq, saq := x.q.saq, svq := x.q.svq }
        issue := { th.issue with lastF := x.issue.lastF, waitF := x.issue.waitF, drain := x.issue.drain, group := x.issue.group } })

/-! ### The front: K words -/

/-- CSRR gives the value of any assigned CSR to its destination; of `trc.lost` and `flease` it also clears what a read takes; nothing else
changes. The thread does not record (16 R424, R425, 21 R496, 14 R369). A CSR word that writes gives its destination the old value, stores
what the register's fields take of the value offered, and changes no other CSR, no other register and nothing outside the thread (16 R424
and the rules that 16 R425 names). A write of `escrow.limit` stores the nearest value from 1 to 4,096 for the service, and gives the old
one (12 R308, 16 R424). The model's own choices and readings in it: log entry 41. -/
def Obligations.CsrWordsReadAndWrite : Prop :=
  (∀ (s : State) (th : Thread) (d : BitVec 5) (c : BitVec 12), AtHorizon s th → csrAssigned c = true → th.sReady s.now [0] = .ok () →
      th.sRoom d = .ok () → th.csrWaits c = false → fld th.csr.recd 1 0 = 0 →
      (c ≠ 0x051 → c ≠ 0x01A → exec (.csrr d c) s = .next (s.past (th.sPut d (s.csr th c)) none)) ∧
      (c = 0x051 → exec (.csrr d c) s =
        .next (s.past (let x := th.sPut d (s.csr th c); { x with csr := { x.csr with trcLost := 0 } }) none)) ∧
      (c = 0x01A → exec (.csrr d c) s =
        .next ((s.modGroup th.task th.group (fun g => { g with lost := 0 })).past (th.sPut d (s.csr th c)) none))) ∧
  (∀ (i : Instr) (s : State) (th : Thread) (d a : BitVec 5) (c : BitVec 12) (f : Word → Word → Word) (v : Word),
      AtHorizon s th → csrWriteOf i = some (d, a, c, f) → th.sReady s.now [a] = .ok () → th.sRoom d = .ok () →
      th.csrWaits c = false → csrStored c (s.csr th c) (f (s.csr th c) (th.sVal a)) = some v →
      ∃ x : Thread, exec i s = .next (s.past x none) ∧ s.csr x c = v ∧ (∀ c', c' ≠ c → s.csr x c' = s.csr th c') ∧
        x.f = ((th.sPop [a]).sPut d (s.csr th c)).f ∧ x.q = ((th.sPop [a]).sPut d (s.csr th c)).q ∧
        x.xq = th.xq ∧ x.aq = th.aq ∧ x.land = th.land ∧ x.loops = th.loops) ∧
  (∀ (s : State) (th : Thread) (d a : BitVec 5), AtHorizon s th → th.sReady s.now [a] = .ok () → th.sRoom d = .ok () →
      let n := (th.sVal a).toNat % 8192
      exec (.csrx d a 0x017) s = .next
        ((s.modSvc th.svc (fun x => { x with escLimit := if n = 0 then 1 else if 4096 < n then 4096 else n })).past
          ((th.sPop [a]).sPut d (wd (s.svc th.svc).escLimit)) none))

/-- TRAP takes SOFTTRAP with its immediate and BRK takes BREAK with its own, once older words have settled; while `trc.dbg` is set BRK
asks for a debug stop and completes. HALT takes PRIVILEGED in a service without privilege and stops the thread in one with it (16 R422,
R426, 21 R505). A BRK with `trc.dbg` set, outside a LOOPS body and with nothing queued, completes and stops the thread at the word after
it (16 R422, 21 R505). The model's own choices and readings in it: log entry 27. -/
def Obligations.TrapBreakAndHalt : Prop :=
  (∀ (s : State) (th : Thread) (i : BitVec 13), AtHorizon s th → th.settled th.seq = true →
      exec (.trap i) s = .next (s.takeTrap th th.seq s.cur.e.addr 0x0E (i.setWidth 64) 0) ∧
      exec (.brk i) s = .next (s.takeTrap th th.seq s.cur.e.addr 0x0F (i.setWidth 64) 0) ∧
      (s.privileged th.svc = false → exec .halt s = .next (s.takeTrap th th.seq s.cur.e.addr 0x02 0 0)) ∧
      (s.privileged th.svc = true → th.loops = [] → th.xq = [] → th.aq = [] → th.issue.woke = none →
        (∀ g ∈ s.fab, g.who ≠ .thread th.c th.t) → ∃ t x, exec .halt s = .next t ∧
        t.thread? th.c th.t = some x ∧ x.issue.stopped = true ∧ x.issue.stopReq = 0 ∧ x.f = th.f ∧ x.q = th.q ∧ x.trap = th.trap ∧
        t.mem = s.mem)) ∧
  (∀ (s : State) (th : Thread) (i : BitVec 13), s.thread? s.cur.c s.cur.t = some th → s.cur.front = true → th.csr.trc = 0x40#7 →
      th.issue.stopReq = 0 → th.hist = [] → th.loops = [] → th.xq = [] → th.aq = [] → th.issue.woke = none →
      (∀ g ∈ s.fab, g.who ≠ .thread th.c th.t) → ∃ t x, exec (.brk i) s = .next t ∧ t.thread? th.c th.t = some x ∧
        x.issue.stopped = true ∧ x.issue.stopReq = 0 ∧
        x.pc = s.cur.e.addr + wd s.cur.e.size ∧ x.f = th.f ∧ x.q = th.q ∧ x.trap = th.trap ∧ t.mem = s.mem)

/-- Taking a trap at level 0 or 1 of a thread whose next vector is not zero: the level rises by one; its registers hold the cause, the
address of the word, the value and the status; the pc is the vector; loops, ticks, queued V words, results in flight and pending nests are
set aside in the level's bank; run-ahead younger than the trap point is undone; no register file changes but by that undoing, and no byte
of memory (16 R404, R407 to R412). The model's own choices and readings in it: log entry 70. -/
def Obligations.TrapEntrySavesAndVectors : Prop :=
  ∀ (s : State) (th : Thread) (q : Nat) (epc v : Word) (cause : BitVec 6) (src : Nat),
    s.thread? th.c th.t = some th → th.traces 3 = false → th.trap.level < 2 →
    (if th.trap.level = 0 then th.trap.vec1 else th.trap.vec2) ≠ 0 →
    ∃ x : Thread, (s.takeTrap th q epc cause v src).thread? th.c th.t = some x ∧
      x.trap.level = th.trap.level + 1 ∧
      x.pc = (if th.trap.level = 0 then th.trap.vec1 else th.trap.vec2) ∧
      (let r := if th.trap.level = 0 then x.trap.r1 else x.trap.r2
       r.cause = cause ∧ r.epc = epc ∧ r.val = v ∧
       r.stat = wd (q % 2 ^ 16 * 2 ^ 48 + ((th.rollBack q).xq.length) * 2 ^ 40 + th.land.length * 2 ^ 32 +
         (th.rollBack q).loops.length * 2 ^ 8 + src * 2 ^ 4 + th.trap.level)) ∧
      (let b := if th.trap.level = 0 then x.trap.bank1 else x.trap.bank2
       b.loops = (th.rollBack q).loops ∧ b.tick = th.tick ∧ b.vset = (th.rollBack q).xq ∧ b.inflight = th.land ∧
       b.nests = (th.rollBack q).nests) ∧
      (th.trap.level = 1 → x.trap.r1 = th.trap.r1 ∧ x.trap.bank1 = th.trap.bank1) ∧
      x.trap.vec1 = th.trap.vec1 ∧ x.trap.vec2 = th.trap.vec2 ∧
      x.loops = [] ∧ x.tick = 0 ∧ x.xq = [] ∧ x.land = [] ∧ x.nests = [] ∧ x.hist = [] ∧ x.f = (th.undo q).f ∧
      (s.takeTrap th q epc cause v src).mem = s.mem

/-- RFT at level 0 takes ILLEGAL; at level 1 or 2, with no V word queued and no result in flight, it returns: the level falls by one, the
pc is that level's `trap.epc`, the bank is put back, and no register file, entry of a data queue or byte of memory changes (16 R423). While a
result of the handler is in flight it waits, asking for drain ticks (04 R113). That what the handler pushed counts as an older word's to the V
words put back is the model's reading: log entry 75. -/
def Obligations.ReturnFromTrapRestores : Prop :=
  ∀ (s : State) (th : Thread), AtHorizon s th → th.trap.level ≤ 2 →
    (th.trap.level = 0 → th.settled th.seq = true →
      exec .rft s = .next (s.takeTrap th th.seq s.cur.e.addr 0x01 s.cur.e.wordVal 0)) ∧
    (th.trap.level ≠ 0 → th.xq = [] → th.land = [] →
      let b := if th.trap.level = 1 then th.trap.bank1 else th.trap.bank2
      let r := if th.trap.level = 1 then th.trap.r1 else th.trap.r2
      ∃ x : Thread, exec .rft s = .next (s.setThread x) ∧ x.trap.level = th.trap.level - 1 ∧ x.pc = r.epc ∧ x.loops = b.loops ∧
        x.tick = b.tick ∧ x.xq = b.vset ∧ x.land = b.inflight ∧ x.nests = b.nests ∧ x.f = th.f ∧ x.csr = th.csr ∧
        x.q = { th.q with lq0 := th.q.lq0.map QE.past, lq1 := th.q.lq1.map QE.past, svq := th.q.svq.map QE.past } ∧
        x.trap.r1 = th.trap.r1 ∧ x.trap.r2 = th.trap.r2 ∧ x.trap.vec1 = th.trap.vec1 ∧ x.trap.vec2 = th.trap.vec2) ∧
    (th.trap.level ≠ 0 → (th.xq ≠ [] ∨ th.land ≠ []) → exec .rft s = .next (s.drainWait th))

/-- YIELD, SLEEP, PRIO, ESYNC and FENCEI: each completes with its one effect on its own thread; ESYNC once older words have landed, been
delivered and left their queues, FENCEI once posted stores have been performed, writing back the core's dirty sectors and emptying its
instruction cache (04 R118 to R121, 02 R55). -/
def Obligations.ThreadControlWords : Prop :=
  ∀ (s : State) (th : Thread) (d a : BitVec 5) (i : BitVec 13), AtHorizon s th →
    exec .yield s = .next (s.past { th with issue := { th.issue with lastF := s.now + 1, lastV := s.now + 1, lastA := s.now + 1 } } none) ∧
    (th.sReady s.now [a] = .ok () →
      let n := min ((th.sVal a).toNat + i.toNat) (2 ^ 40)
      (n = 0 → exec (.sleep a i) s = .next (s.past (th.sPop [a]) none)) ∧
      (n ≠ 0 → exec (.sleep a i) s = .next
        (s.past (let x := th.sPop [a]; { x with issue := { x.issue with sleepEnd := some (s.now + n) } }) none))) ∧
    (th.sReady s.now [a] = .ok () → th.sRoom d = .ok () →
      exec (.prio d a i) s = .next
        (s.past { (th.sPop [a]).sPut d (wd th.own) with own := min ((th.sVal a).toNat + i.toNat) (s.ceiling th.svc) } none)) ∧
    (th.xq = [] → th.land = [] → s.quiet th 5 = .ok () → th.undelivered = false → s.queuedOf th = false →
      exec .esync s = .next (s.past th none)) ∧
    (let s1 := s.releaseAt th.c 5 (s.vcOf th)
     s.posted th 5 = false → s1.writingBack th.c = false →
      exec .fencei s = .next ((s1.modCore th.c (fun k => { k with icache := [] })).past th none))

/-- EXIT inside an inline call returns to the word after the SPAWN; outside one, once the thread's work is complete, it writes back the
core's dirty sectors that a release at `.gang`, or at the wider scope of an earlier FENCE, covers, drops the thread's registrations, frees
the slot, gives the reserve back and lowers the group's count of threads (04 R117, 08 R210, 09 R229, 17 R445, 18 R454). -/
def Obligations.ExitEndsTheThread : Prop :=
  ∀ (s : State) (th : Thread), AtHorizon s th →
    (∀ r l, th.csr.spawnDepth ≠ 0 → th.inl = r :: l →
      exec .exit s = .next (s.past { th with inl := l, csr := { th.csr with spawnDepth := th.csr.spawnDepth - 1 } } (some r))) ∧
    (th.csr.spawnDepth = 0 → th.xq = [] → th.land = [] → s.quiet th 5 = .ok () → th.undelivered = false → s.queuedOf th = false →
      s.runningOf th = false →
      let s0 := s.releaseAt th.c (th.relScope 1) (s.vcOf th)
      s0.writingBack th.c = false →
      let s1 := (s0.dropAll th).dropThread th.c th.t
      let s2 := (s1.credit th.svc th.csr.leave.toNat).modGroup th.task th.group (fun g => { g with live := g.live - 1 })
      exec .exit s = .next (s2.afterExit th.task th.group) ∧ (s2.afterExit th.task th.group).thread? th.c th.t = none)

/-- SPAWN of a record of `r` ranges on an enabled queue with room: the core's dirty sectors that a release at `.task` covers are written
back, the record stands in the slot of the queue's tail with its status half-word cleared, the tail moves on by one, and the destination
takes 0; on a queue that is not enabled the destination takes 3 and nothing else changes (17 R443, R444). The model's own choices and
readings in it: log entry 40. -/
def Obligations.SpawnEnqueuesItsRecord : Prop :=
  ∀ (s : State) (th : Thread) (d a b : BitVec 5) (g : Group) (o : Nat), AtHorizon s th → th.sReady s.now [a, b] = .ok () →
    th.sRoom d = .ok () → fld th.csr.recd 1 0 = 0 → (th.sVal b).toNat < 16 →
    th.issue.waitF.any (fun w => w.why == some (.block (th.sVal a))) = false →
    s.spChk th.task th.group th.c (th.sVal a) 128 64 = .ok (g, o) → s.spClean g.c (g.phys o) 128 = .ok () →
    (let h := (s.core g.c).sp.words (g.phys o) 16
     let r := fld (h.getD 0 0) 23 19
     let q := (th.sVal b).toNat
     let base := s.reg (.lnqBase th.svc q)
     let ctl := s.reg (.lnqCtl th.svc q)
     let on := fld base 3 0 ≠ 0 ∧ bit ctl 63 = true ∧ bit ctl 62 = true
     r ≤ 16 → s.spChk th.task th.group th.c (th.sVal a) (128 + 64 * r) 64 = .ok (g, o) →
     (¬ on → exec (.spawn d a b) s = .next (s.past ((th.sPop [a, b]).sPut d 3) none)) ∧
     (on → s.lnqDepth th.svc q < 2 ^ fld base 3 0 → s.quiet th 5 = .ok () → s.spClean g.c (g.phys o) (128 + 64 * r) = .ok () →
       let s0 := (s.useBanks g.c (if g.c = th.c then th.t else 13) (wordsOf (g.phys o) (128 + 64 * r))).releaseAt th.c 3 (s.vcOf th)
       s0.writingBack th.c = false →
       let s1 := s0.raceCount th
       let tail := s.lnqTailN th.svc q
       let slot := fld base 51 12 * 4096 + 2048 * (tail % 2 ^ fld base 3 0)
       let m := s1.mem.putN slot (128 + 64 * r) ((s.core g.c).sp.getN (g.phys o) (128 + 64 * r))
       let s2 := s1.wrote slot (128 + 64 * r) (m.putWord (slot + 72) (h.getD 9 0 &&& ~~~(0xFFFF#64 <<< 32)))
       let s3 := s2.setReg (.lnqTail th.svc q) (wd ((tail + 1) % 65536))
       exec (.spawn d a b) s = .next ((s3.modThread th.c th.t (fun y => (y.sPop [a, b]).sPut d 0)).frontDone th s.cur.e none)))

/-- FLEASE that has been granted gives the shape and the strip mask; a group that holds or awaits a lease gives 2 in bits [63:62]; a second
look at a request with `.try` withdraws it and gives 1 there, as does one that a grant to another has passed over. FRET gives the mask and
starts the return of the lease (14 R367, R368). DRAW of nothing gives 0; one that would take the reserve to 2^32 or beyond gives 2; one
whose service's account is off, or that has been granted, adds the amount to the reserve and gives 0; one with `.try` that a grant to
another has passed over gives 1. DRET takes at most what is asked from the reserve, credits it to the account and gives the amount (18
R454). The model's own choices and readings in it: log entry 62. -/
def Obligations.LeaseAndReserveWords : Prop :=
  (∀ (s : State) (th : Thread) (d : BitVec 5) (t : BitVec 1) (q sh : BitVec 2), AtHorizon s th → th.sRoom d = .ok () →
      fld th.csr.recd 1 0 = 0 →
      (∀ m, th.issue.got = some m → exec (.flease d t q sh) s = .next
        (s.past (let x := th.sPut d (wd (sh.toNat * 2 ^ 8 + m)); { x with issue := { x.issue with got := none, once := 0 } }) none)) ∧
      (∀ g, th.issue.got = none → th.issue.once ≠ 3 → s.asking th = false → s.groupOf? th = some g → (g.mask ≠ 0 ∨ g.pend = true) →
        exec (.flease d t q sh) s = .next
          (s.past (let x := th.sPut d (2#64 <<< 62); { x with issue := { x.issue with got := none, once := 0 } }) none)) ∧
      (th.issue.got = none → th.issue.once ≠ 3 → s.asking th = true → t = 1 → exec (.flease d t q sh) s = .next
        ((s.withdraw th).past (let x := th.sPut d (1#64 <<< 62); { x with issue := { x.issue with got := none, once := 0 } }) none)) ∧
      (th.issue.got = none → th.issue.once = 3 → exec (.flease d t q sh) s = .next
        (s.past (let x := th.sPut d (1#64 <<< 62); { x with issue := { x.issue with got := none, once := 0 } }) none)) ∧
      (∀ g, s.groupOf? th = some g →
        exec (.fret d) s = .next (((s.setThread (th.sPut d (g.mask.setWidth 64))).returnLease g).past
          (th.sPut d (g.mask.setWidth 64)) none)) ∧
      (s.groupOf? th = none → exec (.fret d) s = .next (s.past (th.sPut d 0) none))) ∧
  (∀ (s : State) (th : Thread) (d a : BitVec 5) (t : BitVec 1), AtHorizon s th → th.sReady s.now [a] = .ok () → th.sRoom d = .ok () →
      fld th.csr.recd 1 0 = 0 →
      let amt := (th.sVal a).toNat
      let gives (v : Word) (r : BitVec 32) : Thread :=
        let x := (th.sPop [a]).sPut d v
        { x with issue := { x.issue with got := none, once := 0 }, csr := { x.csr with leave := r } }
      (amt = 0 → exec (.draw d a t) s = .next (s.past (gives 0 th.csr.leave) none)) ∧
      (amt ≠ 0 → 2 ^ 32 ≤ th.csr.leave.toNat + amt → exec (.draw d a t) s = .next (s.past (gives 2 th.csr.leave) none)) ∧
      (amt ≠ 0 → th.csr.leave.toNat + amt < 2 ^ 32 → (th.issue.got ≠ none ∨ (s.svc th.svc).off = true) →
        exec (.draw d a t) s = .next (s.past (gives 0 (th.csr.leave + BitVec.ofNat 32 amt)) none)) ∧
      (amt ≠ 0 → th.csr.leave.toNat + amt < 2 ^ 32 → th.issue.got = none → (s.svc th.svc).off = false → th.issue.once = 3 →
        exec (.draw d a t) s = .next (s.past (gives 1 th.csr.leave) none)) ∧
      (let m := min amt th.csr.leave.toNat
       exec (.dret d a) s = .next ((s.credit th.svc m).past
         (let x := (th.sPop [a]).sPut d (wd m)
          { x with csr := { x.csr with leave := th.csr.leave - BitVec.ofNat 32 m } }) none)))

/-- CAPR gives entry `S[a]` of the capability list, whose entries carry their identifiers 1 to 9 in order and are 0 beyond; LEXT holds the
front for the scheduler's reply to the tile that it names; MARK without tracing only pops (22 R518, R519, 10 R267, 21 R501). A MARK of a
thread with `trc.en` alone set, on a core whose ring stands in memory and has budget left, writes one record at the ring's head: kind 1,
the thread's slot, the word's number and the time, its correlation and its immediate, the source's value and zero; and the head moves on
by one (21 R495, R497, R501). -/
def Obligations.CapabilityExtensionAndMark : Prop :=
  (∀ (s : State) (th : Thread) (d a b : BitVec 5) (i : BitVec 13), AtHorizon s th → th.sReady s.now [a, b] = .ok () →
      th.sRoom d = .ok () →
      (∃ v : Word, exec (.capr d a) s = .next (s.past ((th.sPop [a]).sPut d v) none) ∧
        ((th.sVal a).toNat < 9 → v.toNat / 2 ^ 48 = (th.sVal a).toNat + 1) ∧ (9 ≤ (th.sVal a).toNat → v = 0)) ∧
      exec (.lext d a b) s = .next (s.past
        (let x := th.sPop [a, b]; { x with issue := { x.issue with lext := some (d.toNat, th.sVal a, th.sVal b) } }) none) ∧
      exec (.mark a i) s = .next (s.past (th.sPop [a]) none)) ∧
  (∀ (s : State) (th : Thread) (a : BitVec 5) (i : BitVec 13), s.thread? s.cur.c s.cur.t = some th → s.cur.front = true →
      th.atHorizon th.seq = true → th.csr.trc = 1 → th.issue.stopReq = 0 →
      th.hist.length + th.loops.length + 8 ≤ 64 → th.csr.lost9 = 0 →
      th.sReady s.now [a] = .ok () → fld (s.reg (.trcBase th.c)) 4 0 ≠ 0 → (s.core th.c).stage = [] →
      (s.die (dieOf th.c)).usedTr < s.budTr (dieOf th.c) →
      ∃ t, exec (.mark a i) s = .next t ∧
        (let base := fld (s.reg (.trcBase th.c)) 51 12 * 4096
         let head := (s.reg (.trcHead th.c)).toNat
         let at_ := base + 32 * (head % 2 ^ fld (s.reg (.trcBase th.c)) 4 0)
         t.mem = (((s.mem.putWord at_ (wd (1 * 2 ^ 59 + th.t * 2 ^ 56 + th.seq % 2 ^ 16 * 2 ^ 40 + s.now % 2 ^ 40))).putWord (at_ + 8)
           (wd (th.csr.corr.toNat * 2 ^ 32 + i.toNat))).putWord (at_ + 16) (th.sVal a)).putWord (at_ + 24) 0 ∧
         t.reg (.trcHead th.c) = wd ((head + 1) % 2 ^ 32)))

/-! ### The execute engine -/

/-- Every V word at the head of its queue that can issue completes: it leaves the queue and takes one tick; it pops each port that it
names once; what it pushes fills, and what it writes lands, its class's latency later, at its destinations or `fflags` alone; until then
no register changes. Nothing else of the package changes (04 R102, R103, R111, R112, Table 4.3, 06 R155). The model's own choices and
readings in it: log entry 20. -/
def Obligations.VectorWordsIssueAndLandLater : Prop :=
  ∀ (i : Instr) (s : State) (th : Thread) (lat : Nat), AtIssue s th i → vLatencyOf i = some lat →
    ∃ (t : State) (x : Thread) (new : List Landing), exec i s = .next t ∧ t.thread? th.c th.t = some x ∧
      t = { s.setThread x with agenda := t.agenda } ∧
      x.xq = th.xq.tail ∧ x.tick = th.tick + 1 ∧ x.f = th.f ∧
      x.land = th.land ++ new ∧ (∀ l ∈ new, l.due = th.tick + lat ∧ (l.dst = .flags ∨ l.dst ∈ vTargets i)) ∧
      x.q.lq0 = (if (28#5) ∈ vSrcs i then th.q.lq0.tail else th.q.lq0) ∧
      x.q.lq1 = (if (29#5) ∈ vSrcs i then th.q.lq1.tail else th.q.lq1) ∧
      x.q.svq = (if (31#5) ∈ vSrcs i then th.q.svq.tail else th.q.svq) ∧
      (if vPush i = some .sq then ∃ e : QE Vec, x.q.sq = th.q.sq ++ [e] ∧ e.fillAt = s.now + lat else x.q.sq = th.q.sq) ∧
      (if vPush i = some .vsq then ∃ e : QE Word, x.q.vsq = th.q.vsq ++ [e] ∧ e.fillAt = s.now + lat else x.q.vsq = th.q.vsq) ∧
      (if vPush i = some .vaq then ∃ e : QE Vec, x.q.vaq = th.q.vaq ++ [e] ∧ e.fillAt = s.now + lat else x.q.vaq = th.q.vaq) ∧
      x.q.saq = th.q.saq ∧ x.q.asq = th.q.asq ∧ x.aq = th.aq ∧ x.loops = th.loops ∧ x.pc = th.pc ∧ x.trap = th.trap ∧
      x.csr = { th.csr with srnd := x.csr.srnd }

/-- The integer, count and permute words write, into each lane that their mask makes active, the value that Table 6.4 and the permutes'
rules give: wrapped modulo 2^w, or clamped under `.sat` (06 R151, R158, R159, R162, R172, R175). The bit words write, where their mask
governs, the bits of their function; VSEL selects by its mask and writes every bit; VMOVI writes the low half of its immediate into every
group of 32 bits (06 R162, R164, R173). -/
def Obligations.IntegerPermuteAndBitLanes : Prop :=
  (∀ (i : Instr) (s : State) (th : Thread) (lat : Nat) (d : BitVec 5) (t : BitVec 4) (m : BitVec 3) (val : Nat → Nat),
      AtIssue s th i → i.wellFormed = true → vLatencyOf i = some lat → laneFnOf th i = some (d, t, m, val) →
      LandsBits s th i lat d (th.mVal m) (fun v => ∀ j, j < 2048 / typeWidth t →
        (th.mVal m).getLsbD (j * typeWidth t / 32) = true → laneOf (typeWidth t) v j = val j)) ∧
  (∀ (i : Instr) (s : State) (th : Thread), AtIssue s th i → i.wellFormed = true →
      (∀ (d : BitVec 5) (t : BitVec 4) (m : BitVec 3) (p : Nat → Bool), vBitsOf th i = some (d, t, m, p) →
        LandsBits s th i 2 d (th.mVal m) (fun v => ∀ n, n < 2048 → (th.mVal m).getLsbD (n / 32) = true → v.getLsbD n = p n)) ∧
      (∀ (d : BitVec 5) (k : BitVec 18) (p : Option (BitVec 29)), i = .vmovi d k p →
        LandsBits s th i 2 d (BitVec.allOnes 64) (fun v => ∀ n, n < 2048 → v.getLsbD n = (immS k p).getLsbD (n % 32))))

/-- An integer compare lands a whole mask register: a bit whose mask bit is 0 is 0, any other is the condition of every lane of its group,
or of some lane under `alt` (06 R163). MLOG lands its operation of two masks, inverted under `alt`, on the bits that its mask selects;
MPOP and MFIRST land the number, or the least, of the bits set in both masks in group 0, with every other group zero; VTOS pushes one
64-bit word and VTOA a whole register (06 R174, R176). -/
def Obligations.ComparesMaskWordsAndPushes : Prop :=
  (∀ (i : Instr) (s : State) (th : Thread) (d m : BitVec 3) (t : BitVec 4) (alt : Bool) (c : Nat → Bool),
      AtIssue s th i → compareOf th i = some (d, t, m, alt, c) →
      ∃ (u : State) (x : Thread) (l : Landing), exec i s = .next u ∧ u.thread? th.c th.t = some x ∧ x.land = th.land ++ [l] ∧
        l.dst = .m d.toNat ∧ l.due = th.tick + 2 ∧ (l.mask.setWidth 64) = BitVec.allOnes 64 ∧
        ∀ g, g < 64 → (l.val.setWidth 64).getLsbD g = ((th.mVal m).getLsbD g &&
          let js := (List.range (32 / typeWidth t)).map (fun j => 32 / typeWidth t * g + j)
          if alt then js.any c else js.all c)) ∧
  (∀ (s : State) (th : Thread) (d a m : BitVec 3) (p : BitVec 2) (b : BitVec 3) (n : BitVec 1) (v r j : BitVec 5),
      (AtIssue s th (.mlog d a p b m n) → ∃ (t : State) (x : Thread) (l : Landing), exec (.mlog d a p b m n) s = .next t ∧
        t.thread? th.c th.t = some x ∧ x.land = th.land ++ [l] ∧ l.dst = .m d.toNat ∧ l.due = th.tick + 2 ∧
        l.mask.setWidth 64 = th.mVal m ∧
        ∀ g, g < 64 → l.val.getLsbD g = ((n == 1) != (let y := (th.mVal a).getLsbD g; let z := (th.mVal b).getLsbD g
          if p = 0 then y && z else if p = 1 then y || z else if p = 2 then y != z else y && !z))) ∧
      (AtIssue s th (.mpop v a m) → LandsBits s th (.mpop v a m) 2 v (BitVec.allOnes 64) (fun x =>
        x.toNat = ((List.range 64).filter (fun g => (th.mVal a).getLsbD g && (th.mVal m).getLsbD g)).length)) ∧
      (AtIssue s th (.mfirst v a m) → LandsBits s th (.mfirst v a m) 2 v (BitVec.allOnes 64) (fun x =>
        let both (g : Nat) : Bool := (th.mVal a).getLsbD g && (th.mVal m).getLsbD g
        x.toNat ≤ 64 ∧ (∀ g, g < x.toNat → both g = false) ∧ (x.toNat < 64 → both x.toNat = true))) ∧
      (AtIssue s th (.vtos r j) → ∃ (t : State) (x : Thread) (e : QE Word), exec (.vtos r j) s = .next t ∧
        t.thread? th.c th.t = some x ∧ x.q.vsq = th.q.vsq ++ [e] ∧ e.fillAt = s.now + 2 ∧
        e.val = wd ((th.vVal r 32).toNat / 2 ^ (64 * j.toNat) % 2 ^ 64)) ∧
      (AtIssue s th (.vtoa r) → ∃ (t : State) (x : Thread) (e : QE Vec), exec (.vtoa r) s = .next t ∧
        t.thread? th.c th.t = some x ∧ x.q.vaq = th.q.vaq ++ [e] ∧ e.fillAt = s.now + 2 ∧ e.val = th.vVal r 32))

/-- A result that comes due alone lands: a register takes its bits where its mask has ones and keeps the others; flags are united with
`fflags`; nothing else of the thread changes (04 R111, 06 R151, R155). The model's own choices and readings in it: log entry 1. -/
def Obligations.ResultsLandUnderTheirMask : Prop :=
  ∀ (s : State) (th : Thread) (c t : Nat) (l : Landing), s.cur.ev = some (.vResultLand c t) → s.thread? c t = some th →
    th.land = [l] → l.due ≤ th.tick →
    ∃ x : Thread, exec .vResultLand s = .next (s.setThread x) ∧ x = { th with land := [], f := x.f, csr := x.csr } ∧
      x.f.s = th.f.s ∧ x.f.a = th.f.a ∧ x.f.k = th.f.k ∧ x.f.marks = th.f.marks ∧
      (∀ n, l.dst = .v n → (∀ j, j < 2048 → (x.f.v.get 0 n).getLsbD j =
          if l.mask.getLsbD j then l.val.getLsbD j else (th.f.v.get 0 n).getLsbD j) ∧
        (∀ k, k ≠ n → x.f.v.get 0 k = th.f.v.get 0 k) ∧ x.f.m = th.f.m ∧ x.csr = th.csr) ∧
      (∀ n, l.dst = .m n → (∀ j, j < 64 → (x.f.m.get 0 n).getLsbD j =
          if l.mask.getLsbD j then l.val.getLsbD j else (th.f.m.get 0 n).getLsbD j) ∧
        (∀ k, k ≠ n → x.f.m.get 0 k = th.f.m.get 0 k) ∧ x.f.v = th.f.v ∧ x.csr = th.csr) ∧
      (l.dst = .flags → x.f = th.f ∧ x.csr = { th.csr with fflags := th.csr.fflags ||| l.val.setWidth 6 })

/-- Rounding keeps what the type holds: the number in a lane of a float type other than NaN rounds to that lane in every mode, with no
flag (03 R67 to R71, R75). -/
def Obligations.RoundingKeepsRepresentableNumbers : Prop :=
  ∀ (t b : Nat) (mode : BitVec 2), 6 ≤ t → t ≤ 10 → b < 2 ^ laneW t → (laneFV t b).isNan = false →
    roundTy t mode false (Ex.of (laneFV t b)) = (b, 0)

/-- The front steers a V, A or Y word to the end of its engine's queue and moves past it; a full queue holds the front. VWAIT is steered
too, and from then on the front waits (02 R35, R37, R38, 04 R106, 06 R177). -/
def Obligations.EngineWordsQueueInOrder : Prop :=
  ∀ (i : Instr) (s : State) (th : Thread), AtFront s th → s.cur.e.ins = i →
    (engineOf i = .v → i ≠ .vwait →
      (th.xq.length < 32 → exec i s = .next (s.past { th with xq := th.xq ++ [s.cur.e] } none)) ∧
      (32 ≤ th.xq.length → exec i s = .next (s.noteWait .front th none))) ∧
    (engineOf i = .a ∨ engineOf i = .y →
      (th.aq.length < 32 → exec i s = .next (s.past { th with aq := th.aq ++ [s.cur.e] } none)) ∧
      (32 ≤ th.aq.length → exec i s = .next (s.noteWait .front th none))) ∧
    (i = .vwait → th.xq.length < 32 → ∃ x, exec i s = .next (s.past x none) ∧
      x = { th with xq := th.xq ++ [s.cur.e], issue := { th.issue with vwait := true } })

/-! ### The access engine -/

/-- An A or Y word at the head of its queue that writes a function of `a` registers, or a `k` register, pops `saq` if it names it and
writes its result. Nothing else changes (07 R193, R194, 10 R268). -/
def Obligations.AccessWordsWriteTheirResult : Prop :=
  ∀ (i : Instr) (s : State) (th : Thread),
    (∀ (rs : List (BitVec 5)) (d : BitVec 5) (v : Word), accessOf th i = some (rs, d, v) → i.wellFormed = true →
      th.aReady s.now s.cur.e.seq rs = .ok () → th.aRoom d = .ok () → AtAccess s th →
      exec i s = .next (s.accessed ((th.aPop rs).aPut d v s.cur.e.seq))) ∧
    (∀ (rs : List (BitVec 5)) (d : BitVec 3) (f : Nat → BitVec 32), coordsOf th i = some (rs, d, f) → i.wellFormed = true →
      AtAccess s th → th.aReady s.now s.cur.e.seq rs = .ok () → th.kClean (kReads i) = .ok () →
      ∃ v : Tab (BitVec 32), exec i s = .next (s.accessed ((th.aPop rs).putK d v)) ∧ (∀ j, j < 6 → Tab.get 0 v j = f j) ∧
        (∀ j, j < 6 → ((th.aPop rs).putK d v).coord d j = f j) ∧
        (∀ r j, r ≠ d → ((th.aPop rs).putK d v).coord r j = th.coord r j))

/-- LDS, LDV, LDVS, LDG and LDT bring the bytes of their elements, zero for one that is skipped: LDS into its register, the others into an
entry of the load queue that is reserved now and filled when the data arrive. Memory and every scratchpad are unchanged: only banks have
been at work, and the wait of LDS for its bank is counted (07 R184, R195, R197 to R199, R203, 04 R101, 21 R503). The model's own choices
and readings in it: log entry 10. -/
def Obligations.ScratchpadLoadsBringTheirBytes : Prop :=
  ∀ (i : Instr) (s : State) (th : Thread) (n : Nat) (l : List (Option (Nat × Nat))), AtPlainAccess s th → (popsOf i).2.2 = false →
    PortsReady s th i → Places s th i n l →
    (∀ c a, some (c, a) ∈ l → (c = th.c ∨ s.farBusy th c = false) ∧ s.spPoisoned c a n = none) →
    ∃ (v : Vec) (u : State), OnlyBanks s u ∧ (∀ j k, j < l.length → k < n → vecByte v (n * j + k) = match l.getD j none with
        | some (c, a) => (s.core c).sp.get (a + k)
        | none => 0) ∧
      (∀ d, loadsTo i = some d → th.lqRoom d = .ok () → exec i s =
        .next ((u.accessedBy th (fun x => (x.popped i).lqPush d v s.cur.e.seq)).later [.loadDataArrive th.c th.t (lqPort d)])) ∧
      (∀ d a k p, i = .lds d a k p → th.aRoom d = .ok () → exec i s =
        .next (u.accessedBy th (fun x => (x.popped i).aPut d (v.setWidth 64) s.cur.e.seq)) ∧
        ∀ c o, l = [some (c, o)] → (s.core c).busy.Pairwise (fun p q => p.1 < q.1) →
          let port := if c = th.c then th.t else 13
          (u.core c).bmx.get 0 (32 * port + o / 8 % 32) = bankCount s c port (o / 8 % 32))

/-- STS, STV, STVS, STG and STT on their own core store the bytes of their elements, the later over the earlier, into that core's
scratchpad, and change no other byte of it, no other core and no memory; STS and STV to another core post their bytes to it (07 R196 to
R199, R203). The banks of the core whose bytes are stored are at work meanwhile (07 R184). The model's own choices and readings in it: log
entries 10 and 13. -/
def Obligations.ScratchpadStoresPutTheirBytes : Prop :=
  ∀ (i : Instr) (s : State) (th : Thread) (n : Nat) (l : List (Option (Nat × Nat))), AtPlainAccess s th → loadsTo i = none →
    PortsReady s th i → Places s th i n l →
    ((popsOf i).2.2 = true ∨ (∃ d a k p, i = .sts d a k p)) →
    ((∀ c a, some (c, a) ∈ l → c = th.c) → (s.core th.c).sp.wf = true →
      ∃ t, exec i s = .next t ∧
        t = { s.accessedBy th (·.popped i) with cores := t.cores, spPoison := t.spPoison } ∧
        (∀ c, { t.core c with sp := (s.core c).sp, busy := (s.core c).busy, bmx := (s.core c).bmx } = s.core c) ∧
        (∀ c, c ≠ th.c → (t.core c).sp = (s.core c).sp) ∧
        (∀ o, (∀ p ∈ l, ¬ Meets th.c o n p) → (t.core th.c).sp.get o = (s.core th.c).sp.get o) ∧
        (∀ j k a, j < l.length → k < n → l.getD j none = some (th.c, a) →
          (∀ m, j < m → m < l.length → ¬ Meets th.c (a + k) n (l.getD m none)) →
          (t.core th.c).sp.get (a + k) = vecByte (storedOf th i) (n * j + k))) ∧
    (∀ c a, l = [some (c, a)] → c ≠ th.c → ∃ t m, exec i s = .next t ∧ m.c = th.c ∧ m.t = th.t ∧ m.dest = c ∧
      m.n = s.nextMsg ∧ (∃ v, m.what = .store c a n v ∧ ∀ k, k < n → BitVec.ofNat 8 (v / 256 ^ k) = vecByte (storedOf th i) k) ∧
      t = { s.accessedBy th (·.popped i) with mesh := s.mesh ++ [m], nextMsg := s.nextMsg + 1 })

/-- A scratchpad word checks every element, in order, before any byte moves: the first that is not aligned takes ALIGN, the first whose
reference names no window takes BOUNDS, with its address; an armed watchpoint of a word that passes takes BREAK with its number. Nothing
is popped or stored (07 R182, R195 to R199, 21 R504, 16 R404). The model's own choices and readings in it: log entries 27 and 43. -/
def Obligations.ScratchpadWordsCheckFirst : Prop :=
  ∀ (i : Instr) (s : State) (th : Thread) (n al : Nat) (xs pre post : List (Option Word)) (x : Word), AtAccess s th →
    PortsReady s th i → (∀ d, loadsTo i = some d → th.lqRoom d = .ok ()) → (∀ d a k p, i = .lds d a k p → th.aRoom d = .ok ()) →
    elementsOf th i = some (n, al, xs) → th.settled s.cur.e.seq = true →
    (xs = pre ++ some x :: post → (∀ y, some y ∈ pre → ∃ g, InWindow s th g y n al) →
      (x.toNat % al ≠ 0 → exec i s = .next (s.takeTrap th s.cur.e.seq s.cur.e.addr 0x05 x 1)) ∧
      (x.toNat % al = 0 → s.refGroup th.task th.group th.c x = none →
        exec i s = .next (s.takeTrap th s.cur.e.seq s.cur.e.addr 0x11 x 1))) ∧
    (∀ g, xs = [some x] → InWindow s th g x n al → th.csr.trc.getLsbD 6 = false →
      (let w := th.csr.wpt.get 0 0
       fld w 63 62 = 2 ∧ fld w 61 60 = 3 ∧ fld w 59 48 = 0xFFF ∧ fld w 47 5 = x.toNat % 2 ^ 21 / 32) →
      exec i s = .next (s.takeTrap th s.cur.e.seq s.cur.e.addr 0x0F 0x2000 1))

/-- TTREG registers a free entry over 512-byte units that lie inside the window and overlap no tile, empty; TTREL removes an entry, TREADY
and TEMPTY set its state, when it is neither filling nor draining; TWAIT goes on in the state that it names; TTSTAT gives the entry's
word, or zero. No byte moves (07 R185, R200 to R202). An entry that carries a poison mark is consumed (19 R466, R467); its place number is
the model's choice: log entry 84. -/
def Obligations.TileWordsManageTheTable : Prop :=
  ∀ (s : State) (th : Thread) (g : Group) (t : BitVec 8) (a d : BitVec 5) (sc : BitVec 2), AtAccess s th → s.groupOf? th = some g →
    t.toNat < 8 * g.tcnt →
    let e := 8 * g.tbase + t.toNat
    let entry (y : Option Tile) : State := s.modCore g.c (fun k => { k with tiles := match y with
      | some z => k.tiles.set e z
      | none => k.tiles.del e })
    let done (u : State) (f : Thread → Thread) : State := u.accessedBy th f
    (th.aReady s.now s.cur.e.seq [a] = .ok () → (s.core g.c).tiles.find e = none →
      let w := (th.aVal a).toNat
      let base := w % 2 ^ 12
      let size := w / 2 ^ 12 % 2 ^ 13
      let ty := w / 2 ^ 28 % 16
      ty < 12 → 1 ≤ size → size ≤ 4096 → 512 * (base + size) ≤ 65536 * g.size → 65536 * g.base + 512 * (base + size) ≤ 0x1FC000 →
      (∀ p ∈ s.tilesOf g, p.2.base + p.2.size ≤ base ∨ base + size ≤ p.2.base) →
      let y : Tile := { base := base, size := size, ty := BitVec.ofNat 4 ty, swz := BitVec.ofNat 4 (w / 2 ^ 32), st := .empty }
      exec (.ttreg a t) s = .next (done (entry (some y)) (·.aPop [a]))) ∧
    (∀ y, (s.core g.c).tiles.find e = some y → y.mark = false → y.st = .empty ∨ y.st = .ready →
      exec (.ttrel t) s = .next (done (entry none) id) ∧
      exec (.tready t) s = .next (done (entry (some { y with st := .ready })) id) ∧
      exec (.tempty t) s = .next (done (entry (some { y with st := .empty })) id)) ∧
    (∀ y, (s.core g.c).tiles.find e = some y → y.mark = false →
      (sc.toNat = (match y.st with | .empty => 0 | .filling => 1 | .ready => 2 | .draining => 3) →
        exec (.twait sc t) s = .next (done (entry (some y)) id)) ∧
      (th.aRoom d = .ok () → ∃ v : Word, exec (.ttstat d t) s = .next (s.accessed (th.aPut d v s.cur.e.seq)) ∧
        (y.base < 2 ^ 12 → y.size < 2 ^ 13 → fld v 11 0 = y.base ∧ fld v 24 12 = y.size ∧ fld v 31 28 = y.ty.toNat ∧
          fld v 35 32 = y.swz.toNat ∧ v.getLsbD 63 = true ∧
          fld v 37 36 = (match y.st with | .empty => 0 | .filling => 1 | .ready => 2 | .draining => 3)))) ∧
    ((s.core g.c).tiles.find e = none → th.aRoom d = .ok () →
      exec (.ttstat d t) s = .next (s.accessed (th.aPut d 0 s.cur.e.seq))) ∧
    (∀ y, (s.core g.c).tiles.find e = some y → y.mark = true →
      exec (.ttrel t) s = .next (s.consumed .a th 9 (dieOf g.c) (g.c % 32) (2048 + e) (wd (2048 + e))))

/-- The words on an object of the thread's own core: BINIT sets it up and takes it to the next phase, BREG registers the thread, BARV,
BARD and BEXP update it and give the phase toward which they count, and a phase that has completed ends the waits for it, as a poisoning does;
BWAIT goes on when the phase differs from its operand's and waits while it is the same, with its highest class, until an update has ended
its wait; BTEST gives word 0, and consumes the poison mark of an object that carries one. At scope 0 nothing is written back or invalidated
(08 R206 to R216, 04 R109, 19 R466, R467). The model's own choices and readings in it: log entries 26, 31 and 81. -/
def Obligations.BarrierWordsUpdateTheirObject : Prop :=
  ∀ (s : State) (th : Thread) (a b d : BitVec 5) (k : BitVec 10) (o : Nat × Nat), AtPlainAccess s th → o.1 = th.c →
    th.aReady s.now s.cur.e.seq [a, d] = .ok () → th.aReady s.now s.cur.e.seq [a] = .ok () → th.aReady s.now s.cur.e.seq [a, b] = .ok () →
    th.aRoom d = .ok () → s.quiet th 0 = .ok () → s.posted th 0 = false → th.issue.relAt = none →
    NamesObject s th (th.aVal a) k.toNat o →
    let bar := (s.core o.1).bar o.2
    let ph : Word := bar.phase.setWidth 64
    let arrives (x : Thread) : Thread := { x with arrived := x.arrived.set (1024 * o.1 + o.2) bar.phase.toNat }
    let gives (v : Word) (rs : List (BitVec 5)) (x : Thread) : Thread := (x.aPop rs).aPut d v s.cur.e.seq
    let small (n : Int) : Prop := -(2 ^ 63) ≤ bar.bytes + n ∧ bar.bytes + n < 2 ^ 63
    ((th.aVal d).toNat < 2 ^ 24 → ∃ t, exec (.binit d a k) s = .next t ∧ OneObject t (s.accessedBy th (·.aPop [a, d])) o
      { phase := bar.phase + 1, poison := false, reload := (th.aVal d).toNat, pend := (th.aVal d).toNat, bytes := 0, waiters := [] }) ∧
    (bar.mark = true → exec (.btest d a 0 k) s =
      .next (s.consumed .a th 0 (dieOf o.1) (o.1 % 32) (0x1FC000 + 16 * o.2) (wd (0x1FC000 + 16 * o.2)))) ∧
    (bar.mark = false →
      (∃ r : List Nat → List Nat, (∀ l n, n ∈ r l ↔ n = o.2 ∨ n ∈ l) ∧
        exec (.breg a k) s = .next (s.accessedBy th (fun x => { x.aPop [a] with regs := r x.regs }))) ∧
      (∃ t, exec (.barv d a 0 k) s = .next t ∧ OneObject t (s.accessedBy th (gives ph [a] ∘ arrives)) o (bar.updated 0 true false) ∧
        ∀ c n, ¬ (c = th.c ∧ n = th.t) → Waits s c n → (bar.waiters.find (8 * c + n)).isSome = true →
          ((bar.updated 0 true false).poison = true ∧ bar.poison = false → Woken t c n .poison) ∧
          ((bar.updated 0 true false).poison = bar.poison → (bar.updated 0 true false).phase ≠ bar.phase → Woken t c n .past)) ∧
      (∃ t, exec (.bard d a 0 k) s = .next t ∧ OneObject t (s.accessedBy th (gives ph [a] ∘ (·.unregister o) ∘ arrives)) o
        (bar.updated 0 true true)) ∧
      (k = 0 → let n := (th.aVal b).toInt
        small n →
        (∃ t, exec (.bexp d a b 0 1) s = .next t ∧ OneObject t (s.accessedBy th (gives ph [a, b] ∘ arrives)) o (bar.updated n true false)) ∧
        (∃ t, exec (.bexp d a b 0 0) s = .next t ∧ OneObject t (s.accessedBy th (gives ph [a, b])) o (bar.updated n false false))) ∧
      ((th.aVal d).toNat < 4096 → s.wokeOf th = none → bar.poison = false →
        (bar.phase.toNat ≠ (th.aVal d).toNat → exec (.bwait d a 0 k) s = .next (s.accessedBy th (·.aPop [a, d]))) ∧
        (bar.phase.toNat = (th.aVal d).toNat → ∃ t x, exec (.bwait d a 0 k) s = .next t ∧ t.thread? th.c th.t = some x ∧ x.aq = th.aq ∧
          x.f = th.f ∧ ((t.core o.1).bar o.2).waiters.find (8 * th.c + th.t) =
            some (max (s.eff th) (bar.waiters.get 0 (8 * th.c + th.t))))) ∧
      ((th.aVal d).toNat < 4096 → (s.wokeOf th = none ∧ bar.poison = true) ∨ s.wokeOf th = some .poison → th.settled s.cur.e.seq = true →
        exec (.bwait d a 0 k) s = .next (s.takeTrap th s.cur.e.seq s.cur.e.addr 0x0A (th.aVal a + k.setWidth 64) 1)) ∧
      (∀ sc, (th.aVal d).toNat < 4096 → s.wokeOf th = some .freed →
        exec (.bwait d a sc k) s = .next (s.accessedBy th (·.aPop [a, d]))) ∧
      (∀ sc : BitVec 3, (th.aVal d).toNat < 4096 → s.wokeOf th = some .past → exec (.bwait d a sc k) s =
        .next ((if sc = 0 then s else s.acquireAt th.c sc.toNat).accessedBy th (·.aPop [a, d]))) ∧
      (∃ v : Word, exec (.btest d a 0 k) s = .next (s.accessedBy th (gives v [a])) ∧
        (bar.reload < 2 ^ 24 → bar.pend < 2 ^ 24 → (∀ p ∈ bar.waiters, p.2 ≤ 3) → fld v 63 52 = bar.phase.toNat ∧
          fld v 23 0 = bar.pend ∧ fld v 47 24 = bar.reload ∧ v.getLsbD 48 = bar.poison ∧
          (∀ p ∈ bar.waiters, p.2 ≤ fld v 51 50))))

/-- A full/empty word whose tag stands loads or stores 8 bytes and leaves the tag that its kind leaves; another takes its place at the word's
end, and a tag that changes serves the first that waits for it. LDAQS and STRLS move a value without touching a tag; AMOS puts its result
in place of the old value and gives the old one. Acquires and releases wider than `.grp` invalidate and write back (08 R218 to R220, 09
R243, 11 R293). The model's own choices and readings in it: log entries 10 and 42. -/
def Obligations.SynchronisingScratchpadWords : Prop :=
  ∀ (s : State) (th : Thread) (g : Group) (x : Word), AtPlainAccess s th → g.c = th.c → (s.core th.c).sp.wf = true →
    s.posted th 5 = false → s.quiet th 5 = .ok () → th.issue.relAt = none → th.issue.far = none → s.wokeOf th = none →
    s.inTagq th th.c = false → s.spPoisoned th.c (g.place x) 8 = none →
    let k := s.core th.c
    let full := (g.place x / 8 * 8) ∈ k.tags
    let acquired (sc : BitVec 3) : State := if sc = 0 then s else s.acquireAt th.c sc.toNat
    let released (sc : BitVec 3) : State := s.releaseAt th.c sc.toNat (s.vcOf th)
    let clean (sc : BitVec 3) : Prop := sc ≠ 0 → (released sc).writingBack th.c = false
    let same (t u : State) (f : Thread → Thread) : Prop :=
      t.threads = (u.accessedBy th f).threads ∧ t.mem = u.mem ∧ t.storeQ = u.storeQ ∧ t.regs = u.regs ∧
      ∀ c, { t.core c with sp := (u.core c).sp, tags := (u.core c).tags, busy := (u.core c).busy, bmx := (u.core c).bmx } = u.core c
    let tagged (t : State) (b : Bool) : Prop :=
      ((g.place x / 8 * 8) ∈ (t.core th.c).tags ↔ b = true) ∧
      ∀ o, o ≠ g.place x / 8 * 8 → (o ∈ (t.core th.c).tags ↔ o ∈ k.tags)
    let loaded (n : Nat) (v : Word) : Prop := (∀ j, j < n → v.extractLsb' (8 * j) 8 = k.sp.get (g.place x + j)) ∧ v.toNat < 256 ^ n
    let put (t : State) (n : Nat) (v : Nat) : Prop :=
      (∀ o, o < g.place x ∨ g.place x + n ≤ o → (t.core th.c).sp.get o = k.sp.get o) ∧
      (∀ j, j < n → (t.core th.c).sp.get (g.place x + j) = BitVec.ofNat 8 (v / 256 ^ j))
    (∀ (i : Instr) (want : Option Bool) (leaves : Bool) (d a : BitVec 5) (sc : BitVec 3) (o : BitVec 10),
      InWindow s th g x 8 8 → tagOf i = some (want, leaves) → x = th.aVal a + 8 * o.signExtend 64 →
      th.aReady s.now s.cur.e.seq [a] = .ok () →
      ((∀ w, want = some w → (full ↔ w = true)) → (∀ q ∈ k.tagq, q.off ≠ g.place x / 8 * 8) →
       (i = .ldf d a sc o ∨ i = .ldfe d a sc o → th.aRoom d = .ok () →
         ∃ t v, exec i s = .next t ∧ loaded 8 v ∧ same t (acquired sc) (fun y => (y.aPop [a]).aPut d v s.cur.e.seq) ∧
           tagged t leaves ∧ (t.core th.c).sp = k.sp) ∧
       (i = .stef d a sc o ∨ i = .stf d a sc o → th.aReady s.now s.cur.e.seq [a, d] = .ok () → clean sc →
         ∃ t, exec i s = .next t ∧ same t (released sc) (·.aPop [a, d]) ∧ tagged t leaves ∧ put t 8 (th.aVal d).toNat) ∧
       (∀ f, i = .feset f a o → ∃ t, exec i s = .next t ∧ same t s (·.aPop [a]) ∧ tagged t leaves ∧ (t.core th.c).sp = k.sp)) ∧
      (∀ w, want = some w → ¬ (full ↔ w = true) → clean sc →
        (i = .stef d a sc o → th.aReady s.now s.cur.e.seq [a, d] = .ok ()) → (i ≠ .stef d a sc o → th.aRoom d = .ok ()) →
        ∃ t q, exec i s = .next t ∧ (t.core th.c).tagq = k.tagq ++ [q] ∧ q.off = g.place x / 8 * 8 ∧ q.c = th.c ∧ q.t = th.t ∧
          q.seq = s.cur.e.seq ∧ q.want = w ∧ q.leaves = leaves ∧ q.val = (if i = .stef d a sc o then some (th.aVal d) else none) ∧
          (t.core th.c).sp = k.sp ∧ (t.core th.c).tags = k.tags ∧ ∃ y, t.thread? th.c th.t = some y ∧ y.aq = th.aq ∧ y.f = th.f ∧
            y.q = th.q)) ∧
    (∀ q : TagWait, k.tagq = [q] → s.spPoisoned th.c q.off 8 = none → q.off % 8 = 0 →
      let t := s.tagTo th.c q.off q.want
      (t.core th.c).tagq = [] ∧ (q.off ∈ (t.core th.c).tags ↔ q.leaves = true) ∧
      (∀ v, q.val = some v → ∀ j, j < 8 → (t.core th.c).sp.get (q.off + j) = v.extractLsb' (8 * j) 8) ∧
      (q.val = none → (t.core th.c).sp = k.sp ∧ ((s.thread? q.c q.t).any (fun y => !y.aq.isEmpty && y.issue.woke.isNone) = true →
        Woken t q.c q.t (.served (some (wd (k.sp.getN q.off 8))))))) ∧
    (∀ (d a b : BitVec 5) (sc : BitVec 3) (w : BitVec 1), x = th.aVal a + th.aVal b →
      let n := if w = 0 then 4 else 8
      InWindow s th g x n n →
      (th.aReady s.now s.cur.e.seq [a, b] = .ok () → th.aRoom d = .ok () →
        ∃ t v, exec (.ldaqs d a b sc w) s = .next t ∧ loaded n v ∧
          same t (acquired sc) (fun y => (y.aPop [a, b]).aPut d v s.cur.e.seq) ∧ (t.core th.c).sp = k.sp ∧
          (t.core th.c).tags = k.tags) ∧
      (th.aReady s.now s.cur.e.seq [a, b, d] = .ok () → clean sc →
        ∃ t, exec (.strls d a b sc w) s = .next t ∧ same t (released sc) (·.aPop [a, b, d]) ∧ (t.core th.c).tags = k.tags ∧
          put t n (th.aVal d).toNat)) ∧
    (∀ (d a b : BitVec 5) (sc : BitVec 3) (p : BitVec 5), x = th.aVal a + th.aVal b →
      (Instr.amos d a b sc p).wellFormed = true → InWindow s th g x (codeBytes p.toNat) (codeBytes p.toNat) →
      let rs := if p = 0x18 ∨ p = 0x19 then [a, b, d, d + 1] else [a, b, d]
      th.aReady s.now s.cur.e.seq rs = .ok () → th.aRoom d = .ok () → clean sc →
      let old := k.sp.getN (g.place x) (codeBytes p.toNat)
      ∃ t v, exec (.amos d a b sc p) s = .next t ∧
        same t (if sc = 0 then s else (released sc).acquireAt th.c sc.toNat)
          (fun y => (y.aPop rs).aPut d (oldOf p.toNat old) s.cur.e.seq) ∧
        (t.core th.c).tags = k.tags ∧ put t (codeBytes p.toNat) v ∧
        (∀ w, atomicOf p.toNat old (th.aVal d).toNat (th.aVal (d + 1)).toNat = some w → v = w))

/-! ### Tensor memory -/

/-- Loads of elements in near memory: TLD gives the bytes at the element's address, with zeros or its sign above them; TLDV and TLDG
reserve an entry of a load queue with the bytes of each lane within the extent or not skipped, and zeros elsewhere; LDAQ at `.grp` reads
as the core sees, and wider as the home has it. TPF with promote asks for the fetch of a tile in the drawer, and without it changes no
register. Nothing moves: the L1 and the shared cache take the sectors (10 R270 to R273, 09 R236, R242, 11 R276, 12 R305). The model's own choices
and readings in it: log entries 11 to 13. -/
def Obligations.TensorLoadsBringTheirBytes : Prop :=
  ∀ (s : State) (th : Thread) (a d : BitVec 5) (kr sc j : BitVec 3) (k : Task) (tid : Nat) (ds : Desc),
    AtTensorWord s th [a] kr → Named s th (th.aVal a) k tid ds → Roomy s th.c →
    let bytes (m n : Nat) (f : Nat → Byte) : Prop := ∀ b, b < n → BitVec.ofNat 8 (m / 256 ^ b) = f b
    (∀ (x : BitVec 1) (n : BitVec 2) (pa : Nat), th.aRoom d = .ok () → Served s th pa →
      Near s k tid ds (th.coords kr.toNat) (2 ^ n.toNat) .load pa →
      ∃ t m, exec (.tld d a kr x n) s = .next t ∧ NothingMoves s t ∧ m < 256 ^ 2 ^ n.toNat ∧
        bytes m (2 ^ n.toNat) (fun b => s.seen th.c (pa + b)) ∧ t.agenda = s.agenda ∧
        LeavesThread t th ((th.aPop [a]).aPut d (if x = 0 then wd m else (BitVec.ofNat (8 * 2 ^ n.toNat) m).signExtend 64) s.cur.e.seq)) ∧
    (∀ (i : Instr) (pa : Nat → Nat), (i = .tldv d a kr ∧ tensorLanes th i ds ≠ []) ∨
        (i = .tldg d a kr j ∧ j.toNat < ds.rank ∧ headReady s.now th.q.vaq = true) →
      th.lqRoom d = .ok () →
      (∀ p ∈ tensorLanes th i ds, Near s k tid ds p.2 1 .load (pa p.1) ∧ Served s th (pa p.1)) →
      let n := elemWidth ds.ty / 8
      ∃ t v, exec i s = .next t ∧ NothingMoves s t ∧ t.agenda = s.agenda ++ [.loadDataArrive th.c th.t (lqPort d)] ∧
        (∀ p ∈ tensorLanes th i ds, ∀ b, b < n → vecByte v (p.1 * n + b) = s.seen th.c (pa p.1 + b)) ∧
        (∀ m b, (∀ p ∈ tensorLanes th i ds, p.1 ≠ m) → b < n → vecByte v (m * n + b) = 0) ∧
        LeavesThread t th ((if i = .tldv d a kr then th.aPop [a] else (th.aPop [a]).vaqPop).lqPush d v s.cur.e.seq)) ∧
    (∀ (w : BitVec 1) (pa : Nat), th.aRoom d = .ok () → Served s th pa → s.mem.wf = true →
      let n := if w = 0 then 4 else 8
      Near s k tid ds (th.coords kr.toNat) n .load pa →
      ∃ t m, exec (.ldaq d a kr sc w) s = .next t ∧ m < 256 ^ n ∧
        bytes m n (fun b => if sc = 0 then s.seen th.c (pa + b) else s.homeByte th.c (pa + b)) ∧
        (sc = 0 → NothingMoves s t) ∧ LeavesThread t th ((th.aPop [a]).aPut d (wd m) s.cur.e.seq)) ∧
    ((∃ t, exec (.tpf a kr 0) s = .next t ∧ NothingMoves s t ∧ t.agenda = s.agenda ∧ LeavesThread t th th) ∧
      ∀ h, ds.inside (th.coords kr.toNat) = true → k.leaseFails ds tid (ds.loc (th.coords kr.toNat)).1 .load = none →
        k.held? tid (ds.loc (th.coords kr.toNat)).1 = some h → resid? h.frame true = some .drawer →
        s.fetching k.svc tid (ds.loc (th.coords kr.toNat)).1 = false →
        exec (.tpf a kr 1) s = .next ((s.accessedBy th id).later [.tileFetch k.svc tid (ds.loc (th.coords kr.toNat)).1]))

/-- Stores of elements in near memory at `.grp` change what the core sees at their bytes and nowhere else, and no byte of memory; wider
stores, and every STRL, post their bytes to the homes, behind what the core has written of the sectors. TSTV pops `sq`, TSTG `vaq` and `sq`
(10 R270 to R272, 09 R236, R242). The model's own choices and readings in it: log entries 11 to 14. -/
def Obligations.TensorStoresPutTheirBytes : Prop :=
  ∀ (i : Instr) (s : State) (th : Thread) (a d : BitVec 5) (kr sc j : BitVec 3) (k : Task) (tid : Nat) (ds : Desc)
    (rs : List (BitVec 5)) (n : Nat) (v : Vec) (l : List (Nat × Nat)) (y : Thread),
    AtTensorWord s th rs kr → Named s th (th.aVal a) k tid ds → Roomy s th.c → (∀ p ∈ l, Served s th p.2) →
    (∀ w, i = .strl d a kr sc w → sc ≠ 0 → (s.releaseAt th.c sc.toNat (s.vcOf th)).writingBack th.c = false) →
    let lanes : Prop := l.map (·.1) = (tensorLanes th i ds).map (·.1) ∧
      ∀ m, m < l.length → Near s k tid ds ((tensorLanes th i ds).getD m (0, [])).2 1 .store (l.getD m (0, 0)).2
    let one : Prop := ∃ pa, l = [(0, pa)] ∧ Near s k tid ds (th.coords kr.toNat) n .store pa
    ((∃ e, i = .tst d a kr sc e ∧ n = 2 ^ e.toNat ∧ rs = [a, d] ∧ v = (th.aVal d).setWidth 2048 ∧ one ∧ y = th.aPop [a, d]) ∨
     (i = .tstv a kr sc ∧ n = elemWidth ds.ty / 8 ∧ rs = [a] ∧ headReady s.now th.q.sq = true ∧ v = headVal 0 th.q.sq ∧ lanes ∧
       l ≠ [] ∧ y = (th.aPop [a]).sqPop) ∨
     (i = .tstg a kr sc j ∧ n = elemWidth ds.ty / 8 ∧ rs = [a] ∧ headReady s.now th.q.sq = true ∧ headReady s.now th.q.vaq = true ∧
       j.toNat < ds.rank ∧ v = headVal 0 th.q.sq ∧ lanes ∧ y = (th.aPop [a]).vaqPop.sqPop) ∨
     (∃ w : BitVec 1, i = .strl d a kr sc w ∧ n = (if w = 0 then 4 else 8) ∧ rs = [a, d] ∧ v = (th.aVal d).setWidth 2048 ∧ one ∧
       y = th.aPop [a, d])) →
    ∃ t, exec i s = .next t ∧ LeavesThread t th y ∧ t.agenda = s.agenda ∧
      ((∀ w, i ≠ .strl d a kr sc w) → sc = 0 → t.mem = s.mem ∧ t.storeQ = s.storeQ ∧
        (∀ c q, (c ≠ th.c ∨ ∀ p ∈ l, q < p.2 ∨ p.2 + n ≤ q) → t.seen c q = s.seen c q) ∧
        LaneBytes l n v (fun q b => t.seen th.c q = b)) ∧
      (((∃ w, i = .strl d a kr sc w) ∨ sc ≠ 0) → ∃ qs, t.storeQ = s.storeQ ++ qs ∧ (∀ q ∈ qs, q.c = th.c ∧ (q.wb = true ∨ q.t = th.t)) ∧
        ((∀ w, i ≠ .strl d a kr sc w) → (∀ p ∈ l, OwnClean s th.c p.2) → t.mem = s.mem) ∧
        LaneBytes l n v (fun q b => ∃ r ∈ qs, r.wb = false ∧ r.pa = 32 * (q / 32) ∧ r.mask.getLsbD (q % 32) = true ∧
          r.data.extractLsb' (8 * (q % 32)) 8 = b))

/-- AMO and AMOC give the old value at the home and put the new one in its place; RED and REDV post their operand's bytes to the home with
the operation and return nothing. A release writes the core's dirty sectors back first, and after an acquire at a scope wider than `.grp`
every line that the core keeps was filled at that scope or wider, or is dirty (09 R238, 11 R284, R287, R290 to R292). The model's own
choices and readings in it: log entries 11 to 14. -/
def Obligations.AtomicsAndReductions : Prop :=
  ∀ (s : State) (th : Thread) (a d : BitVec 5) (r : BitVec 2) (kr sc : BitVec 3) (k : Task) (tid : Nat) (ds : Desc),
    Named s th (th.aVal a) k tid ds → s.mem.wf = true →
    let u : State := if r.getLsbD 1 = true then s.releaseAt th.c sc.toNat (s.vcOf th) else s
    Roomy u th.c → (r.getLsbD 1 = true → sc ≠ 0 → u.writingBack th.c = false) →
    (∀ (i : Instr) (p pa : Nat) (rs : List (BitVec 5)),
      (∃ q : BitVec 5, i = .amo d a r kr sc q ∧ p = q.toNat ∧ rs = [a, d]) ∨
        (∃ w : BitVec 1, i = .amoc d a r kr sc w ∧ p = (if w = 0 then 0x18 else 0x19) ∧ rs = [a, d, d + 1]) →
      i.wellFormed = true → AtTensorWord s th rs kr → th.aRoom d = .ok () →
      let n := codeBytes p
      Served s th pa → Near s k tid ds (th.coords kr.toNat) n .atomic pa →
      (∀ y, (u.core th.c).l1.find (pa / 32) = some y → y.side = none) →
      ∃ t old new, exec i s = .next t ∧ old < 256 ^ n ∧
        (∀ b, b < n → BitVec.ofNat 8 (old / 256 ^ b) = u.homeByte th.c (pa + b)) ∧
        (∀ w, atomicOf p old (th.aVal d).toNat (th.aVal (d + 1)).toNat = some w → new = w) ∧
        (∀ q, t.mem.get q = if pa ≤ q ∧ q < pa + n then BitVec.ofNat 8 (new / 256 ^ (q - pa))
          else if q / 32 = pa / 32 then u.homeByte th.c q else u.mem.get q) ∧
        (r.getLsbD 0 = true → sc ≠ 0 → ∀ q ∈ (t.core th.c).l1, sc.toNat ≤ q.2.fill ∨ q.2.dirty ≠ none) ∧
        LeavesThread t th ((th.aPop rs).aPut d (oldOf p old) s.cur.e.seq)) ∧
    (∀ (q : BitVec 5) (pa : Nat), (Instr.red d a r kr sc q).wellFormed = true → AtTensorWord s th [a, d] kr →
      let n := codeBytes q.toNat
      Served s th pa → Near s k tid ds (th.coords kr.toNat) n (.red q.toNat) pa →
      ∃ t h, exec (.red d a r kr sc q) s = .next t ∧ t.homeQ = s.homeQ ++ [h] ∧ h.pa = 32 * (pa / 32) ∧
        h.op = (opCode q.toNat).1 ∧ h.ty = (opCode q.toNat).2 ∧ h.c = th.c ∧ h.t = th.t ∧
        (∀ b, b < 32 → h.mask.getLsbD b = (decide (pa % 32 ≤ b) && decide (b < pa % 32 + n))) ∧
        (∀ b, b < n → h.data.extractLsb' (8 * (pa % 32 + b)) 8 = (th.aVal d).extractLsb' (8 * b) 8) ∧
        LeavesThread t th (th.aPop [a, d])) ∧
    (∀ (y : BitVec 1) (l : List (Nat × Nat)), let i : Instr := .redv a r kr sc y
      i.wellFormed = true → AtTensorWord s th [a] kr → headReady s.now th.q.sq = true → ds.ty = (if y = 0 then 6 else 8) →
      (ds.loc (th.coords kr.toNat)).2 % 32 = 0 → l ≠ [] → l.map (·.1) = (tensorLanes th i ds).map (·.1) →
      let n := if y = 0 then 4 else 2
      (∀ m, m < l.length → Served s th (l.getD m (0, 0)).2 ∧
        Near s k tid ds ((tensorLanes th i ds).getD m (0, [])).2 1 (.red (if y = 0 then 3 else 4)) (l.getD m (0, 0)).2) →
      ∃ t hs, exec i s = .next t ∧ t.homeQ = s.homeQ ++ hs ∧
        (∀ h ∈ hs, h.op = 1 ∧ h.ty = (if y = 0 then 4 else 5) ∧ h.c = th.c ∧ h.t = th.t) ∧
        LaneBytes l n (headVal 0 th.q.sq) (fun q b => ∃ h ∈ hs, h.pa = 32 * (q / 32) ∧ h.mask.getLsbD (q % 32) = true ∧
          h.data.extractLsb' (8 * (q % 32)) 8 = b) ∧
        LeavesThread t th (th.aPop [a]).sqPop)

/-- FENCE completes once the accesses that its release waits for have been performed: with release the core's dirty sectors narrower than
the scope are written back and the thread's later releases are no narrower, with acquire its clean lines filled narrower go. What a release
does to an L1, at slices that admit it, on an idle mesh, without marks and format ranges: no sector stays dirty below the scope, and what
the core sees is unchanged; what an acquire does: every line that is kept was filled at the scope or wider, or is dirty, and written bytes
are kept (09 R229, R231, R237, R238, R244). The model's own choices and readings in it: log entry 11. -/
def Obligations.FencesAndScopes : Prop :=
  ∀ (s : State) (th : Thread) (sc : BitVec 3) (k : BitVec 2) (c n : Nat) (v : Vc),
    (AtPlainAccess s th →
      let rel := k.getLsbD 1 = true
      let u := if rel then s.releaseAt th.c sc.toNat (s.vcOf th) else s
      (rel → s.quiet th sc.toNat = .ok () ∧ (sc ≠ 0 → u.writingBack th.c = false)) → (¬ rel → s.inOrder th = .ok ()) →
      exec (.fence sc k) s = .next ((if k.getLsbD 0 = true ∧ sc ≠ 0 then u.acquireAt th.c sc.toNat else u).accessedBy th (fun x =>
        if rel then { x with issue := { x.issue with relAt := some (max sc.toNat (x.issue.relAt.getD 0)) } } else x))) ∧
    (List.Pairwise (fun x y : Nat × L1Sect => x.1 < y.1) (s.core c).l1 → s.mem.wf = true → (∀ pa, s.sideAddr? pa = none) →
      (∀ d, (s.die d).allot.get 0 v.cls = 0 ∧ (s.die d).eccPend = false) → s.meshIdle (dieOf c) = true → (∀ x, s.marked x = false) →
      let t := s.releaseAt c n v
      (∀ p ∈ (t.core c).l1, ∀ m, p.2.dirty = some m → n ≤ m) ∧ (∀ x, x ≠ c → t.core x = s.core x) ∧
      (∀ pa, t.seen c pa = s.seen c pa) ∧
      (∀ sec x m, (s.core c).l1.find sec = some x → x.dirty = some m → m < n → ∀ b, b < 32 → x.wmask.getLsbD b = true →
        t.mem.get (32 * sec + b) = x.data.extractLsb' (8 * b) 8)) ∧
    (s.mem.wf = true → let t := s.acquireAt c n
     t.mem = s.mem ∧ (∀ x, x ≠ c → t.core x = s.core x) ∧
      (∀ p ∈ (t.core c).l1, n ≤ p.2.fill ∨ p.2.dirty ≠ none) ∧
      (∀ p ∈ (s.core c).l1, (n ≤ p.2.fill ∨ p.2.dirty ≠ none) → ∃ x, (p.1, x) ∈ (t.core c).l1 ∧ x.dirty = p.2.dirty ∧
        ∀ b, b < 32 → p.2.wmask.getLsbD b = true → x.data.extractLsb' (8 * b) 8 = p.2.data.extractLsb' (8 * b) 8))

/-! ### The copy channels and the fragments -/

/-- The front steers an M word to the queue of the strip that MSEL and the mode select, and a C word to its channel, with the values that
it captures; CNEST holds a nest that the next C word of its channel takes with it. Without a lease an M word, and a C word that needs one,
takes NOLEASE with the word; a nest before a word that takes none is ILLEGAL (02 R37 to R40, 13 R326, R332, 15 R371, R373, R388). -/
def Obligations.EngineWordsAreCapturedAndQueued : Prop :=
  ∀ (i : Instr) (s : State) (th : Thread), AtFront s th → s.cur.unit = none →
    (∀ (d a b : BitVec 5) (e : Bool), mWordOf i = some (d, a, b, e) →
      ((∀ g, s.groupOf? th = some g → g.mask = 0) → th.settled th.seq = true →
        exec i s = .next (s.takeTrap th th.seq s.cur.e.addr 0x12 s.cur.e.wordVal 0)) ∧
      (∀ g, s.groupOf? th = some g → g.mask ≠ 0 →
        let l := stripsIn g.mask
        let n := if th.lmode = 0 ∨ l.length ≤ 1 then l.getD th.msel (l.headD 0) else l.headD 0
        let srcs := (if e then [] else [d]) ++ [a, b]
        th.sReady s.now srcs = .ok () → EndClean th d e → (s.strip (dieOf th.c) n).q.length < 64 →
        exec i s = .next ((s.modStrip (dieOf th.c) n (fun x => { x with q := x.q ++ [{ s.cur.e with
          capD := captured th d e, capA := [th.sVal a], capB := th.sVal b, lease := g.lease }] })).past (th.sPop srcs) none))) ∧
    (∀ w : CWord, cWordOf i = some w →
      let lease := match s.groupOf? th with
        | some g => if g.mask = 0 then 0 else g.lease
        | none => 0
      let srcs := (if w.dEnd then [] else [w.d]) ++ (if w.aEnd then [] else [w.a]) ++ [w.b]
      let nest := th.nests.find w.ch.toNat
      (w.plain = true → nest ≠ none → th.settled th.seq = true →
        exec i s = .next (s.takeTrap th th.seq s.cur.e.addr 0x01 s.cur.e.wordVal 0)) ∧
      ((w.plain = true → nest = none) → w.leased = true → lease = 0 → th.settled th.seq = true →
        exec i s = .next (s.takeTrap th th.seq s.cur.e.addr 0x12 s.cur.e.wordVal 0)) ∧
      ((w.plain = true → nest = none) → (w.leased = true → lease ≠ 0) → th.sReady s.now srcs = .ok () →
        EndClean th w.d w.dEnd → EndClean th w.a w.aEnd →
        (s.chan th.c w.ch.toNat).q.length < 32 →
        let u := s.modChan th.c w.ch.toNat (fun x => { x with q := x.q ++ [{ s.cur.e with
          capD := captured th w.d w.dEnd, capA := captured th w.a w.aEnd, capB := th.sVal w.b, nest := nest, lease := lease }] })
        ∃ x, exec i s = .next (u.past x none) ∧ x.nests = (if nest = none then th.nests else th.nests.del w.ch.toNat) ∧
          x.f = th.f ∧ x.q = (th.sPop srcs).q ∧ x.loops = th.loops ∧ x.csr = th.csr)) ∧
    (∀ (d a b : BitVec 5) (c : BitVec 2), i = .cnest d a b c → th.sReady s.now [d, a, b] = .ok () →
      ∃ x, exec i s = .next (s.past x none) ∧ x.f = th.f ∧ x.q = (th.sPop [d, a, b]).q ∧
        x.nests = th.nests.set c.toNat { counts := th.sVal d, src := th.sVal a, dst := th.sVal b })

/-- MSEL selects a strip of the lease by its place in it, and takes BOUNDS beyond it; MCONF goes to the queue of every fragment of the
lease and names the mode of younger words at once; at the heads of all their queues, with every strip still, its copies leave together and
the lease has the mode (14 R360, 15 R371, R372, R389). -/
def Obligations.SelectionAndModeWords : Prop :=
  ∀ (s : State) (th : Thread) (g : Group) (k : BitVec 3) (m : BitVec 2) (die n : Nat) (x : Strip),
    (AtFront s th → s.cur.unit = none → s.groupOf? th = some g → g.mask ≠ 0 →
      let l := stripsIn g.mask
      (k.toNat < l.length → ∃ y, exec (.msel k) s = .next (s.past y none) ∧ y.msel = k.toNat ∧ y.f = th.f ∧ y.q = th.q) ∧
      (l.length ≤ k.toNat → th.settled th.seq = true →
        exec (.msel k) s = .next (s.takeTrap th th.seq s.cur.e.addr 0x11 (k.setWidth 64) 0)) ∧
      (let dest := if th.lmode = 0 ∨ l.length ≤ 1 then l else [l.headD 0]
       (∀ i ∈ dest, (s.strip (dieOf th.c) i).q.length < 64) →
       ∃ t y, exec (.mconf m) s = .next t ∧ t.thread? th.c th.t = some y ∧ y.lmode = m.toNat ∧ y.f = th.f ∧ y.seq = th.seq + 1 ∧
        ∀ i, t.strip (dieOf th.c) i = if i ∈ dest then { s.strip (dieOf th.c) i with
          q := (s.strip (dieOf th.c) i).q ++ [{ s.cur.e with lease := g.lease }] } else s.strip (dieOf th.c) i)) ∧
    (AtStripHead s die n x → x.recording = 0 → n ∈ s.drivers die n →
      (∀ i ∈ s.drivers die n, i ∈ s.leaseStrips die n ∧ (s.strip die i).fault = false ∧ (s.strip die i).leave = 0 ∧
        (s.strip die i).recording = 0 ∧ ∃ y q, (s.strip die i).q = y :: q ∧ y.ins = s.cur.e.ins ∧ y.seq = s.cur.e.seq ∧
          y.c = s.cur.e.c ∧ y.t = s.cur.e.t ∧
          y.task = s.cur.e.task ∧ ((s.strip die i).last = 0 ∨ (s.strip die i).last + y.pace.toNat ≤ s.now + 1)) →
      (∀ i ∈ s.leaseStrips die n, (s.strip die i).still = true) →
      ∃ t, exec (.mconf m) s = .next t ∧ (∀ i ∈ s.leaseStrips die n, (t.strip die i).mode = m.toNat) ∧
        (∀ i ∈ s.drivers die n, (t.strip die i).q = (s.strip die i).q.tail) ∧
        (∀ i, i ∉ s.leaseStrips die n → t.strip die i = s.strip die i))

/-- The words at the head of a queue: MNEST sets a level of the shadow table and faults on reserved bits; MBODY empties the body and
records the words after it, each in its order; MCLM claims free slots and MREL frees slots; MMQCLR ends a fault with the shadow, the body
and the metadata; MGO, once its leave is granted, makes shadow and body active and starts at the first iteration (15 R381 to R384, R390,
R391, R400). MGO whose leave has been granted starts the nest: the active table and body are the shadow's, every index is 0, the first
word is next, and the strip rotates its origin; the word leaves the queue. NEST_COMPLETE ends a finished nest that drains nothing more,
and its completion object receives one arrival (15 R383, R385, 18 R450). The model's own choices and readings in it: log entries 33, 34,
47 and 51. -/
def Obligations.MatrixQueueAndNests : Prop :=
  (∀ (s : State) (die n : Nat) (x : Strip), AtStripHead s die n x →
      (∀ (a b : BitVec 5) (l : BitVec 3), x.recording = 0 →
        let v := s.cur.e.capA.getD 0 0
        (v.toNat < 2 ^ 26 → exec (.mnest a b l) s =
          .next ((s.modStrip die n (fun y => { y with shadow := y.shadow.set l.toNat { a := v, b := s.cur.e.capB } })).leftStrip die n)) ∧
        (2 ^ 26 ≤ v.toNat → ∃ t, exec (.mnest a b l) s = .next t ∧ (t.strip die n).fault = true ∧ (t.strip die n).q = x.q.tail)) ∧
      (∀ k : BitVec 4, x.recording = 0 → exec (.mbody k) s =
        .next ((s.modStrip die n (fun y => { y with body := [], recording := k.toNat + 1 })).leftStrip die n)) ∧
      (∀ (i : Instr) (g : BitVec 2), bodyWordOf i = some g →
        (∀ k, x.recording = k + 1 → exec i s =
          .next ((s.modStrip die n (fun y => { y with body := y.body ++ [s.cur.e], recording := y.recording - 1 })).leftStrip die n)) ∧
        (x.recording = 0 → ∃ t, exec i s = .next t ∧ (t.strip die n).fault = true ∧ (t.strip die n).q = x.q.tail)) ∧
      (x.recording = 0 → x.still = true → ∃ t, exec .mmqclr s = .next t ∧ (t.strip die n).fault = false ∧ (t.strip die n).shadow = [] ∧
        (t.strip die n).body = [] ∧ (t.strip die n).mq = [] ∧ (t.strip die n).q = x.q.tail ∧ (t.strip die n).slots = x.slots ∧
        (t.strip die n).acc = x.acc) ∧
      (∀ (c : BitVec 4) (k : BitVec 3) (sl : BitVec 4), x.recording = 0 → x.still = true →
        (s.leaseStrips die n)[k.toNat]? = some n → sl.toNat + c.toNat < 16 →
        let named (i : Nat) : Prop := sl.toNat ≤ i ∧ i ≤ sl.toNat + c.toNat
        ((∀ i, named i → (x.slots.get Slot.init i).st = none) → ∃ t, exec (.mclm c k sl) s = .next t ∧ (t.strip die n).q = x.q.tail ∧
          ∀ i, (t.strip die n).slots.get Slot.init i =
            if sl.toNat ≤ i ∧ i ≤ sl.toNat + c.toNat then { Slot.init with st := some .empty } else x.slots.get Slot.init i) ∧
        ((∃ i, named i ∧ (x.slots.get Slot.init i).st ≠ none) → ∃ t, exec (.mclm c k sl) s = .next t ∧
          (t.strip die n).fault = true ∧ (t.strip die n).slots = x.slots) ∧
        ((∀ i, named i → (x.slots.get Slot.init i).st ≠ some .filling ∧ (x.slots.get Slot.init i).st ≠ some .draining) →
          ∃ t, exec (.mrel c k sl) s = .next t ∧ (t.strip die n).q = x.q.tail ∧
          ∀ i, (t.strip die n).slots.find i = if sl.toNat ≤ i ∧ i ≤ sl.toNat + c.toNat then none else x.slots.find i)) ∧
      (∀ (a b : BitVec 5) (lv : Nat) (o : Option (Nat × Nat)), x.recording = 0 → x.still = true →
        s.goChk x s.cur.e = .ok (lv, o) → ∃ t, exec (.mgo a b) s = .next t ∧ (t.strip die n).q = x.q ∧ (t.strip die n).leave = s.nextLeave ∧
          (t.strip die n).run = none ∧ t.nextLeave = s.nextLeave + 1)) ∧
  (∀ (s : State) (die n : Nat) (x : Strip),
      (∀ (a b : BitVec 5) (lv : Nat) (o : Option (Nat × Nat)), AtStrip s die n false x → s.atHorizonOf s.cur.e = true →
        (x.last = 0 ∨ x.last + s.cur.e.pace.toNat ≤ s.now + 1) → x.recording = 0 → x.still = true → x.leave ≠ 0 → x.granted = true →
        s.goChk x s.cur.e = .ok (lv, o) → ∃ t, exec (.mgo a b) s = .next t ∧
          t.strip die n = { x with
            q := x.q.tail, last := s.now + 1, leave := 0, granted := false, active := x.shadow, abody := x.body
            origin := (x.origin + 1) % (8 * (s.fragOf die n).length), compl := o
            run := some { levels := lv, idx := List.replicate lv 0, word := 0, finished := false, obj := o, leaveId := x.leave, e := s.cur.e } }) ∧
      (∀ r, Now s (.nestComplete die n) → s.strip die n = x → x.run = some r → r.finished = true → x.drain = none → x.amax = none →
        (∀ th, s.thread? r.e.c r.e.t = some th → th.csr.trc = 0) →
        ∃ t, exec .nestComplete s = .next t ∧ t.strip die n = { x with run := none } ∧
          (∀ o, r.obj = some o → (t.core o.1).bar o.2 = ((s.core o.1).bar o.2).updated 0 true false) ∧
          (r.obj = none → t.cores = s.cores)))

/-- The body words that load weights and pass operands, in a running nest: one whose guard fails is passed over; MLDB copies a ready slot
to the back buffer, which the next pass swaps to the front; MMMA, and MMMS with a metadata entry that it pops, add the products of the
slot's lines and the weights' columns to a half of every strip of the fragment; MMMC passes on the lowest strip of a chain; MZACC zeroes a
half or both (15 R374 to R380, R383, R392 to R395). The model's own choices and readings in it: log entry 51. -/
def Obligations.WeightsAndPasses : Prop :=
  ∀ (s : State) (die n : Nat) (x : Strip) (r : NestRun),
    (∀ (i : Instr) (g : BitVec 2), bodyWordOf i = some g → AtStrip s die n true x → x.run = some r → r.finished = false → x.drain = none →
      ((g = 1 ∧ x.firstOfRed r = false) ∨ (g = 2 ∧ x.lastOfRed r = false) ∨ g = 3) → exec i s = .next (s.nestNext die n)) ∧
    (∀ (d : BitVec 5) (g : BitVec 2) (y : BitVec 1) (t : BitVec 4) (i : Nat) (sl : Slot), InNest s die n x r g →
      NamesSlot s die n x r (s.cur.e.capD.getD 0 0) 20 i → SlotReady x i t sl →
      exec (.mldb d g y 0 t) s = .next (((s.modStrip die n (fun z => { z with pending := true, back :=
        { ty := some t, pair := false, lo := sl.data, loSb := sl.sb, hi := [], hiSb := [] } })).slotRead die n i y).nestNext die n)) ∧
    (∀ (d : BitVec 5) (g : BitVec 2) (y h : BitVec 1) (t : BitVec 4) (i : Nat) (sl : Slot), InNest s die n x r g →
      NamesSlot s die n x r (s.cur.e.capD.getD 0 0) 16 i → SlotReady x i t sl →
      let half := halfIn x r h
      let fr := s.fragOf die n
      let u := s.modFrag die fr Strip.swap
      let fits (b : Bool) (l : List Nat) : Prop :=
        ∀ j ∈ l, (s.strip die j).swap.admitsPass t.toNat half b = true ∧ ((s.strip die j).acc.get Acc.init half).marks = []
      let after (z : State) (l : List Nat) (ix : List (Nat × Nat)) : State :=
        (z.modFrag die l (fun z => z.passed t.toNat half ix (slotLine t.toNat sl.data sl.sb))).slotRead die n i y
      let dense := (List.range (lineLen t.toNat)).map (fun i => (i, i))
      n ∈ fr →
      (s.chained die n = false → fits false fr → exec (.mmma d g y h t) s = .next ((after u fr dense).nestNext die n)) ∧
      (s.chained die n = false → fits true fr → ∀ e q ix, x.mq = e :: q → keptPairs e (lineLen t.toNat / 2) = some ix →
        exec (.mmms d g y h t) s = .next ((after (u.modStrip die n (fun z => { z with mq := q })) fr ix).nestNext die n)) ∧
      (s.chained die n = true → fits false [n] → ∀ a : BitVec 5, (s.cur.e.capA.getD 0 0).toNat < 4 → x.lastOfRed r = false →
        exec (.mmmc d a g y h t) s = .next ((after (s.modStrip die n Strip.swap) [n] dense).nestNext die n))) ∧
    (∀ (g : BitVec 2) (b h : BitVec 1), InNest s die n x r g → ∃ t, exec (.mzacc g b h) s = .next t ∧
      ∀ j ∈ s.fragOf die n, ∀ k, k < 2 →
        (t.strip die j).acc.get Acc.init k = if b = 1 ∨ k = halfIn x r h then Acc.init else (s.strip die j).acc.get Acc.init k)

/-- A pass in arithmetic: each of the 256 × 256 elements of the half receives its old value, zero in a half that nothing has written,
combined with the products of a line and a column, and the other half does not change; for the integer types it is the sum, wrapped to 32
bits (15 R379, R393, 03 R82). -/
def Obligations.PassesMultiplyAndAdd : Prop :=
  (∀ (y : Strip) (t h : Nat) (ix : List (Nat × Nat)) (line : Nat → List FV) (row col : Nat), row < 256 → col < 256 →
    ((y.passed t h ix line).half h).at row col = passElem t ((y.half h).at row col)
      (ix.map (fun p => ((line row).getD p.1 (.fin false 0 0), (y.front.column y.wty col).getD p.2 (.fin false 0 0)))) ∧
    (∀ k, k ≠ h → (y.passed t h ix line).half k = y.half k) ∧ (y.passed t h ix line).slots = y.slots) ∧
  (∀ (t u : Nat) (acc : BitVec 32) (l : List (Nat × Nat)), (t = 0 ∨ t = 3) → (u = 0 ∨ u = 3) → (∀ p ∈ l, p.1 < 256 ∧ p.2 < 256) →
    passElem t acc (l.map (fun p => (laneFV t p.1, laneFV u p.2))) =
      acc + BitVec.ofInt 32 ((l.map (fun p => laneZ (BitVec.ofNat 4 t) p.1 * laneZ (BitVec.ofNat 4 u) p.2)).foldl (· + ·) 0))

/-- The words that drain: MDRN with its operands checked and its tiles empty starts a drain of the half, in which the nest waits, and its
last sector done, the half is drained and the nest goes on; MDRC stores the half of its strip as an operand in an empty slot, which
becomes ready with its type; MAMAX without an enabled reference only goes on, and with one owes its reduction (15 R396 to R399). The
model's own choices and readings in it: log entries 48 and 52. -/
def Obligations.DrainsMoveAccumulators : Prop :=
  ∀ (s : State) (die n : Nat) (x : Strip) (r : NestRun) (d a b : BitVec 5) (g : BitVec 2) (h sat : BitVec 1) (t : BitVec 4),
    (InNest s die n x r g → ∀ m, s.drainChk x r t.toNat = .ok m → s.tilesIn m.x.entries .empty = true → s.entriesClean m.x = .ok () →
      (∀ j ∈ s.fragOf die n, ((s.strip die j).acc.get Acc.init (halfIn x r h)).marks = []) → m.k.guarded = false →
      ∃ u z, exec (.mdrn d a b g h sat t) s = .next u ∧ (u.strip die n).drain = some z ∧ z.half = halfIn x r h ∧
        (u.strip die n).run = some r ∧ (u.strip die n).acc = x.acc ∧ u.mem = s.mem) ∧
    (∀ z, AtStrip s die n true x → x.run = some r → r.finished = false → x.drain = some z → z.left = [] → z.sent = false → z.fault = none →
      z.red = none → x.amax = none → z.flips = [] → n ∈ s.fragOf die n →
      ∃ u, exec (.mdrn d a b g h sat t) s = .next u ∧ (u.strip die n).drain = none ∧ (u.strip die n).run = some (r.next x) ∧
        ((u.strip die n).acc.get Acc.init z.half).undrained = false ∧
        (u.strip die n).acc.get Acc.init z.half = { (x.acc.get Acc.init z.half) with undrained := false }) ∧
    (InNest s die n x r g → ∀ i, NamesSlot s die n x r (s.cur.e.capD.getD 0 0) 16 i → s.cur.e.capB = 0 →
      (x.slots.get Slot.init i).st = some .empty → (x.acc.get Acc.init (halfIn x r h)).marks = [] →
      (s.groupOn? s.cur.e.task s.cur.e.c).isSome = true →
      ∃ u, exec (.mdrc d b g h sat t) s = .next u ∧ (u.strip die n).run = some (r.next x) ∧
        ((u.strip die n).slots.get Slot.init i).st = some .ready ∧ ((u.strip die n).slots.get Slot.init i).ty = t ∧
        (t = 0 ∨ t = 3 ∨ t = 9 ∨ t = 10 → ∀ row col, row < 256 → col < 256 →
          ((u.strip die n).slots.get Slot.init i).data.get (512 * row + col) = BitVec.ofNat 8
            (drainVal (x.acc.get Acc.init (halfIn x r h)).tag t.toNat (sat = 1) ((x.acc.get Acc.init (halfIn x r h)).at row col))) ∧
        (∀ j, j ≠ i → (u.strip die n).slots.get Slot.init j = x.slots.get Slot.init j) ∧ u.mem = s.mem) ∧
    (InNest s die n x r g → ∀ k, s.task? s.cur.e.task = some k →
      (s.amaxRef k (s.cur.e.capA.getD 0 0) = .ok none → exec (.mamax a g h) s = .next (s.nestNext die n)) ∧
      (∀ y, s.amaxRef k (s.cur.e.capA.getD 0 0) = .ok (some y) →
        (∀ j ∈ s.fragOf die n, ((s.strip die j).acc.get Acc.init (halfIn x r h)).marks = []) →
        ∃ u z, exec (.mamax a g h) s = .next u ∧ (u.strip die n).drain = some z ∧ z.red = some 0x0D ∧ (u.strip die n).run = some r))

/-! ### The device's own steps -/

/-- A command starts with its checked plan, or with its fault; a unit lands its bytes and counts at its object; a command ends with its
tiles flipped, or, after a fault, with its objects poisoned and `cerr` written; the answers of peers let a waiting unit land, or stop it
(13 R327, R328, R334 to R336, 20 R491, R492, R494). The model's own choices and readings in it: log entries 15, 43, 44, 45 and 46. -/
def Obligations.CommandsRunOnTheirChannels : Prop :=
  ∀ (s : State) (c ch : Nat) (r : Run),
    (∀ (e : QEntry) (q : List QEntry) (k : Task) (g : Group) (f : CForm), AtChannel s c ch e q k g f →
      (∀ cause, s.command k g e f = .error cause →
        ∃ x, exec .copyCommandStart s = .next (s.modChan c ch (fun y => { y with
          q := q, run := some x, last := s.now + 1, leave := 0, granted := false })) ∧ x.left = [] ∧ x.fault = some cause ∧ x.e = e) ∧
      (∀ m, s.command k g e f = .ok m → m.coll = none → m.slot = none → m.index = [] →
        leaveOf k m = none → k.guarded = false → m.op ≠ .rem → m.op ≠ .mc → (∀ a, m.src = some a → s.tilesIn a.1.entries .ready = true) →
        s.tilesIn (m.dsts.flatMap (fun d => d.1.entries)) .empty = true → (∀ c x, x ∈ (s.core c).tiles → x.2.mark = false) →
        ∃ t x, exec .copyCommandStart s = .next t ∧ (t.chan c ch).run = some x ∧ (t.chan c ch).q = q ∧ x.e = e ∧
          (x.left, x.fault) = upTo (s.plan k m false) ∧ t.mem = s.mem ∧
          (∀ d ∈ m.dsts, ∀ p ∈ d.1.entries, ∃ y, (t.core p.1).tiles.find p.2 = some y ∧ y.st = .filling) ∧
          (∀ a, m.src = some a → ∀ p ∈ a.1.entries, ∃ y, (t.core p.1).tiles.find p.2 = some y ∧ y.st = .draining))) ∧
    (∀ (d off n : Nat) (f : Nat → Nat × Nat) (o : Option (Nat × Nat)) (l : List Sector), Now s (.sectorLands c ch) →
      (s.chan c ch).run = some r → r.left = byteUnit d off f n o :: l → l ≠ [] → r.sent = false → r.conv = 0 → r.sBits = 8 → r.dBits = 8 →
      (s.core d).sp.wf = true → (∀ j, j < 32 → s.spPoisoned (f j).1 (f j).2 1 = none) →
      (∀ b, o = some b → -(2 ^ 63) ≤ ((s.core b.1).bar b.2).bytes - n ∧ ((s.core b.1).bar b.2).bytes - n < 2 ^ 63) →
      ∃ t x, exec .sectorLands s = .next t ∧ (t.chan c ch).run = some x ∧ x.left = l ∧ x.done = r.done + n / 32 ∧ x.fault = r.fault ∧
        PutBytes (s.core d).sp (t.core d).sp off 32 (fun j => (s.core (f j).1).sp.get (f j).2) ∧
        (∀ i, i ≠ d → (t.core i).sp = (s.core i).sp) ∧ t.mem = s.mem ∧
        (∀ b, o = some b → (t.core b.1).bar b.2 = ((s.core b.1).bar b.2).updated (-(n : Int)) false false)) ∧
    (Now s (.copyCommandComplete c ch) → (s.chan c ch).run = some r → r.left = [] → r.sent = false → Untraced s r.e →
      ∃ t, exec .copyCommandComplete s = .next t ∧ (t.chan c ch).run = none ∧ t.mem = s.mem ∧
        (∀ i e a b x, r.flips = [(i, e, a, b)] → (s.core i).tiles.find e = some x → (∀ g ∈ s.groups, g.ended = false) →
          (t.core i).tiles.find e = some { x with st := if r.fault = none then a else b }) ∧
        (r.fault = none → t.threads = s.threads) ∧
        (∀ cause, r.fault = some cause → (∀ o ∈ r.objs, ((t.core o.1).bar o.2).poison = true) ∧
          ∀ th, s.thread? r.e.c r.e.t = some th → r.e.task = th.task → ∃ x, t.thread? r.e.c r.e.t = some x ∧ x.csr.cerr =
            wd (min r.done (2 ^ 32 - 1) * 2 ^ 32 + r.e.seq % 2 ^ 16 * 2 ^ 16 + 2 ^ 15 + r.e.ins.encodeWord.toNat / 2 ^ 23 % 64 * 2 ^ 9 +
              ch * 2 ^ 7 + cause.toNat) ∧ x.f = th.f ∧ x.q = th.q)) ∧
    (∀ ok x l, Now s (.cremAck c ch ok) → s.portOpen = true → (s.chan c ch).run = some r → r.left = x :: l → l ≠ [] →
      s.fab.any (fun f => f.who == .chan c ch && f.kind == 4) = true →
      ∃ t y, exec .cremAck s = .next t ∧ (t.chan c ch).run = some y ∧ y.sent = false ∧ (∀ f ∈ t.fab, f.who ≠ .chan c ch) ∧
        (ok = true → y.left = l ∧ y.fault = r.fault) ∧ (ok = false → y.left = [] ∧ y.fault = some 0x11)) ∧
    (Now s (.holdNotice c ch) → s.portOpen = true → exec .holdNotice s =
      .next { s with fab := s.fab.map (fun f => if f.who = .chan c ch then { f with since := s.now } else f) }) ∧
    (∀ vals, Now s (.collectiveResult c ch vals) → s.portOpen = true → (s.chan c ch).run = some r →
      s.fab.any (fun f => f.who == .chan c ch && f.kind == 5) = true →
      ∃ t y, exec .collectiveResult s = .next t ∧ (t.chan c ch).run = some y ∧ y.sent = false ∧ t.mem = s.mem ∧
        (∀ f ∈ t.fab, f.who ≠ .chan c ch) ∧ (vals = none → y.left = [] ∧ y.fault = some 0x11) ∧
        (∀ l, vals = some l → y.left = r.back.map (·.filled r.sBits l) ∧ y.fault = r.fault ∧ y.flips = r.flips))

/-- What reaches a thread: data fill the oldest entry still awaited; a trap of the front is taken once older words have settled; a wait
that has reached its limit takes TIMEOUT or LINKSTALL with its value, at the access word or at the front; SLEEP ends; a registrant learns
a class. The value of a fault of an extent or descriptor at a word behind its L word is that word's own address (02 R49, 04 R101, R105,
R109, R120, 05 R124, 08 R222, 12 R309, R322, 16 R407). -/
def Obligations.WaitsOfThreadsEnd : Prop :=
  ∀ (s : State) (c n : Nat) (th : Thread), s.thread? c n = some th →
    (∀ pre e post, (∀ x ∈ pre, x.full = true) → e.full = false →
      (Now s (.loadDataArrive c n .lq0) → th.q.lq0 = pre ++ e :: post → ∃ t, exec .loadDataArrive s = .next t ∧
        OneThread s t c n { th with q := { th.q with lq0 := pre ++ { e with full := true } :: post } }) ∧
      (Now s (.loadDataArrive c n .lq1) → th.q.lq1 = pre ++ e :: post → ∃ t, exec .loadDataArrive s = .next t ∧
        OneThread s t c n { th with q := { th.q with lq1 := pre ++ { e with full := true } :: post } })) ∧
    (∀ cause v, Now s (.takeTrap c n cause v) → th.settled th.seq = true →
      exec .takeTrap s = .next (s.takeTrap th th.seq (if cause = 0x11 ∧ th.lpre.isSome = true then th.pc + 4 else th.pc) cause v 0)) ∧
    (let ends (i : Instr) (why : Word → WaitWhy) (cause : BitVec 6) : Prop :=
       (∀ e q v, th.aq = e :: q → Overdue s th.issue.waitA (why v) → th.issue.woke = none → th.settled e.seq = true →
         exec i s = .next (s.takeTrap th e.seq e.addr cause v 1)) ∧
       (∀ v, th.aq = [] → Overdue s th.issue.waitF (why v) → th.issue.got = none → th.settled th.seq = true →
         exec i s = .next (s.takeTrap th th.seq th.pc cause v 0))
     (Now s (.waitTimeout c n) → ends .waitTimeout .block 0x0B) ∧
     (Now s (.escrowWaitTimeout c n) → ends .escrowWaitTimeout .escrow 0x0B) ∧
     (Now s (.linkstall c n) → ends .linkstall .link 0x0C)) ∧
    (∀ v, Now s (.vStallTimeout c n) → Overdue s th.issue.waitV (.vstall v) → th.settled th.seq = true →
      exec .vStallTimeout s = .next (s.takeTrap th th.seq th.pc 0x0B v 0)) ∧
    (∀ m, Now s (.sleepExpiry c n) → th.issue.sleepEnd = some m → m ≤ s.now → ∃ t, exec .sleepExpiry s = .next t ∧
      OneThread s t c n { th with issue := { th.issue with sleepEnd := none } }) ∧
    (∀ o cls, Now s (.inheritMessage c n o cls) → o ∈ th.remote → ∃ t x, exec .inheritMessage s = .next t ∧ OneThread s t c n x ∧
      x = { th with inh := x.inh } ∧ x.inh.find o = (if cls = 0 then none else some cls) ∧ ∀ i, i ≠ o → x.inh.find i = th.inh.find i)

/-- The debug interface stops a thread at its front position, releases it, and sets and clears `trc.dbg`; a mismatch of a checker at a word
not yet matched, or of a residue at a result still to land, is counted and its task discarded, and that result does not land; a request that
has waited 1,024 cycles goes first; what another core sends is performed; `ntf` names one notification thread of a service; `rxw` binds a
free entry of the service; `bmx.clr` clears a core's counters (07 R203, 11 R297, 18 R456, 19 R464, R465, R470, R472, 20 R490, 21 R503, R505,
22 R516). The model's own choices and readings in it: log entries 13 and 35. -/
def Obligations.ThreadsAreReachedFromOutside : Prop :=
  ∀ (s : State) (c n : Nat) (th : Thread), s.thread? c n = some th →
    (Now s (.dbgStop c n) → (th.issue.stopped = true → exec .dbgStop s = .next s) ∧
      (th.issue.stopped = false → th.loops = [] → th.xq = [] → th.aq = [] → th.issue.woke = none → th.csr.trc.getLsbD 0 = false →
        (∀ g ∈ s.fab, g.who ≠ .thread th.c th.t) → ∃ t x, exec .dbgStop s = .next t ∧ t.thread? c n = some x ∧
          x.issue.stopped = true ∧ x.issue.stopReq = 0 ∧
          x = { th with lpre := none, issue := x.issue } ∧ t.mem = s.mem)) ∧
    (Now s (.dbgRelease c n) → ∃ t, exec .dbgRelease s = .next t ∧
      OneThread s t c n { th with issue := { th.issue with stopped := false } }) ∧
    (Now s (.dbgSetTrcDbg c n) → ∃ t x, exec .dbgSetTrcDbg s = .next t ∧ OneThread s t c n x ∧
      x = { th with csr := { th.csr with trc := x.csr.trc } } ∧ ∀ i, x.csr.trc.getLsbD i = (th.csr.trc.getLsbD i || i == 6)) ∧
    (Now s (.dbgClearTrcDbg c n) → ∃ t x, exec .dbgClearTrcDbg s = .next t ∧ OneThread s t c n x ∧
      x = { th with csr := { th.csr with trc := x.csr.trc } } ∧ ∀ i, x.csr.trc.getLsbD i = (th.csr.trc.getLsbD i && i != 6)) ∧
    (∀ k q w, s.task? th.task = some k → k.doom = 0 →
      let ends (t : State) (cls : Nat) : Prop := Counted s t cls ∧ (∃ x, t.task? th.task = some x ∧ x.doom = 2) ∧
        .taskDiscard th.task ∈ t.agenda ∧ ∀ c' n', ¬ (c' = c ∧ n' = n) → t.thread? c' n' = s.thread? c' n'
      let lost (b : Bool) (at_ seq : Nat) : Bool := if seq = q ∧ s.now < at_ then false else b
      (s.wordOf th q = some w → Now s (.checkerMismatch c n q) → ∃ t, exec .checkerMismatch s = .next t ∧ ends t 3 ∧
        t.thread? c n = some th) ∧
      (th.resultOf q s.now = some w → Now s (.residueMismatch c n q) → ∃ t, exec .residueMismatch s = .next t ∧ ends t 4 ∧
        t.thread? c n = some { th with land := th.land.filter (fun l => l.seq ≠ q), q := { th.q with
          sq := th.q.sq.map (fun e => { e with full := lost e.full e.fillAt e.seq })
          vaq := th.q.vaq.map (fun e => { e with full := lost e.full e.fillAt e.seq })
          vsq := th.q.vsq.map (fun e => { e with full := lost e.full e.fillAt e.seq }) } })) ∧
    (∀ die i, Now s (.urgentPromotion die i) →
      let late (m c since : Nat) : Bool := m == i && dieOf c == die && decide (since + 1024 ≤ s.now)
      ∃ t, exec .urgentPromotion s = .next t ∧
        t = { s with mesh := t.mesh, storeQ := t.storeQ, homeQ := t.homeQ, waits := t.waits } ∧
        (∀ j : Nat, t.waits[j]? = (s.waits[j]?).map (fun (m : WaitReq) => { m with fast := m.fast || late m.n m.c m.since })) ∧
        (∀ j : Nat, t.mesh[j]? = (s.mesh[j]?).map (fun (m : Msg) => { m with fast := m.fast || late m.n m.c m.since })) ∧
        (∀ j : Nat, t.storeQ[j]? = (s.storeQ[j]?).map (fun (m : StoreReq) => { m with fast := m.fast || late m.n m.c m.since })) ∧
        (∀ j : Nat, t.homeQ[j]? = (s.homeQ[j]?).map (fun (m : HomeReq) => { m with fast := m.fast || late m.n m.c m.since }))) ∧
    (∀ m i, s.mesh[i]? = some m → Now s (.remoteRequestArrive i) →
      (∀ d off k v, m.what = .store d off k v → (s.core d).sp.wf = true → ∃ t, exec .remoteRequestArrive s = .next t ∧
        t.mesh = s.mesh.eraseIdx i ∧ PutBytes (s.core d).sp (t.core d).sp off k (fun j => BitVec.ofNat 8 (v / 256 ^ j)) ∧
        (∀ x, x ≠ d → t.core x = s.core x) ∧ { t.core d with sp := (s.core d).sp, busy := (s.core d).busy, bmx := (s.core d).bmx } = s.core d ∧
        t.threads = s.threads ∧ t.mem = s.mem) ∧
      (∀ e q, m.what = .yword e.seq → m.c = c → m.t = n → th.aq = e :: q → th.issue.far = some (e.seq, false) → crosses e.ins = true →
        exec .remoteRequestArrive s = exec e.ins
          { ({ s.meshGrant m.req with mesh := s.mesh.eraseIdx i }.setThread { th with issue := { th.issue with far := some (e.seq, true) } }) with
            cur := { c := c, t := n, front := false, e := e, ev := s.cur.ev, unit := none, stalled := false } })) ∧
    (∀ v, Now s (.ntfWrite c n v) →
      let o := v.toNat / 8 % 2 ^ 18 * 8
      (v.getLsbD 63 = false → ∃ t, exec .ntfWrite s = .next t ∧ OneThread s t c n { th with csr := { th.csr with ntf := wd o } }) ∧
      (∀ g, v.getLsbD 63 = true → s.groupOf? th = some g → o + 8 ≤ 65536 * g.size → 65536 * g.base + o + 8 ≤ 0x1FC000 → s.tilesOf g = [] →
        ∃ t, exec .ntfWrite s = .next t ∧ t.thread? c n = some { th with csr := { th.csr with ntf := wd (2 ^ 63 + o) } } ∧
          (∀ c' n' y, ¬ (c' = c ∧ n' = n) → s.thread? c' n' = some y → y.svc = th.svc →
            ∃ x, t.thread? c' n' = some x ∧ x.csr.ntf.getLsbD 63 = false))) ∧
    (∀ v g, Now s (.rxwWrite c n v) → s.groupOf? th = some g → g.rxw.getLsbD 63 = false →
      let m := v.toNat / 2 ^ 40 % 2 ^ 12
      let hi := v.toNat / 2 ^ 21 % 2 ^ 16 * 32 + 32 * (v.toNat % 2 ^ 16 + 1)
      let r := s.reg (.fgi m)
      (v.getLsbD 63 = true → r.getLsbD 63 = true → r.getLsbD 62 = false → fld r 53 48 = th.svc → hi ≤ 65536 * g.size →
        65536 * g.base + hi ≤ 0x1FC000 → ∃ t x, exec .rxwWrite s = .next t ∧ t.group? th.task th.group = some x ∧
          x.rxw = v &&& 0x800FFF1FFFE0FFFF ∧ (t.reg (.fgi m)).getLsbD 62 = true) ∧
      (v.getLsbD 63 = false → ∃ t x, exec .rxwWrite s = .next t ∧ t.group? th.task th.group = some x ∧ x.rxw.getLsbD 63 = false ∧
        t.regs = s.regs)) ∧
    (∀ who, Now s (.bmxClr c who) → (s.mayWrite who = true → ∃ t, exec .bmxClr s = .next t ∧ (t.core c) = { s.core c with bmx := [] } ∧
      ∀ x, x ≠ c → t.core x = s.core x) ∧
      (s.mayWrite who = false → ∃ t, exec .bmxClr s = .next t ∧ Refused s t who (Reg.bmxClr c).off))

/-- The homes: a posted reduction combines the lanes that its mask covers, a write-through and a host's acknowledged store put the bytes of
theirs and the core's own line takes them, an escrow entry of stores is applied and freed, an append that waited is performed in the frame
of its resident tile; fetches in place and promotions are asked for, begin and end; a slice period begins with its allotments (11 R279,
R284, R286, 09 R233, 12 R305 to R307, R309, 20 R478). The model's own choices and readings in it: log entries 12 to 14 and 29. -/
def Obligations.HomesPerformWhatReachesThem : Prop :=
  ∀ (s : State), s.mem.wf = true →
    (∀ (q : HomeReq) (p : Nat) (on : Nat → Bool), Now s .atomicApply → Alone s [] [q] → q.c < 256 → s.admits q.pa q.cls = true →
      q.app = none → s.batchAt q.tile q.pa = false → q.rel = none → s.marked (q.pa / 32) = false → p < 0x15 → (q.op, q.ty) = opCode p →
      let n := codeBytes p
      let place (i : Nat) : Nat := 32 * (q.pa / 32) + n * i
      (∀ b, b < 32 → q.mask.getLsbD b = on (b / n)) →
      ∃ t, exec .atomicApply s = .next t ∧ t.homeQ = [] ∧ (∀ a, a / 32 ≠ q.pa / 32 → t.mem.get a = s.mem.get a) ∧ t.threads = s.threads ∧
        ∀ i, i < 32 / n →
          (on i = false → ∀ b, b < n → t.mem.get (place i + b) = s.mem.get (place i + b)) ∧
          (on i = true → ∀ w, atomicOf p (s.mem.getN (place i) n) (q.data.toNat / 256 ^ (n * i) % 256 ^ n) 0 = some w →
            t.mem.getN (place i) n = w)) ∧
    (∀ q : StoreReq, Alone s [q] [] → q.c < 256 → q.side = none → q.rel = none → q.app = none →
      let stored (t : State) : Prop := PutMasked s.mem t.mem q.pa q.data q.mask ∧
        t = { s with storeQ := [], mem := t.mem, poison := t.poison, hostLines := t.hostLines, dies := t.dies, cores := t.cores,
                     freeCount := t.freeCount } ∧
        (∀ c, { t.core c with l1 := (s.core c).l1 } = s.core c) ∧ (∀ c, c ≠ q.c → t.core c = s.core c) ∧
        (q.wb = true → t.core q.c = s.core q.c) ∧
        (∀ x, q.wb = false → (s.core q.c).l1.find (q.pa / 32) = some x → ∃ y, (t.core q.c).l1.find (q.pa / 32) = some y ∧ y.dirty = x.dirty ∧
          ∀ b, b < 32 → y.data.extractLsb' (8 * b) 8 = (if q.mask.getLsbD b then q.data else x.data).extractLsb' (8 * b) 8)
      (Now s .homeSliceWrite → q.host = false → s.admits q.pa q.cls = true → s.batchAt q.tile q.pa = false →
        ∃ t, exec .homeSliceWrite s = .next t ∧ stored t) ∧
      (Now s .hostStoreAck → q.host = true → q.eng = none → ∃ t, exec .hostStoreAck s = .next t ∧ stored t)) ∧
    (∀ die i d e base, Now s (.escrowApply die i) → s.canApply die i = some (d, e, base) → e.op = 0 →
      ∃ t, exec .escrowApply s = .next t ∧ (t.die die).esc.find i = none ∧ (t.die die).usedEsc = (s.die die).usedEsc + 1 ∧
        ∀ b, b < 32 → e.mask.getLsbD b = true → t.mem.get (32 * (base / 32 + e.sect) + b) = e.data.extractLsb' (8 * b) 8) ∧
    (∀ die q d w, Now s (.deferredAppend die) → (s.die die).defer = [q] → s.desc? q.svc q.tid = some d →
      s.tileWord? q.svc q.tid d q.idx = some w → resid? w true = some .resident → q.tag = 0 → s.untagged d q.idx = false → q.op = 0 →
      s.admits (frameBase w + 32 * q.sect) q.cls = true → (∀ pa, s.sideAddr? pa = none) →
      ∃ t, exec .deferredAppend s = .next t ∧ (t.die die).defer = [] ∧ PutMasked s.mem t.mem (frameBase w + 32 * q.sect) q.data q.mask) ∧
    (∀ svc tid idx, Now s (.tileFetch svc tid idx) →
      (s.fetching svc tid idx = true → exec .tileFetch s = .next s) ∧
      (∀ d w, s.desc? svc tid = some d → s.tileWord? svc tid d idx = some w → s.fetching svc tid idx = false →
        resid? w false = some .drawer → s.linkDead (frameBase w) d.bytes = none → exec .tileFetch s = .next { s with fetches := s.fetches ++
          [{ svc := svc, tid := tid, idx := idx, begun := false, promote := false, near := 0, drawer := frameBase w }] })) ∧
    (∀ svc tid idx f d w, Now s (.fetchComplete svc tid idx) → s.fetchOf svc tid idx = some f → s.desc? svc tid = some d →
      s.tileWord? svc tid d idx = some w →
      (f.begun = false → resid? w false = some .drawer → s.sentTo (tileKey svc tid idx) (frameBase w) d.bytes = false →
        (∀ p ∈ s.cores, ∀ x ∈ p.2.l1, x.2.dirty = none) → s.handles = [] →
        let p := s.pool (d.promoteDie idx w) d.z
        let cap := s.poolCap (d.promoteDie idx w) d.z
        (p.2 = 0 → exec .fetchComplete s = .next { s with fetches := s.fetches.erase f ++
          [{ f with begun := true, drawer := frameBase w }] }) ∧
        (p.2 ≠ 0 → cap ≠ 0 → s.poolFull 8 d.z = false → (∀ h ∈ s.hwPuts, ¬ (h.set = 8 ∧ h.z = d.z)) →
          ∃ t, exec .fetchComplete s = .next t ∧
          t.pool (d.promoteDie idx w) d.z = ((p.1 + 1) % cap, p.2 - 1) ∧
          t.fetches = s.fetches.erase f ++ [{ f with begun := true, promote := true, drawer := frameBase w, near :=
            4096 * ((s.mem.word (s.poolSlot (d.promoteDie idx w) d.z p.1)).toNat % 2 ^ 40) }])) ∧
      (f.begun = true → s.untagged d idx = false → s.reading (.fetch svc tid idx) = false →
        (f.promote = false → exec .fetchComplete s = .next { s with fetches := s.fetches.erase f }) ∧
        (f.promote = true → s.linkDead f.drawer d.bytes = none → s.poolFull 8 d.z = true → ∀ a, s.mapAddr? d idx = some a →
          ∃ t, exec .fetchComplete s = .next t ∧ t.fetches = s.fetches.erase f ∧
            t.hwPuts = s.hwPuts ++ [{ set := 8, z := d.z, frame := f.drawer / 4096, task := 0 }] ∧
            t.mem = s.mem.putWord a ((w &&& 0xCFF0000000000FFF#64) ||| wd (f.near / 4096 * 4096))))) ∧
    (∀ die, Now s (.slicePeriod die) → ∃ t, exec .slicePeriod s = .next t ∧ (t.die die).slice = [] ∧ (t.die die).slicePd = s.now / 1024 ∧
      (∀ c, c < 16 → (t.die die).allot.get 0 c = (s.reg (.clsBw c)).toNat % 2 ^ 10) ∧ (∀ d, d ≠ die → t.die d = s.die d) ∧ t.mem = s.mem)

/-- The pools of frames: a put enters the tail of its ring, by software or by hardware when there is room; a frame that is not aligned or
of another class, and one for a full ring, is refused with its bit; a drop takes frames from the head; a new base empties the ring. Scrub
within its budget goes on to its next line, counts what it finds and leaves the mark of an uncorrectable error, and so does an error that a
request meets; `esc.rdx` selects an entry (12 R300, R301, 18 R459, 19 R466, R470, R471, 21 R509). The model's own choices and readings in it:
log entries 67, 72, 84, 87 and 91. -/
def Obligations.PoolsAndScrub : Prop :=
  ∀ (s : State) (k z : Nat) (v : Word) (who : Agent),
    let base := s.reg (.nfBase k z)
    let cap := 2 ^ fld base 4 0
    let p := s.pool k z
    let slot := fld base 51 12 * 4096 + 8 * ((p.1 + p.2) % cap)
    let f := fld v 51 12
    (∀ h, Now s (.hwFramePut k z) → s.hwPuts = [h] → h.set = k → h.z = z → fld base 4 0 ≠ 0 → p.2 < cap → ∃ t, exec .hwFramePut s = .next t ∧
      t.hwPuts = [] ∧ t.pool k z = (p.1, p.2 + 1) ∧ t.mem = s.mem.putWord slot (wd h.frame)) ∧
    (Now s (.nfPut k z v who) → (s.mayWrite who = false → ∃ t, exec .nfPut s = .next t ∧ Refused s t who (Reg.nfPut k z).off) ∧
      (s.mayWrite who = true → (f % 2 ^ z ≠ 0 ∨ fld v 51 48 ≠ k → exec .nfPut s =
          .next (s.setReg (.nfStat k z) (s.reg (.nfStat k z) ||| 0x4000000000000000#64))) ∧
        (f % 2 ^ z = 0 → fld v 51 48 = k →
          (fld base 4 0 = 0 ∨ cap ≤ p.2 → exec .nfPut s =
            .next (s.setReg (.nfStat k z) (s.reg (.nfStat k z) ||| 0x8000000000000000#64))) ∧
          (fld base 4 0 ≠ 0 → p.2 < cap → (∀ h ∈ s.hwPuts, ¬ (h.set = k ∧ h.z = z)) → ∃ t, exec .nfPut s = .next t ∧ t.pool k z = (p.1, p.2 + 1) ∧
            t.mem = s.mem.putWord slot (wd f) ∧ t.regs = s.regs)))) ∧
    (Now s (.nfDrop k z v who) → s.mayWrite who = true → fld base 4 0 ≠ 0 → ∃ t, exec .nfDrop s = .next t ∧ t.mem = s.mem ∧
      t.pool k z = ((p.1 + min (v.toNat % 2 ^ 24) p.2) % cap, p.2 - min (v.toNat % 2 ^ 24) p.2)) ∧
    (Now s (.nfBaseWrite k z v who) → s.mayWrite who = true → ∃ t, exec .nfBaseWrite s = .next t ∧ t.pool k z = (0, 0) ∧
      fld (t.reg (.nfBase k z)) 51 12 = fld v 51 12 ∧ fld (t.reg (.nfBase k z)) 4 0 = min (fld v 4 0) 23 ∧ t.mem = s.mem) ∧
    (∀ die sub err u m i wh loc, Now s (.scrubLine die sub err) → (s.die die).usedScr < fld (s.reg (.actBud die)) 9 0 →
      fld (s.reg .errBase) 4 0 = 0 →
      let at_ := (s.die die).scrub
      scrubPlace scrubMap at_ = some (u, m, i) → s.scrubAt die u m i sub = some (wh, loc) → s.scrubBusy die u wh loc = false →
      ∃ t, exec .scrubLine s = .next t ∧ (err ≠ some false → t.poison = s.poison ∧ t.spPoison = s.spPoison ∧ t.mem = s.mem ∧
          (t.die die).usedScr = (s.die die).usedScr + 1 ∧
          (t.die die).scrub = if at_ + 1 < (scrubMap.map (fun x => x.2.1 * x.2.2)).sum then at_ + 1 else 0) ∧
        (err = none → t.regs = s.regs) ∧ (err = some true → Counted s t 0) ∧
        (err = some false → u = 7 → Counted s t 1 ∧ ∀ j, t.marked j = (s.marked j || j == loc / 32))) ∧
    (∀ u die wh loc found, Now s (.memoryError u die wh loc found) → fld (s.reg .errBase) 4 0 = 0 → ∃ t, exec .scrubLine s = .next t ∧
      (found = 0 → Counted s t 0 ∧ t = { s with regs := t.regs }) ∧ (found = 1 → u = 7 ∨ u = 9 → Counted s t 1) ∧
      (1 < found → u = 7 → t.regs = s.regs) ∧
      (found ≠ 0 → u = 7 → ∀ j, t.marked j = (s.marked j || j == loc / 32)) ∧
      (∀ n r th, found ≠ 0 → u = 9 → loc = 256 * n + r → n < 8 → 0 < r → r < 28 → s.thread? (32 * die + wh) n = some th →
        ∃ x, t.thread? (32 * die + wh) n = some x ∧ (∀ i, i ∈ x.f.marks ↔ i = r ∨ i ∈ th.f.marks) ∧
          x = { th with f := { th.f with marks := x.f.marks } })) ∧
    (∀ die, Now s (.escRdxWrite die v who) → s.mayWrite who = true → ∃ t, exec .escRdxWrite s = .next t ∧
      t = { s with regs := t.regs } ∧ t.reg (.escRdx die) = v &&& 0x3FFFF#64)

/-! ### Drawer links -/

/-- A slot takes one read and one write of those that wait; answers come back four frames later; links go down, training, up, retraining
and failed as their table says; retraining counts; a service's inconsistent map is taken back after 30 µs; `ph.own` and `brs.tune` say who
tunes; a replay is counted (12 R317, R319 to R321, R323, R325, 20 R487, 22 R515). The model's own choices and readings in it: log entry
61. -/
def Obligations.DrawerLinksFollowTheirStates : Prop :=
  ∀ (s : State) (l : Nat), let k := s.link l
    (∀ i n q, Now s (.drawerSlotSend l i) → i < 256 → n % 256 = i → s.now * 125 / 68 ≤ n → n < (s.now + 1) * 125 / 68 → k.st = .up → k.slot ≤ n →
      s.now * 125 / 68 / 256 ≤ k.tabFrame → k.wait = [q] → ∃ t, exec .drawerSlotSend s = .next t ∧ t = { s with links := t.links } ∧
        t.link l = { k with wait := [], sent := k.sent ++ [{ q with slot := n }], slot := n + 1 }) ∧
    (∀ q r, k.st = .up → k.sent = q :: r → q.slot + 1024 ≤ s.now * 125 / 68 →
      (Now s (.drawerReadReturn l) → q.write = false → q.who ≠ .none → ∃ t, exec .drawerReadReturn s = .next t ∧ t = { s with links := t.links } ∧
        t.link l = { k with sent := r }) ∧
      (Now s (.drawerWriteComplete l) → q.write = true → ∃ t, exec .drawerWriteComplete s = .next t ∧ t = { s with links := t.links } ∧
        t.link l = { k with sent := r })) ∧
    (Now s (.dlEnable l) → ∃ t, exec .dlEnable s = .next t ∧ t.reg (.dlCtl l) = 1 ∧
      t.link l = if k.st = .down then { k with st := .training, since := s.now } else k) ∧
    (Now s (.dlDisable l) → ∃ t, exec .dlDisable s = .next t ∧ t.reg (.dlCtl l) = 0 ∧ t.link l = { k with st := .down, since := s.now }) ∧
    (∀ who, (Now s (.dlRetrain l who) ∧ (who = .bursar ∨ ∃ c n, who = .service c n ∧ s.privAt c n = true)) ∨ Now s (.lockLoss l) →
      ∃ t, (Now s (.dlRetrain l who) → exec .dlRetrain s = .next t) ∧ (Now s (.lockLoss l) → exec .lockLoss s = .next t) ∧
        t = { s with links := t.links } ∧ t.link l = if k.st = .up then { k with
          st := .retraining, since := s.now, rtn := if k.rtn = 0xFFFF then 0xFFFF else k.rtn + 1 } else k) ∧
    (∀ a b, Now s (.lanesLocked l a b) → (k.st ≠ .training → k.st ≠ .retraining → exec .lanesLocked s = .next s) ∧
      (k.st = .training ∨ k.st = .retraining → s.lanesOk l = true →
        ((s.reg (.phOwn l)).getLsbD 7 = true → ∃ t, exec .lanesLocked s = .next t ∧ t.regs = s.regs ∧
          t.link l = { k with st := .up, since := s.now, spi := min a 2, spo := min b 2 }) ∧
        ((s.reg (.phOwn l)).getLsbD 7 = false → a = 0 → b = 0 → ∃ t, exec .lanesLocked s = .next t ∧ t.regs = s.regs ∧
          (t.link l).st = .up ∧ (t.link l).since = s.now ∧ (t.link l).lanes = s.rings l false ++ s.rings l true))) ∧
    (Now s (.trainingTimeout l) → (k.st = .training ∨ k.st = .retraining) → k.since + 51000 ≤ s.now →
      ∃ t, exec .trainingTimeout s = .next t ∧ t = { s with links := t.links } ∧ t.link l = { k with st := .failed, wait := [], sent := [] }) ∧
    (Now s (.tuningTimeout l) → k.st = .retraining → (s.reg (.phOwn l)).getLsbD 7 = true → s.lanesOk l = false → k.since + 25500 ≤ s.now →
      k.lanes.length ≤ 36 → ∃ t, exec .tuningTimeout s = .next t ∧ t.reg (.phOwn l) = s.reg (.phOwn l) &&& ~~~0x80#64 ∧ t.links = s.links) ∧
    (∀ v who, Now s (.phOwnWrite l v who) →
      (who = .host ∨ (∃ c n, who = .service c n ∧ s.privAt c n = false) →
        ∃ t, exec .phOwnWrite s = .next t ∧ Refused s t who (Reg.phOwn l).off) ∧
      (who = .bursar ∨ (∃ c n, who = .service c n ∧ s.privAt c n = true) →
        ∃ t, exec .phOwnWrite s = .next t ∧
          t.reg (.phOwn l) = if (s.reg .brsTune).getLsbD l = true then v &&& 0xBF#64 else v &&& 0x3F#64)) ∧
    (Now s (.linkReplay l) → l < 12 → ((s.reg .fabPen).getLsbD l = true → ∃ t, exec .linkReplay s = .next t ∧ Counted s t 5 ∧
        t.threads = s.threads) ∧ ((s.reg .fabPen).getLsbD l = false → exec .linkReplay s = .next s)) ∧
    (∀ v who, Now s (.brsTuneWrite v who) → (who ≠ .host → ∃ t, exec .brsTuneWrite s = .next t ∧ Refused s t who Reg.brsTune.off) ∧
      (who = .host → (∀ i, (s.link i).lanes.length ≤ 36) → ∃ t, exec .brsTuneWrite s = .next t ∧ t.reg .brsTune = v &&& 0xFFFF#64 ∧
        ∀ i, i < 16 → (s.reg .brsTune).getLsbD i = true → v.getLsbD i = false → (t.reg (.phOwn i)).getLsbD 7 = false))

/-! ### Launch queues and tasks -/

/-- A launch queue's tail goes no further than its capacity; the next gang of an opened record becomes a task with the record's ranges, in
the order of its service; a record that breaks a condition is rejected with its reason; a record all of whose gangs have been released is
done, and the head moves past it (17 R427, R428, R432, R433, R434). The model's own choices and readings in it: log entry 54. -/
def Obligations.LaunchQueuesAcceptAndFinish : Prop :=
  ∀ (s : State) (n q : Nat),
    (∀ v who, Now s (.lnqTailWrite n q v who) → s.mayWrite who = true → ¬ (who = .host ∧ (s.reg (.lnqCtl n q)).getLsbD 62 = true) →
      let depth := (v.toNat % 65536 + 65536 - (s.lnqHead n q).head) % 65536
      let lg := fld (s.reg (.lnqBase n q)) 3 0
      let cap := if lg = 0 then 0 else 2 ^ lg
      (cap < depth → exec .lnqTailWrite s = .next s) ∧
      (depth ≤ cap → ∃ t, exec .lnqTailWrite s = .next t ∧ t = { s with regs := t.regs } ∧ t.reg (.lnqTail n q) = v &&& 0xFFFF#64)) ∧
    (Now s (.gangAccept n) → s.brs.st = 2 → s.pickQueue n = some q →
      (∀ l, s.opened n q = some l → s.svcEn n = true → s.task? s.nextTask = none →
        let f := gangFields l.hdr l.next
        let rs := l.entries.map (fun e => rangeOf e f)
        s.badBoxes n rs = false → s.rangeCount + rs.length ≤ 4096 →
        ∃ t k, exec .gangAccept s = .next t ∧ t.task? s.nextTask = some k ∧ k.svc = n ∧ k.queue = q ∧ k.launch = l.id ∧
          k.gang = gangIndex l.hdr f ∧ k.ranges = rs ∧ k.seq = (s.svc n).nextSeq ∧ k.run = 0 ∧ k.cls = s.queueCls n q ∧ k.hdr = l.hdr ∧
          k.st = (if s.tasks.any (s.dependsOn k) then .waiting else .ready) ∧ t.nextTask = s.nextTask + 1 ∧
          (t.svc n).nextSeq = (s.svc n).nextSeq + 1 ∧ t.threads = s.threads ∧ t.mem = s.mem ∧ t.regs = s.regs) ∧
      (∀ r, s.opened n q = none → s.mem.wf = true →
        let a := s.lnqSlot n q (s.lnqHead n q).acc
        let h := s.mem.words a 16
        let es := (List.range (min 16 (fld (h.getD 0 0) 23 19))).map (fun k => s.mem.words (a + 128 + 64 * k) 8)
        s.recordReason n h es = some r →
        ∃ t, exec .gangAccept s = .next t ∧ t.tasks = s.tasks ∧ t.threads = s.threads ∧
          (r = 0 → PutBytes s.mem t.mem (a + 76) 2 (fun i => if i = 0 then 1 else 0) ∧ t.lnq = s.lnq) ∧
          (r ≠ 0 → PutBytes s.mem t.mem (a + 76) 2 (fun i => if i = 0 then 3 else BitVec.ofNat 8 r) ∧
            (t.lnqHead n q).acc = ((s.lnqHead n q).acc + 1) % 65536 ∧ (t.reg .hpIrq).getLsbD 2 = true))) ∧
    (∀ l, Now s (.recordFinish n q) → s.mem.wf = true → s.launches = [l] → l.svc = n → l.queue = q → s.launchDone l = true →
      l.index = (s.lnqHead n q).head → (s.lnqHead n q).head ≠ (s.lnqHead n q).acc →
      ∃ t, exec .recordFinish s = .next t ∧ t.launches = [] ∧ (t.lnqHead n q).head = ((s.lnqHead n q).head + 1) % 65536 ∧
        PutBytes s.mem t.mem (l.addr + 76) 2 (fun i => if i = 0 then 2 else 0) ∧ (t.reg .hpIrq).getLsbD 2 = true ∧ t.threads = s.threads ∧
        t.tasks = s.tasks)

/-- A ready task takes the leases of its tiles and is mapped; the placers reserve cores for it; its gang starts with a thread in each of
the lowest free slots, at the kernel's entry, in a window of zeros; LEXT answers with its code; a task that clears with nothing left to
publish is released; a task that is discarded ends, or runs once more (10 R260, R262, R265, R267, 17 R437, R439, R442, Table 17.3). The
model's own choices and readings in it: log entries 36, 55, 57, 60 and 85. -/
def Obligations.TasksRunThroughTheirStates : Prop :=
  ∀ (s : State) (id : Nat) (k : Task),
    (∀ tid idx d w, Now s (.leaseMapped id) → TaskIn s id k .ready → s.lowerStarted k = true → k.guarded = false → k.held = [] →
      s.unasked k = [] → s.rangeTiles k = some [(tid, idx)] → s.desc? k.svc tid = some d → d.home ≠ 10 → s.tileWord? k.svc tid d idx = some w →
      (resid? w false).isSome = true →
      ∃ t x, exec .leaseMapped s = .next t ∧ TaskIn t id x .mapped ∧ x.ranges = k.ranges ∧
        (∃ h, x.held = [h] ∧ (h.tid, h.idx, h.frame) = (tid, idx, w) ∧ h.count = (k.rangesOn d tid idx).length ∧ h.shadow = none) ∧
        t.mem = (s.addLc k.svc tid idx (k.rangesOn d tid idx).length).mem ∧ t.threads = s.threads) ∧
    (∀ u die l, Now s (.gangStart id) → TaskIn s id k .mapped → k.doom = 0 → s.nextPlace = some (u, die, l) → u.id = id → l ≠ [] →
      ∃ t x, exec .gangStart s = .next t ∧ TaskIn t id x .reserved ∧ x.die = die ∧ x.cores ∈ l ∧ t.threads = s.threads ∧ t.mem = s.mem) ∧
    (∀ c b e kt, Now s (.gangStart id) → TaskIn s id k .reserved → k.doom = 0 → k.saved = none → s.heldBack k = false → k.leaveOk = true →
      (k.h 0).getLsbD 11 = false → k.leaseOk = 0 → k.raced = false → s.ktab k.svc k.hdr = some (some kt) → k.cores = [c] →
      s.bases k.hdr c [] = some (b, e) → thrOf k.hdr ≤ (s.freeSlots c []).length →
      ∃ t, exec .gangStart s = .next t ∧ (∃ x, TaskIn t id x .running) ∧ t.groups = s.groups ++ [k.group 0 c b e] ∧
        t.threads.length = s.threads.length + thrOf k.hdr ∧ (∀ th ∈ s.threads, th ∈ t.threads) ∧
        (∀ i, i < thrOf k.hdr → ∃ th ∈ t.threads, th.c = c ∧ th.t = (s.freeSlots c []).getD i 0 ∧ th.task = id ∧ th.pc = wd (entryOf k.hdr) ∧
          th.wid = wd (i + k.gang * 2 ^ (widthOf k.hdr 0 + widthOf k.hdr 1)) ∧ ∀ j, j < 6 → th.f.s.get 0 (j + 1) = k.h (10 + j)) ∧
        (∀ a, 65536 * b ≤ a → a < 65536 * (b + winOf k.hdr) → (t.core c).sp.get a = 0) ∧ t.mem = s.mem) ∧
    (∀ c n th d v m, Now s (.schedulerReply c n) → s.thread? c n = some th → th.issue.lext = some (d, v, m) → th.task = id →
      s.task? id = some k → fld th.csr.recd 1 0 = 0 →
      ∃ t x code, exec .schedulerReply s = .next t ∧ t.thread? c n = some x ∧ x.issue.lext = none ∧ x.seq = th.seq ∧ code ≤ 4 ∧
        (0 < d → d < 30 → x.f.s.get 0 d = wd code) ∧
        (s.desc? k.svc (fld v 63 52) = none ∨ 3 ≤ m.toNat → code = 4) ∧
        (code = 0 → ∃ y, t.task? id = some y ∧ y.ranges.length = k.ranges.length + 1) ∧ (code ≠ 0 → t.tasks = s.tasks)) ∧
    (Now s (.clearingComplete id) → TaskIn s id k .clearing → s.deferring id = false → (∀ h ∈ k.held, h.shadow = none) →
      s.hasTag (escTag id) = false → s.batching k = false → (∀ h ∈ s.hwPuts, h.task ≠ id) →
      ∃ t, exec .clearingComplete s = .next t ∧ t.task? id = none ∧ t.mem = (s.dropHeld k).mem ∧ t.threads = s.threads) ∧
    (Now s (.taskDiscard id) → s.task? id = some k → k.doom ≠ 0 →
      (k.st = .waiting ∨ k.st = .ready ∨ k.st = .mapped → ∃ t, exec .taskDiscard s = .next t ∧ t.task? id = none) ∧
      (k.st = .running → ∃ t x, exec .taskDiscard s = .next t ∧ TaskIn t id x .discarding ∧
        ∀ th ∈ t.threads, th.task ≠ id) ∧
      (k.st = .discarding → s.working k = false → s.dropped k = true → (∀ h ∈ s.hwPuts, h.task ≠ id) →
        (k.doom = 2 → k.guarded = true → k.run < 2 → ∃ t x, exec .taskDiscard s = .next t ∧ TaskIn t id x .ready ∧ x.run = k.run + 1 ∧
          x.doom = 0 ∧ x.ranges = k.ranges ∧ ∀ h ∈ x.held, h.handle.isSome = true ∧ h.count = 0 ∧ h.shadow = none) ∧
        (k.doom = 1 ∨ k.doom = 3 ∨ k.guarded = false ∨ 2 ≤ k.run → ∃ t, exec .taskDiscard s = .next t ∧ t.task? id = none)))

/-- A gang is pre-empted whole: the cheapest gangs that make room begin to be saved, and a request that arrives during a save waits for it;
once a gang has settled its threads and groups leave their cores and stand in its save, with the bytes of their windows; a saved gang takes
a new reservation, and is restored there (16 R416, R418 to R420, 17 R437, R440). The model's own choices and readings in it: log entries 58
and 85. -/
def Obligations.GangsArePreemptedAndRestored : Prop :=
  ∀ (s : State) (id : Nat) (k : Task),
    (∀ l, Now s (.preemptGang id) → s.task? id = some k → s.offered k = true → s.fit k [] = none →
      s.victimSet k (s.victims k) 1 (s.victims k).length = some l →
      ((∀ u ∈ s.tasks, u.st ≠ .saving) → (s.askers = [] ∨ ∃ r, s.askers = id :: r) →
        ∃ t, exec .preemptGang s = .next t ∧ (∀ u ∈ l, ∃ x, TaskIn t u.id x .saving) ∧ t.mem = s.mem ∧
          ∀ c n th, s.thread? c n = some th → ∃ x, t.thread? c n = some x ∧ x = { th with issue := x.issue }) ∧
      ((∃ u ∈ s.tasks, u.st = .saving) → id ∉ s.preQ → exec .preemptGang s = .next { s with preQ := s.askers ++ [id] })) ∧
    (Now s (.gangSaveComplete id) → TaskIn s id k .saving → s.settledGang k = true → (∀ q ∈ s.storeQ, q.wb = false) →
      (∀ g ∈ s.groups, ∀ p ∈ (s.core g.c).l1, p.2.dirty = none) →
      ∃ t x v, exec .gangSaveComplete s = .next t ∧ TaskIn t id x .saved ∧ x.saved = some v ∧ x.cores = [] ∧
        (∀ th ∈ t.threads, th.task ≠ id) ∧ (∀ g ∈ t.groups, g.task ≠ id) ∧
        (∀ y ∈ v.groups, y.sp = (s.core y.g.c).sp.slice (65536 * y.g.base) y.g.bytes) ∧
        v.groups.length = (s.groups.filter (fun g => g.task == id)).length ∧
        v.threads.length = (s.threads.filter (fun th => th.task == id)).length) ∧
    (∀ v, Now s (.gangRestore id) → s.task? id = some k → k.saved = some v → k.doom = 0 →
      (∀ u die l, k.st = .saved → s.nextPlace = some (u, die, l) → u.id = id → l ≠ [] →
        ∃ t x, exec .gangRestore s = .next t ∧ TaskIn t id x .reserved ∧ x.die = die ∧ x.cores ∈ l ∧ x.saved.isSome = true ∧
          t.threads = s.threads ∧ t.mem = s.mem) ∧
      (∀ t, k.st = .reserved → s.restoreGang k v = some t → ∃ x, exec .gangRestore s = .next t ∧ TaskIn t id x .running ∧
        x.saved = none ∧ t.threads.length = s.threads.length + v.threads.length))

/-! ### Strips, energy and rails -/

/-- The teller holds the strips of a placement for the request it grants, whose group then has the lease; a returning lease scrubs once
its sequencers are idle; scrubbing frees its strips and tells the group which of them lost something; the strips of a gang that is saved
enter saving at a retirement, and their state goes into the save (14 R351, R352, R357, R358, R363). The model's own choices and readings
in it: log entries 53 and 85. -/
def Obligations.StripsAreLeasedAndReturned : Prop :=
  ∀ (s : State) (die : Nat),
    (∀ q r l, Now s (.tellerGrant die) → (s.modDie die Die.enterAll).grantable die = [(q, r, l)] → ∃ t, exec .tellerGrant s = .next t ∧
      (∀ i ∈ l, t.strip die i = { Strip.init with st := .held, task := r.task, group := r.group, lease := s.nextLease }) ∧
      (∀ i, i ∉ l → t.strip die i = s.strip die i) ∧ t.nextLease = s.nextLease + 1 ∧ t.mem = s.mem ∧
      (r.start = false → ∀ g th, s.group? r.task r.group = some g → s.thread? g.c r.t = some th →
        (∃ h, t.group? r.task r.group = some h ∧ h.lease = s.nextLease ∧ h.mask = stripMask l ∧ h.mode = 0 ∧ h.pend = false) ∧
        ∃ x, t.thread? g.c r.t = some x ∧ x.issue.got = some (stripMask l).toNat) ∧
      (∀ c n th, s.thread? c n = some th → dieOf c = die → th.issue.once = 1 → th.issue.got = none →
        (r.start = true ∨ ∃ g, s.group? r.task r.group = some g ∧ ¬ (g.c = c ∧ r.t = n)) →
        ∃ x, t.thread? c n = some x ∧ x.issue.once = 3) ∧
      (r.start = true → ∀ k, s.task? r.task = some k → k.saved = none →
        ∃ x, t.task? r.task = some x ∧ x.leaseOk = stripMask l ∧ x.st = k.st)) ∧
    (∀ n, let l := s.leaseStrips die n
      let x := s.strip die n
      (Now s (.stripRundownEnd die n) → (∀ i ∈ l, (s.strip die i).st = .returning ∧ (s.strip die i).idle = true) →
        ∃ t, exec .stripRundownEnd s = .next t ∧ t = { s with dies := t.dies } ∧
          ∀ i ∈ l, t.strip die i = { s.strip die i with st := .scrubbing }) ∧
      (Now s (.stripScrubComplete die n) → (∀ i ∈ l, (s.strip die i).st = .scrubbing ∧ (s.strip die i).quiet = true ∧ s.fed die i = false) →
        ∃ t, exec .stripScrubComplete s = .next t ∧ t = { s with dies := t.dies, groups := t.groups } ∧
          (∀ i ∈ l, t.strip die i = Strip.init) ∧ ∀ g, s.group? x.task x.group = some g →
            t.group? x.task x.group = some { g with lost := stripMask (l.filter (fun i => (s.strip die i).lost)) }) ∧
      (∀ k, Now s (.fragmentSaveComplete die n) → n < 8 → TaskIn s x.task k .saving →
        (k.doom = 2 → (∀ i ∈ l, (s.strip die i).st = .held ∧ s.fed die i = false) →
          ∃ t, exec .fragmentSaveComplete s = .next t ∧ ∀ i ∈ l, (t.strip die i).st = .saving ∧ (t.strip die i).run = none ∧
            (t.strip die i).drain = none ∧ (t.strip die i).q = [] ∧ (t.strip die i).slots = (s.strip die i).slots) ∧
        (k.doom ≠ 2 → (∀ i ∈ l, (s.strip die i).st = .held ∧ (s.strip die i).retired = true ∧ (s.strip die i).quiet = true ∧ s.fed die i = false) →
          ∃ t, exec .fragmentSaveComplete s = .next t ∧ t = { s with dies := t.dies, agenda := t.agenda } ∧
            ∀ i ∈ l, t.strip die i = { s.strip die i with st := .saving, leave := 0, granted := false }) ∧
        ((∀ i ∈ l, (s.strip die i).st = .saving) →
          ∃ t y, exec .fragmentSaveComplete s = .next t ∧ (∀ i ∈ l, t.strip die i = Strip.init) ∧ t.task? x.task = some y ∧
            y.saved = k.saved.map (fun v => { v with strips := v.strips.set x.group (l.map (s.strip die)) }) ∧ t.threads = s.threads)))

/-- Leave goes to the next service whose account and die allow it: the operation may begin, the reserve of its thread or the account pays,
and the request leaves its queue; a head's shortage is noted, and one short of current alone for 4,096 cycles stops the others; at the end
the difference to the measured energy is settled; each allowance period refills every account up to its cap (18 R448 to R451, R453, R455,
R456). The model's own choices and readings in it: log entry 62. -/
def Obligations.LeaveIsGrantedAndSettled : Prop :=
  ∀ (s : State) (die : Nat),
    (∀ svc r, Now s (.leaveGrant die) → s.nextLeaveOf die = some (svc, r) → ∃ t, exec .leaveGrant s = .next t ∧
      (t.die die).leaveQ.get [] svc = ((s.die die).leaveQ.get [] svc).tail.filter (fun q => !s.threads.any (fun th =>
        dieOf th.c = die && th.issue.once = 2 && th.issue.got.isNone && q.who = .draw th.c th.t && r.who ≠ .draw th.c th.t)) ∧
      (t.die die).leaveLast = svc ∧ t.mem = s.mem ∧
      (s.funder die r = none → (t.svc svc).bal = if (s.svc svc).off then (s.svc svc).bal else (s.svc svc).bal - (r.cost : Int)) ∧
      (∀ th, s.funder die r = some th → (t.svc svc).bal = (s.svc svc).bal ∧
        ∃ x, t.thread? th.c th.t = some x ∧ x.csr.leave = th.csr.leave - BitVec.ofNat 32 r.cost) ∧
      (∀ n, r.who = .strip n → (s.strip die n).leave = r.id → t.strip die n = { s.strip die n with granted := true }) ∧
      (∀ c ch, r.who = .chan c ch → (s.chan c ch).leave = r.id → t.chan c ch = { s.chan c ch with granted := true }) ∧
      (∀ id k, r.who = .start id → s.task? id = some k → t.task? id = some { k with leaveOk := true }) ∧
      (∀ c n th, r.who = .draw c n → s.thread? c n = some th → ∃ x, t.thread? c n = some x ∧ x.issue.got = some r.cost ∧
        x.csr.leave = th.csr.leave + BitVec.ofNat 32 r.cost) ∧
      ((∀ c n, r.who ≠ .draw c n) → (t.die die).granted = (s.die die).granted ++ [{ id := r.id, svc := svc, r := r.rate, cost := r.cost }])) ∧
    (∀ svc r, Now s (.leaveAgeing die) → (s.die die).heads = [(svc, r)] →
      (s.shortStale die (svc, r) = true → ∃ t, exec .leaveAgeing s = .next t ∧ t = { s with dies := t.dies } ∧
        (t.die die).leaveHead svc = some { r with short := (s.lacks die svc r).map (fun b => (b, s.now)) }) ∧
      (s.shortStale die (svc, r) = false → s.overWait r = true → ∃ t, exec .leaveAgeing s = .next t ∧ (t.svc svc).waitNotice = true ∧
        (t.die die).leaveHead svc = some { r with noticed := true }) ∧
      (s.shortStale die (svc, r) = false → s.overWait r = false → s.aged r = true → r.id ≠ (s.die die).ageing →
        ∃ t, exec .leaveAgeing s = .next t ∧ t = { s with dies := t.dies } ∧ (t.die die).ageing = r.id)) ∧
    (∀ id measured d g, Now s (.leaveSettle die id measured) → s.running? die id = some (d, g) → (s.svc g.svc).off = false →
      ∃ t, exec .leaveSettle s = .next t ∧ (t.die d).granted = (s.die d).granted.filter (fun y => y.id ≠ id) ∧ t.threads = s.threads ∧
        (t.svc g.svc).bal = if g.cost < measured then (s.svc g.svc).bal - ((measured - g.cost : Nat) : Int)
          else max (s.svc g.svc).bal (min ((s.svc g.svc).bal + ((g.cost - measured : Nat) : Int)) (fld (s.svc g.svc).capNow 31 0 : Int))) ∧
    (∀ high, Now s (.allowancePeriod high) → s.alwPd < s.alwPeriodNow → ∃ t, exec .allowancePeriod s = .next t ∧ t.alwPd = s.alwPd + 1 ∧
      (∀ n, n < 64 → (t.svc n).refNow = s.reg (.alwRef n) ∧ (t.svc n).capNow = s.reg (.alwCap n) ∧
        (t.svc n).bal = min ((s.svc n).bal + (fld (s.reg (.alwRef n)) 31 0 : Int)) (fld (s.reg (.alwCap n)) 31 0 : Int) ∧
        ((t.svc n).deny = true ↔ (s.svc n).deny = true ∧ (t.svc n).bal < 0)) ∧
      (∀ d, d < 8 → (t.die d).halved = if high then min 4 ((s.die d).halved + 1) else (s.die d).halved - 1))

/-- The counts of an activity period begin again; a write of `die.sram` starts a change of the rail where the rails stay within their gap,
the slices change mode in 49,152 cycles and the rail follows or goes before; a cluster's point is asked for, and changes with those tied
to it (11 R282, 14 R354, 18 R459 to R462). The model's own choices and readings in it: log entry 63. -/
def Obligations.RailsAndPointsChange : Prop :=
  ∀ (s : State) (d : Nat), let x := s.die d
    (Now s (.activityPeriod d) → (∀ i, i < 32 → (s.core (32 * d + i)).stage = []) → ∃ t, exec .activityPeriod s = .next t ∧
      t = { s with dies := t.dies } ∧ t.die d = { x with usedEsc := 0, usedScr := 0, usedTr := 0, actPd := s.now / 1024 }) ∧
    (∀ v who, Now s (.dieSramWrite d v who) → s.mayWrite who = false →
      ∃ t, exec .dieSramWrite s = .next t ∧ Refused s t who (Reg.dieSram d).off) ∧
    (∀ v who, Now s (.dieSramWrite d v who) → s.mayWrite who = true →
      (x.sramPend = true → exec .dieSramWrite s = .next s) ∧
      (x.sramPend = false → (s.reg (.dieSram d)).getLsbD 0 ≠ v.getLsbD 0 →
        ((∀ m ∈ s.logicRails d, (if v.getLsbD 0 then 660 else 780) ≤ m + 180 ∧ m ≤ (if v.getLsbD 0 then 660 else 780) + 180) →
          ∃ t, exec .dieSramWrite s = .next t ∧ t = { s with regs := t.regs, dies := t.dies, mem := t.mem, poison := t.poison } ∧
            (t.reg (.dieSram d)).getLsbD 0 = v.getLsbD 0 ∧
            t.die d = { x with sramPend := true, eccPend := v.getLsbD 0, eccSince := s.now, cache := (t.die d).cache } ∧
            (if v.getLsbD 0 = true then ∀ n y, (t.die d).cache.find n = some y → y.way % 8 ≠ 7
             else (t.die d).cache = x.cache ∧ t.mem = s.mem)) ∧
        ((∃ m ∈ s.logicRails d, (if v.getLsbD 0 then 660 else 780) > m + 180 ∨ m > (if v.getLsbD 0 then 660 else 780) + 180) →
          exec .dieSramWrite s = .next s))) ∧
    (Now s (.eccModeChangeDone d) → x.eccPend = true → x.eccSince + 49152 ≤ s.now → ∃ t, exec .eccModeChangeDone s = .next t ∧
      t = { s with dies := t.dies } ∧ t.die d = { x with eccPend := false, sramPend := (s.reg (.dieSram d)).getLsbD 0 }) ∧
    (Now s (.sramRailSettled d) → x.sramPend = true → x.eccPend = false →
      ((s.reg (.dieSram d)).getLsbD 0 = true → x.sramMv ≠ 660 → ∃ t, exec .sramRailSettled s = .next t ∧ t = { s with dies := t.dies } ∧
        t.die d = { x with sramMv := 660, econ := true, sramPend := false }) ∧
      ((s.reg (.dieSram d)).getLsbD 0 = false → x.sramMv ≠ 780 → ∃ t, exec .sramRailSettled s = .next t ∧ t = { s with dies := t.dies } ∧
        t.die d = { x with sramMv := 780, econ := false, eccPend := true, eccSince := s.now })) ∧
    (∀ k v who, Now s (.cluOpWrite d k v who) → s.mayWrite who = false →
      ∃ t, exec .cluOpWrite s = .next t ∧ Refused s t who (Reg.cluOp (4 * d + k)).off) ∧
    (∀ k v who, Now s (.cluOpWrite d k v who) → s.mayWrite who = true →
      let p := fld v 1 0
      let mv := railMv (4 * d + k) p
      let want := if (s.reg (.dieSram d)).getLsbD 0 then 660 else 780
      (p = 3 → exec .cluOpWrite s = .next s) ∧
      (p ≠ 3 → gapOk x.sramMv mv = true → gapOk want mv = true → ∃ t, exec .cluOpWrite s = .next t ∧ t = { s with dies := t.dies } ∧
        (t.die d).opWant.find k = (if x.opPt.get 2 k = p then none else some p) ∧ (t.die d).opPt = x.opPt)) ∧
    (∀ k p, Now s (.opPointChange d k) → s.tied d k = [k] → x.opWant.find k = some p → ∃ t, exec .opPointChange s = .next t ∧
      t = { s with dies := t.dies } ∧ (t.die d).opPt.get 2 k = p ∧ (t.die d).opWant.find k = none)

/-! ### Registers, the host, the fabric and the bursar -/

/-- A write of a device register stores its writable bits, or makes the step that the register has of its own; a register that is only read
ignores it; a thread without the right is to take PRIVILEGED, and another agent without it changes nothing; a read gives the register's
value, and clears its fields that a read clears. `svc.ctl` and `svc.tinv` are written by system software. The host reads and writes bytes of
its window as they stand, takes its lines back and writes its own memory (00 R6, 01 R32, 10 R256, 12 R310, R323, 19 R470, 20 R478, R479,
R485, R489, 22 R510). The model's own choices and readings in it: log entries 4 and 64. -/
def Obligations.RegistersAndHostMemory : Prop :=
  ∀ (s : State),
    (∀ off v who, Now s (.registerWrite off v who) →
      (decodeReg off = none → exec .registerWrite s = .next s) ∧
      (∀ r, decodeReg off = some r → who = .host → s.brs.st ≠ 2 → r.early = false → exec .registerWrite s = .next s) ∧
      (∀ r, decodeReg off = some r → (who = .host → s.brs.st = 2 ∨ r.early = true) →
        (r.notService = true → who ≠ .host → who ≠ .bursar → ∃ t, exec .registerWrite s = .next t ∧ Refused s t who off) ∧
        (r.notService = false ∨ who = .host ∨ who = .bursar →
          (∀ l, s.stepsOf r v who = some l → exec .registerWrite s = .next { s with agenda := l ++ s.agenda }) ∧
          (s.stepsOf r v who = none → r.readOnly = true → exec .registerWrite s = .next s) ∧
          (s.stepsOf r v who = none → (∀ l i, r ≠ .ring l i ∧ r ≠ .slotOut l i ∧ r ≠ .slotIn l i) → r.readOnly = false →
            (s.regWriter r who = false → ∃ t, exec .registerWrite s = .next t ∧ Refused s t who r.off) ∧
            (s.regWriter r who = true → (∀ i, r ≠ .attNonce i) → (∀ k z, r ≠ .nfStat k z) → r.mask ≠ 0 →
              ∃ t, exec .registerWrite s = .next t ∧ t = { s with regs := t.regs } ∧ t.reg r = r.stored (s.reg r) v) ∧
            (s.regWriter r who = true → (∀ k z, r = .nfStat k z → ∃ t, exec .registerWrite s = .next t ∧ t = { s with regs := t.regs } ∧
              t.reg r = s.reg r &&& ~~~(v &&& 0xC000000000000000#64)) ∧
              (∀ i, r = .attNonce i → exec .registerWrite s = .next { s with brs := { s.brs with nonce := s.brs.nonce.set i v } })))))) ∧
    (∀ off who, Now s (.registerRead off who) →
      (decodeReg off = none → exec .registerRead s = .next { s with answer := 0 }) ∧
      (∀ r, decodeReg off = some r → who = .host → s.brs.st ≠ 2 → r.early = false → exec .registerRead s = .next { s with answer := 0 }) ∧
      (∀ r, decodeReg off = some r → (who = .host → s.brs.st = 2 ∨ r.early = true) → ∃ t, exec .registerRead s = .next t ∧
        t.answer = (s.regVal r).setWidth 256 ∧ t.mem = s.mem ∧ t.threads = s.threads ∧ (∀ i, r = .errCnt i → t.reg r = 0) ∧
        (∀ d, r = .escStat d → (t.die d).escHw = 0) ∧ (∀ l, r = .dlStat l → (t.link l).rtn = 0) ∧
        (∀ m, r = .fgi m → t.reg r = s.reg r &&& ~~~0xFFFF0000#64))) ∧
    (∀ n v who, Now s (.svcCtlWrite n v who) →
      (s.mayWrite who = true → ∃ t, exec .svcCtlWrite s = .next t ∧ t = { s with regs := t.regs } ∧
        t.reg (.svcCtl n) = (v &&& 0xCCF1#64) ||| (s.reg (.svcCtl n) &&& ~~~0xCCF1#64)) ∧
      (s.mayWrite who = false → ∃ t, exec .svcCtlWrite s = .next t ∧ Refused s t who (Reg.svcCtl n).off)) ∧
    (∀ n v who, Now s (.svcTinvWrite n v who) →
      (s.mayWrite who = false → ∃ t, exec .svcTinvWrite s = .next t ∧ Refused s t who (Reg.svcTinv n).off) ∧
      (s.mayWrite who = true → s.recalling n v = true ∨ s.recalled (tinvNames n v) = false → ∃ t, exec .svcTinvWrite s = .next t ∧
        t = { s with tinvQ := s.tinvQ ++ [(n, v)], handles := t.handles, peerOut := t.peerOut, cur := t.cur } ∧
        ∀ h x, s.handles.find h = some x → t.handles.find h = some (if tinvNames n v x = true ∧ x.st = 0 then { x with st := 1 } else x)) ∧
      (s.mayWrite who = true → s.recalling n v = false → s.recalled (tinvNames n v) = true → ∃ t, exec .svcTinvWrite s = .next t ∧
        t = { s with dcache := t.dcache, handles := t.handles, peerOut := t.peerOut } ∧
        (∀ h x, s.handles.find h = some x → t.handles.find h = some (if tinvNames n v x = true ∧ x.st = 2 then { x with st := 0 } else x)) ∧
        (v.getLsbD 51 = false → t.dcache = s.dcache) ∧ (v.getLsbD 51 = true → t.dcache.find (4096 * n + fld v 63 52) = none))) ∧
    (∀ off n, s.brs.st = 2 → off + n ≤ fld (s.reg .hpHdm) 7 0 * 2 ^ 30 → 0 < n → n ≤ 32 →
      let pa := fld (s.reg .hpHdm) 51 30 * 2 ^ 30 + off
      (Now s (.hostMemRead off n) → ∃ t, exec .hostMemRead s = .next t ∧ t = { s with hostLines := t.hostLines, answer := t.answer } ∧
        t.answer = BitVec.ofNat 256 (s.mem.getN pa n)) ∧
      (∀ v, Now s (.hostMemWrite off n v) → s.mem.wf = true → ∃ t, exec .hostMemWrite s = .next t ∧
        t = { s with mem := t.mem, poison := t.poison, hostLines := t.hostLines, dies := t.dies } ∧
        PutBytes s.mem t.mem pa n (fun i => v.extractLsb' (8 * i) 8))) ∧
    (∀ pa val, Now s (.hostSnoop pa val) → s.mem.wf = true → ∃ t, exec .hostSnoop s = .next t ∧
      t = { s with cores := t.cores, dies := t.dies, mem := t.mem, poison := t.poison, hostLines := t.hostLines } ∧
      (∀ c i, i < 2 → (t.core c).l1.find ((10 * 2 ^ 48 + pa % 2 ^ 48) / 64 * 2 + i) = none) ∧ (val = none → t.mem = s.mem) ∧
      ∀ v, val = some v → PutBytes s.mem t.mem ((10 * 2 ^ 48 + pa % 2 ^ 48) / 64 * 64) 64 (fun i => v.extractLsb' (8 * i) 8))

/-- Peers take leases on tiles under handles, and give them; a recall pauses, is acknowledged and ends; accesses of peers are performed at
their tiles, and answers reach who asked; an access without an answer in time consumes an error; sectors arrive at bound inbound entries
inside their region, are held for a saved group, and are refused elsewhere; an entry's registers are written by system software (20 R484 to
R487, R489, R491). The model's own choices and readings in it: log entries 65 and 66. -/
def Obligations.PeersShareTilesAndSectors : Prop :=
  ∀ (s : State),
    (∀ pkg svc tid tiles wr ws, Now s (.peerLeaseRequest pkg svc tid tiles wr ws) →
      (s.portOpen = false → exec .peerLeaseRequest s = .next s) ∧
      (s.portOpen = true → s.lendTo svc tid tiles wr ws = none →
        exec .peerLeaseRequest s = .next { s with answer := 0, peerOut := s.peerOut ++ [.refuse pkg] }) ∧
      (∀ d, s.desc? svc tid = some d → (d.rank, d.ty, d.ext, d.tlg, d.ord) ≠ (let x := Desc.ofWords ws; (x.rank, x.ty, x.ext, x.tlg, x.ord)) →
        s.lendTo svc tid tiles wr ws = none) ∧
      (∀ d, s.portOpen = true → s.lendTo svc tid tiles wr ws = some d → 131072 < s.handles.length + tiles.length →
        ∃ t, exec .peerLeaseRequest s = .next t ∧
        t = { s with leaseAsks := t.leaseAsks, cur := t.cur } ∧
        t.leaseAsks = s.leaseAsks ++ [{ pkg := pkg, svc := svc, tid := tid, tiles := tiles, write := wr, like := ws }]) ∧
      (∀ d i w, s.portOpen = true → s.lendTo svc tid tiles wr ws = some d → tiles = [i] → s.tileWord? svc tid d i = some w →
        s.handles.length < 131072 → ∃ t, exec .peerLeaseRequest s = .next t ∧
        t.answer = 1 ∧ t.handles.find (freeHandle 0 s.handles) = some { pkg := pkg, svc := svc, tid := tid, idx := i, frame := w, st := 0 } ∧
        t.peerOut = s.peerOut ++ [.grant pkg [freeHandle 0 s.handles]] ∧ t.mem = (s.addLc svc tid i 1).mem ∧ t.threads = s.threads)) ∧
    (∀ h x, Now s (.peerLeaseRelease h) → s.portOpen = true → s.handles.find h = some x → ∃ t, exec .peerLeaseRelease s = .next t ∧
      t.handles.find h = none ∧ t.mem = (s.addLc x.svc x.tid x.idx (-1)).mem ∧ t.threads = s.threads) ∧
    (∀ id ri hs k r, Now s (.peerLeaseReply id ri hs) → s.portOpen = true → s.task? id = some k → ri ∈ k.asked → k.ranges[ri]? = some r →
      (hs = none → ∃ t, exec .peerLeaseReply s = .next t ∧ Counted s t 1 ∧ t.tasks = s.tasks) ∧
      (∀ d i h a, hs = some [h] → s.desc? k.svc r.tid = some d → d.home = 10 → k.st = .ready → r.tiles d = [i] → k.held? r.tid i = none →
        s.mapAddr? d i = some a → ∃ t x, exec .peerLeaseReply s = .next t ∧ t.mem = s.mem.putWord a (peerFrame d.peer h) ∧
          t.task? id = some x ∧ (x.held? r.tid i).bind (·.handle) = some h ∧ x.st = .ready)) ∧
    (∀ h ph, Now s (.handleRecall h ph) → s.portOpen = true → ∃ t, exec .handleRecall s = .next t ∧
      (ph = 0 → t = { s with paused := t.paused, ackOwed := t.ackOwed } ∧
        ∀ j, (j ∈ t.paused ↔ j = h ∨ j ∈ s.paused) ∧ (j ∈ t.ackOwed ↔ j = h ∨ j ∈ s.ackOwed)) ∧
      (ph = 1 → t = { s with paused := t.paused } ∧ ∀ j, j ∈ t.paused ↔ j ≠ h ∧ j ∈ s.paused) ∧
      (1 < ph → t = { s with handles := t.handles } ∧ ∀ j x, s.handles.find j = some x →
        t.handles.find j = some (if j = h ∧ x.st = 1 then { x with st := 2 } else x))) ∧
    (∀ h off kind op val mask,
      (Now s (.peerAccess (.serve h off kind op val mask)) → s.portOpen = true →
        exec .peerAccess s = .next { s with peerQ := s.peerQ ++ [.serve h off kind op val mask] }) ∧
      (∀ x d, Now s (.peerAccess (.perform 0)) → s.peerQ = [.serve h off kind op val mask] → s.handles.find h = some x →
        s.desc? x.svc x.tid = some d → resid? x.frame false = some .resident → s.untagged d x.idx = false →
        s.linkDead (frameBase x.frame) d.bytes = none →
        let pa := frameBase x.frame + off
        let cls := s.svcCls x.svc
        s.admits pa cls = true → s.marked (pa / 32) = false →
        (kind = 0 ∨ kind = 2 → ∃ t, exec .peerAccess s = .next t ∧ t.peerQ = [] ∧
          t.answer = BitVec.ofNat 256 (s.mem.getN (32 * (pa / 32)) 32) ∧ (kind = 0 → t.mem = (s.atSlice pa cls).mem)) ∧
        (kind = 1 → s.mem.wf = true → ∃ t, exec .peerAccess s = .next t ∧ t.peerQ = [] ∧
          PutMasked (s.atSlice pa cls).mem t.mem pa val mask))) ∧
    (∀ q id v, s.fab = [q] → q.id = id →
      (∀ c n th, q.who = .thread c n → s.thread? c n = some th →
        (Now s (.peerAccess (.reply id v)) → s.portOpen = true → q.kind = 0 → ∃ t, exec .peerAccess s = .next t ∧ t.fab = [] ∧
          t.thread? c n = some (th.arrive (q.addr / 32) v) ∧ (q.fill = none → t.mem = s.mem ∧ t.cores = s.cores)) ∧
        (∀ k, Now s (.fabricTimeout id) → s.task? th.task = some k → k.doom = 0 → ∃ t x, exec .fabricTimeout s = .next t ∧ t.fab = [] ∧
          t.task? th.task = some x ∧ x.doom = 2 ∧ Counted s t 2)) ∧
      (∀ c ch r, q.who = .chan c ch → (s.chan c ch).run = some r → Now s (.fabricTimeout id) → ∃ t, exec .fabricTimeout s = .next t ∧
        t.fab = [] ∧ (t.chan c ch).run = some { r with left := [], sent := false, fault := some 0x0B })) ∧
    (∀ m src off val held, Now s (.cremSectorArrive m src off val held) → held = true ∨ s.portOpen = true →
      let r := s.reg (.fgi m)
      let open_ := r.getLsbD 63 = true ∧ r.getLsbD 62 = true ∧ (r.getLsbD 47 = true ∨ fld r 41 32 = src)
      (¬ open_ → ∃ t, exec .cremSectorArrive s = .next t ∧ t = { s with regs := t.regs, answer := 0 } ∧
        fld (t.reg (.fgi m)) 31 16 = min (fld r 31 16 + 1) 0xFFFF) ∧
      (open_ → s.boundSaved m = true → exec .cremSectorArrive s = .next { s with
        answer := 2, peerOut := s.peerOut ++ [.hold src m]
        heldSectors := s.heldSectors ++ [{ m := m, src := src, off := off, data := val, since := s.now }] }) ∧
      (∀ g, open_ → s.boundSaved m = false → s.boundTo m = some g → s.sectorFits g off = true → (s.core g.c).sp.wf = true →
        ∃ t, exec .cremSectorArrive s = .next t ∧ t = { s with cores := t.cores, spPoison := t.spPoison, answer := 1 } ∧
          PutBytes (s.core g.c).sp (t.core g.c).sp (g.phys (fld g.rxw 36 16 + off)) 32 (fun i => val.extractLsb' (8 * i) 8))) ∧
    (∀ m v who, Now s (.fgiWrite m v who) →
      (s.mayWrite who = false → ∃ t, exec .fgiWrite s = .next t ∧ Refused s t who (Reg.fgi m).off) ∧
      (s.mayWrite who = true → (s.reg (.fgi m)).getLsbD 62 = false → ∃ t, exec .fgiWrite s = .next t ∧ t = { s with regs := t.regs } ∧
        t.reg (.fgi m) = (v &&& 0x803F83FF00000000#64) ||| (s.reg (.fgi m) &&& ~~~0x803F83FF00000000#64)) ∧
      (s.mayWrite who = true → (s.reg (.fgi m)).getLsbD 62 = true → v.getLsbD 63 = false → ∃ t, exec .fgiWrite s = .next t ∧
        (t.reg (.fgi m)).getLsbD 62 = false ∧ (t.reg (.fgi m)).getLsbD 63 = false ∧
        ∀ g ∈ t.groups, ¬ (g.rxw.getLsbD 63 = true ∧ fld g.rxw 51 40 = m)))

/-- A package reset leaves boot, with the minimum version and the installed image, which raises it; an accepted image runs, a rejected one
sends the package to recovery; loading enables the links and makes the package ready; the host asks for an update or a new try; a signature
covers the nonce as it stood (22 R510, R511, R513, R517). The model's own choices and readings in it: log entry 68. -/
def Obligations.BringUpAndAttestation : Prop :=
  ∀ (s : State), let b := s.brs
    (Now s .deviceReset → ∃ t, exec .deviceReset s = .next t ∧ t.brs = { State.reset.brs with svn := t.brs.svn, installed := b.installed } ∧
      t.brs.svn.toNat = max b.svn.toNat ((b.installed.map (·.toNat)).getD 0) ∧
      t.brs.st = 0 ∧ t.threads = [] ∧ t.tasks = [] ∧ t.regs = [] ∧ t.mem = []) ∧
    (∀ ok ver, Now s (.firmwareVerify ok ver) →
      let good (v : BitVec 16) : Prop := ok = true ∧ b.svn.toNat ≤ v.toNat ∧ Config.svnFuse.toNat ≤ v.toNat
      let v := match b.installed with
        | some x => x
        | none => ver
      (b.st = 0 → good v → exec .firmwareVerify s = .next { s with brs := { b with st := 1, ver := v, svn := v, installed := some v } }) ∧
      (b.st = 0 → ¬ good v → exec .firmwareVerify s = .next { s with brs := { b with st := 3, installed := none } }) ∧
      (b.st ≠ 0 → b.updating = true →
        (good ver → exec .firmwareVerify s = .next { s with brs := { b with updating := false, installed := some ver } }) ∧
        (¬ good ver → exec .firmwareVerify s = .next { s with brs := { b with updating := false, st := 3 } }))) ∧
    (Now s .loadComplete → b.st = 1 →
      ((∃ l, l < 16 ∧ (s.link l).st = .down) → ∃ t, exec .loadComplete s = .next t ∧ t = { s with regs := t.regs, links := t.links } ∧
        ∀ l, l < 16 → (t.link l).st = if (s.link l).st = .down then .training else (s.link l).st) ∧
      ((∀ l, l < 16 → (s.link l).st ≠ .down ∧ (s.link l).st ≠ .training) →
        exec .loadComplete s = .next { s with brs := { b with st := 2, pkg := Config.pkgNumber } })) ∧
    (Now s .brsStatUpd → (b.st = 3 → exec .brsStatUpd s = .next { s with brs := { b with st := 0 } }) ∧
      (b.st = 1 ∨ b.st = 2 → exec .brsStatUpd s = .next { s with brs := { b with updating := true } })) ∧
    (Now s .attCtlGo → (b.busy = true → exec .attCtlGo s = .next s) ∧
      (b.busy = false → exec .attCtlGo s = .next { s with brs := { b with busy := true, ok := false, signing := b.nonce } })) ∧
    (Now s .attSignDone → b.busy = true → ∃ t, exec .attSignDone s = .next t ∧ t = { s with brs := t.brs, freeCount := t.freeCount } ∧
      t.brs = { b with busy := false, ok := true, sig := Config.sm2Sign s.attDigest s.freeCount })

/-! ### The machine -/

/-- When the moves of a step begin with the front of a thread that runs, and the bytes at its pc, as its core's instruction cache holds them or
else memory, decode to an instruction that may stand there, the step runs that instruction at the front, and its group of four words is then
held in the instruction cache; a word that does not decode takes its trap, and a thread whose write of a register was refused takes
PRIVILEGED. A move that begins with the head of a
thread's access or execute queue runs that word; a step that a unit owes, or that has fallen due, comes first (02 R35, R52, R53, 04 R106,
05 R124). The model's own choices and readings in it: log entries 9 and 17. -/
def Obligations.StepRunsTheDecodedWord : Prop :=
  ∀ (s : State),
    (∀ e r, s.agenda = e :: r → step s = Out.tick (exec e.row (({ s with agenda := r } : State).atEvent e))) ∧
    (∀ e, s.agenda = [] → s.due = some e → step s = Out.tick (exec e.row (s.atEvent e))) ∧
    (s.agenda = [] → s.due = none → ∀ (c n : Nat) (th : Thread) (k : Task) (r : List Move), s.thread? c n = some th →
      s.task? th.task = some k → k.goes = true →
      (∀ v, s.moves = .front c n :: r → th.issue.refused = some v → th.aq = [] → th.settled th.seq = true →
        th.issue.woke = none → (∀ g ∈ s.fab, g.who ≠ .thread th.c th.t) →
        let t := s.takeTrap th th.seq th.pc 0x02 v 1
        step s = .next { t with now := t.now + 1 }) ∧
      (∀ w, s.moves = .front c n :: r → th.issue.refused = none → th.issue.stopReq = 0 → th.issue.vwait = false → th.frontFull = false →
        let a := if th.lpre.isSome then th.pc + 4 else th.pc
        s.fetch c k a = .word w →
        (∀ i, decode th.lpre w = .ok i → (∀ j, decodeRow w = some j → th.misplaced j a = false ∧ th.nestBars j = false) →
          ((∃ p, i = .limm p) ∨ th.loops = [] ∨ ∃ l q, th.loops = l :: q ∧ l.active th.pc = true) →
          step s = afterMove r (exec i ((s.warm c k a).atFront th i)) ∧
          ∀ pa, s.codeAt k a = .ok pa → ∃ g, ((s.warm c k a).core c).icache.find (pa / 16) = some g ∧
            (g >>> (8 * (pa % 16))).setWidth 32 = w) ∧
        (decode th.lpre w = .error .illegal → th.settled th.seq = true →
          let v : Word := match th.lpre with
            | some p => (0x7#3 ++ p) ++ w
            | none => 0x0#32 ++ w
          step s = afterMove r (exec .takeTrap (s.atEvent (.takeTrap th.c th.t 0x01 v))))) ∧
      (∀ e q, s.moves = .access c n :: r → th.aq = e :: q → step s = afterMove r (exec e.ins (s.atHead th e))) ∧
      (∀ e q, s.moves = .v c n :: r → th.xq = e :: q → step s = afterMove r (exec e.ins (s.atHead th e))))

/-- Decoding the word of a well-formed instruction, behind its L word if it has one, gives the instruction back, with every operand (02
R34, R49 and the encoding tables). -/
def Obligations.DecodeOfEncodeIsTheInstruction : Prop :=
  ∀ i : Instr, i.wellFormed = true → engineOf i ≠ .none → decode i.preOf i.encodeWord = .ok i

/-- A word that decodes is well formed, and is the only word that gives its instruction: encoding gives the word and its L word's bits
back, so that no bit of a word is dropped (02 R34, R49, R52). -/
def Obligations.EncodeOfDecodeIsTheWord : Prop :=
  ∀ (pre : Option (BitVec 29)) (w : BitVec 32) (i : Instr), decode pre w = .ok i →
    i.wellFormed = true ∧ i.encodeWord = w ∧ i.preOf = pre

/-- The words that the manual works out decode to their instructions, of every engine, with the all-zero word a legal ADD and an L word
merged into the word after it; the words that it says trap are ILLEGAL or QUEUE, as are words with an opcode that Table 5.1 does not list,
and every C word whose endpoint is not s4, s8, … s24 (02 Example 2.1, R34, R45, R48, R49, R52, R53 and the examples of 04 to 20). -/
def Obligations.WrittenWordsDecode : Prop :=
  decode none 0x000C8500#32 = .ok (.add 3 4 5) ∧
  decode none 0x221F8262#32 = .ok (.vfma 7 28 2 6 1) ∧
  decode none 0x10841FFD#32 = .ok (.bne 1 0 0x1FFD none) ∧
  decode none 0x19006442#32 = .ok (.loops 3 4 2 2) ∧
  decode none 0xC1840010#32 = .ok (.csrr 1 0x010) ∧
  decode none 0x33F80020#32 = .ok (.viota 30 2 0) ∧
  decode none 0x2E942680#32 = .ok (.vcvt 5 1 0 6 8 0 0) ∧
  decode none 0x4AF82064#32 = .ok (.stt 1 0x64 none) ∧
  decode none 0x46184001#32 = .ok (.lds 6 2 1 none) ∧
  decode none 0x4E102202#32 = .ok (.tld 4 1 2 0 2) ∧
  decode none 0xA2946000#32 = .ok (.bwait 5 3 0 0) ∧
  decode none 0xAC143262#32 = .ok (.amo 5 1 2 2 3 2) ∧
  decode none 0xADF80300#32 = .ok (.redv 0 0 3 0 0) ∧
  decode none 0xA8F02190#32 = .ok (.strl 28 1 1 4 1) ∧
  decode none 0x81110F00#32 = .ok (.ccpy 4 8 15 0 0 0 0) ∧
  decode none 0x85910F00#32 = .ok (.crem 4 8 15 0 0 0 0) ∧
  decode none 0x62800180#32 = .ok (.mclm 3 0 0) ∧
  decode none 0x6652208C#32 = .ok (.mdrn 20 17 0 2 0 0 12) ∧
  decode none 0x61033A00#32 = .ok (.mgo 25 26) ∧
  decode none 0xE0048D15#32 = .ok (.limm 0x48D15) ∧
  decode (some 0x48D15#29) 0x0E1A789A#32 = .ok (.movi 6 0x2789A (some 0x48D15)) ∧
  decode none 0x0#32 = .ok (.add 0 0 0) ∧
  decode none 0x221F8263#32 = .error .illegal ∧
  decode none 0x22738F62#32 = .error .queue ∧
  decode (some 0x48D15#29) 0xC0000000#32 = .error .illegal ∧
  (∀ w : BitVec 32, w.toNat / 2 ^ 23 = 0x1F → ∀ p, decode p w = .error .illegal) ∧
  (∀ r : BitVec 5, r.toNat % 4 ≠ 0 ∨ r.toNat < 4 ∨ 24 < r.toNat → ∀ (d b : BitVec 5) (c : BitVec 2) (v : BitVec 4) (o h : BitVec 1),
    (Instr.ccpy r d b c v o h).legal = false)

/-- Every step keeps the memories canonical (00 R3; the form is the model's own). The model's own choices and readings in it: log entry 4.
-/
def Obligations.EveryStepKeepsMemoriesCanonical : Prop :=
  ∀ s t : State, s.MemoriesCanonical → step s = .next t → t.MemoriesCanonical

/-- The memories are canonical at reset, and the package is as its register tables say after a device reset: boot, no service privileged
or enabled, no link up, and the fields with reset values other than zero at those (00 R8, 01 R32, 11 R278, R279, 12 R308, 14 R355, 17
R438, 18 R448, R460, R462, 20 R481, 22 R510, R513). The model's own choices and readings in it: log entries 4 and 5. -/
def Obligations.ResetIsAsTheTablesSay : Prop :=
  let s := State.reset
  s.MemoriesCanonical ∧ s.threads = [] ∧ s.tasks = [] ∧ s.groups = [] ∧ s.launches = [] ∧ fld (s.regVal .brsStat) 2 0 = 0 ∧ s.reg .brsPriv = 0 ∧
    s.regVal .fabTmo = 1000 ∧
    (∀ n, n < 64 → s.regVal (.svcCtl n) = 0 ∧ s.privileged n = false ∧ s.regVal (.svcWt n) = 1 ∧ s.regVal (.alwRef n) = 0x8000000000000000 ∧
      (s.svc n).escLimit = 64) ∧
    (∀ c, c < 16 → s.regVal (.clsWays c) = 0xFFFF ∧ s.regVal (.clsBw c) = 0x10000) ∧
    (∀ d, d < 8 → s.regVal (.tlWt d) = 0x1111 ∧ s.regVal (.tlStat d) = 0xFF ∧ s.regVal (.dieSram d) = wd (780 * 2 ^ 16) ∧
      (s.regVal (.scEcc d)).toNat % 4 = 0) ∧
    (∀ k, k < 32 → fld (s.regVal (.cluOp k)) 1 0 = 2 ∧ (s.regVal (.cluOp k)).getLsbD 63 = false) ∧
    (∀ l, l < 16 → fld (s.regVal (.dlStat l)) 2 0 = 0)
end

