-- ==== Sys2Proof/Laws/Dispatch.lean ====
section
/-!
SUPPORT. What the dispatch runs for each instruction.
-/

set_option Elab.async false

namespace Sys2Proof.Machine

theorem exec_add (d a b : BitVec 5) (s : State) : exec (.add d a b) s = execAdd d a b s := rfl
theorem exec_sub (d a b : BitVec 5) (s : State) : exec (.sub d a b) s = execSub d a b s := rfl
theorem exec_mul (d a b : BitVec 5) (s : State) : exec (.mul d a b) s = execMul d a b s := rfl
theorem exec_mulh (d a b : BitVec 5) (s : State) : exec (.mulh d a b) s = execMulh d a b s := rfl
theorem exec_mulhn (d a b : BitVec 5) (s : State) : exec (.mulhn d a b) s = execMulhn d a b s := rfl
theorem exec_div (d a b : BitVec 5) (s : State) : exec (.div d a b) s = execDiv d a b s := rfl
theorem exec_divn (d a b : BitVec 5) (s : State) : exec (.divn d a b) s = execDivn d a b s := rfl
theorem exec_rem (d a b : BitVec 5) (s : State) : exec (.rem d a b) s = execRem d a b s := rfl
theorem exec_remn (d a b : BitVec 5) (s : State) : exec (.remn d a b) s = execRemn d a b s := rfl
theorem exec_and (d a b : BitVec 5) (s : State) : exec (.and d a b) s = execAnd d a b s := rfl
theorem exec_or (d a b : BitVec 5) (s : State) : exec (.or d a b) s = execOr d a b s := rfl
theorem exec_xor (d a b : BitVec 5) (s : State) : exec (.xor d a b) s = execXor d a b s := rfl
theorem exec_shl (d a b : BitVec 5) (s : State) : exec (.shl d a b) s = execShl d a b s := rfl
theorem exec_shr (d a b : BitVec 5) (s : State) : exec (.shr d a b) s = execShr d a b s := rfl
theorem exec_sra (d a b : BitVec 5) (s : State) : exec (.sra d a b) s = execSra d a b s := rfl
theorem exec_slt (d a b : BitVec 5) (s : State) : exec (.slt d a b) s = execSlt d a b s := rfl
theorem exec_sltn (d a b : BitVec 5) (s : State) : exec (.sltn d a b) s = execSltn d a b s := rfl
theorem exec_seq (d a b : BitVec 5) (s : State) : exec (.seq d a b) s = execSeq d a b s := rfl
theorem exec_min (d a b : BitVec 5) (s : State) : exec (.min d a b) s = execMin d a b s := rfl
theorem exec_minn (d a b : BitVec 5) (s : State) : exec (.minn d a b) s = execMinn d a b s := rfl
theorem exec_max (d a b : BitVec 5) (s : State) : exec (.max d a b) s = execMax d a b s := rfl
theorem exec_maxn (d a b : BitVec 5) (s : State) : exec (.maxn d a b) s = execMaxn d a b s := rfl
theorem exec_clz (d a : BitVec 5) (s : State) : exec (.clz d a) s = execClz d a s := rfl
theorem exec_ctz (d a : BitVec 5) (s : State) : exec (.ctz d a) s = execCtz d a s := rfl
theorem exec_popc (d a : BitVec 5) (s : State) : exec (.popc d a) s = execPopc d a s := rfl
theorem exec_wfld (d a : BitVec 5) (k : BitVec 3) (s : State) : exec (.wfld d a k) s = execWfld d a k s := rfl
theorem exec_addi (d a : BitVec 5) (imm : BitVec 13) (pre : Option (BitVec 29)) (s : State) :
    exec (.addi d a imm pre) s = execAddi d a imm pre s := rfl
theorem exec_andi (d a : BitVec 5) (imm : BitVec 13) (pre : Option (BitVec 29)) (s : State) :
    exec (.andi d a imm pre) s = execAndi d a imm pre s := rfl
theorem exec_ori (d a : BitVec 5) (imm : BitVec 13) (pre : Option (BitVec 29)) (s : State) :
    exec (.ori d a imm pre) s = execOri d a imm pre s := rfl
theorem exec_xori (d a : BitVec 5) (imm : BitVec 13) (pre : Option (BitVec 29)) (s : State) :
    exec (.xori d a imm pre) s = execXori d a imm pre s := rfl
theorem exec_shli (d a : BitVec 5) (c : BitVec 6) (s : State) : exec (.shli d a c) s = execShli d a c s := rfl
theorem exec_shri (d a : BitVec 5) (c : BitVec 6) (s : State) : exec (.shri d a c) s = execShri d a c s := rfl
theorem exec_srai (d a : BitVec 5) (c : BitVec 6) (s : State) : exec (.srai d a c) s = execSrai d a c s := rfl
theorem exec_slti (d a : BitVec 5) (imm : BitVec 13) (pre : Option (BitVec 29)) (s : State) :
    exec (.slti d a imm pre) s = execSlti d a imm pre s := rfl
theorem exec_movi (d : BitVec 5) (imm : BitVec 18) (pre : Option (BitVec 29)) (s : State) :
    exec (.movi d imm pre) s = execMovi d imm pre s := rfl
theorem exec_movhi (d : BitVec 5) (imm : BitVec 18) (pre : Option (BitVec 29)) (s : State) :
    exec (.movhi d imm pre) s = execMovhi d imm pre s := rfl
theorem exec_sel (d a b c : BitVec 5) (s : State) : exec (.sel d a b c) s = execSel d a b c s := rfl
theorem exec_beq (a b : BitVec 5) (o : BitVec 13) (pre : Option (BitVec 29)) (s : State) :
    exec (.beq a b o pre) s = execBeq a b o pre s := rfl
theorem exec_bne (a b : BitVec 5) (o : BitVec 13) (pre : Option (BitVec 29)) (s : State) :
    exec (.bne a b o pre) s = execBne a b o pre s := rfl
theorem exec_blt (a b : BitVec 5) (o : BitVec 13) (pre : Option (BitVec 29)) (s : State) :
    exec (.blt a b o pre) s = execBlt a b o pre s := rfl
theorem exec_bge (a b : BitVec 5) (o : BitVec 13) (pre : Option (BitVec 29)) (s : State) :
    exec (.bge a b o pre) s = execBge a b o pre s := rfl
theorem exec_bltn (a b : BitVec 5) (o : BitVec 13) (pre : Option (BitVec 29)) (s : State) :
    exec (.bltn a b o pre) s = execBltn a b o pre s := rfl
theorem exec_bgen (a b : BitVec 5) (o : BitVec 13) (pre : Option (BitVec 29)) (s : State) :
    exec (.bgen a b o pre) s = execBgen a b o pre s := rfl
theorem exec_jmp (o : BitVec 23) (pre : Option (BitVec 29)) (s : State) : exec (.jmp o pre) s = execJmp o pre s := rfl
theorem exec_call (o : BitVec 23) (pre : Option (BitVec 29)) (s : State) : exec (.call o pre) s = execCall o pre s := rfl
theorem exec_jr (a : BitVec 5) (imm : BitVec 13) (pre : Option (BitVec 29)) (s : State) : exec (.jr a imm pre) s = execJr a imm pre s := rfl
theorem exec_callr (a : BitVec 5) (imm : BitVec 13) (pre : Option (BitVec 29)) (s : State) :
    exec (.callr a imm pre) s = execCallr a imm pre s := rfl
theorem exec_loop (a : BitVec 5) (l : BitVec 7) (s : State) : exec (.loop a l) s = execLoop a l s := rfl
theorem exec_loopi (c : BitVec 16) (l : BitVec 7) (s : State) : exec (.loopi c l) s = execLoopi c l s := rfl
theorem exec_loops (a b : BitVec 5) (t : BitVec 2) (l : BitVec 5) (s : State) : exec (.loops a b t l) s = execLoops a b t l s := rfl
theorem exec_lexit (a : BitVec 5) (y x : BitVec 1) (s : State) : exec (.lexit a y x) s = execLexit a y x s := rfl
theorem exec_lcnt (d : BitVec 5) (r : BitVec 1) (l : BitVec 2) (s : State) : exec (.lcnt d r l) s = execLcnt d r l s := rfl
theorem exec_nop (s : State) : exec .nop s = execNop s := rfl
theorem exec_trap (imm : BitVec 13) (s : State) : exec (.trap imm) s = execTrap imm s := rfl
theorem exec_rft (s : State) : exec .rft s = execRft s := rfl
theorem exec_brk (imm : BitVec 13) (s : State) : exec (.brk imm) s = execBrk imm s := rfl
theorem exec_csrr (d : BitVec 5) (c : BitVec 12) (s : State) : exec (.csrr d c) s = execCsrr d c s := rfl
theorem exec_csrw (a : BitVec 5) (c : BitVec 12) (s : State) : exec (.csrw a c) s = execCsrw a c s := rfl
theorem exec_csrx (d a : BitVec 5) (c : BitVec 12) (s : State) : exec (.csrx d a c) s = execCsrx d a c s := rfl
theorem exec_csrs (d a : BitVec 5) (c : BitVec 12) (s : State) : exec (.csrs d a c) s = execCsrs d a c s := rfl
theorem exec_csrc (d a : BitVec 5) (c : BitVec 12) (s : State) : exec (.csrc d a c) s = execCsrc d a c s := rfl
theorem exec_exit (s : State) : exec .exit s = execExit s := rfl
theorem exec_yield (s : State) : exec .yield s = execYield s := rfl
theorem exec_sleep (a : BitVec 5) (imm : BitVec 13) (s : State) : exec (.sleep a imm) s = execSleep a imm s := rfl
theorem exec_prio (d a : BitVec 5) (imm : BitVec 13) (s : State) : exec (.prio d a imm) s = execPrio d a imm s := rfl
theorem exec_esync (s : State) : exec .esync s = execEsync s := rfl
theorem exec_spawn (d a b : BitVec 5) (s : State) : exec (.spawn d a b) s = execSpawn d a b s := rfl
theorem exec_flease (d : BitVec 5) (t : BitVec 1) (q sc : BitVec 2) (s : State) : exec (.flease d t q sc) s = execFlease d t q sc s := rfl
theorem exec_fret (d : BitVec 5) (s : State) : exec (.fret d) s = execFret d s := rfl
theorem exec_draw (d a : BitVec 5) (t : BitVec 1) (s : State) : exec (.draw d a t) s = execDraw d a t s := rfl
theorem exec_dret (d a : BitVec 5) (s : State) : exec (.dret d a) s = execDret d a s := rfl
theorem exec_mark (a : BitVec 5) (imm : BitVec 13) (s : State) : exec (.mark a imm) s = execMark a imm s := rfl
theorem exec_capr (d a : BitVec 5) (s : State) : exec (.capr d a) s = execCapr d a s := rfl
theorem exec_lext (d a b : BitVec 5) (s : State) : exec (.lext d a b) s = execLext d a b s := rfl
theorem exec_fencei (s : State) : exec .fencei s = execFencei s := rfl
theorem exec_halt (s : State) : exec .halt s = execHalt s := rfl
theorem exec_limm (imm : BitVec 29) (s : State) : exec (.limm imm) s = execLimm imm s := rfl
theorem exec_vadd (d a b : BitVec 5) (t : BitVec 4) (m : BitVec 3) (x : BitVec 1) (s : State) :
    exec (.vadd d a b t m x) s = execVadd d a b t m x s := rfl
theorem exec_vsub (d a b : BitVec 5) (t : BitVec 4) (m : BitVec 3) (x : BitVec 1) (s : State) :
    exec (.vsub d a b t m x) s = execVsub d a b t m x s := rfl
theorem exec_vmul (d a b : BitVec 5) (t : BitVec 4) (m : BitVec 3) (x : BitVec 1) (s : State) :
    exec (.vmul d a b t m x) s = execVmul d a b t m x s := rfl
theorem exec_vmulh (d a b : BitVec 5) (t : BitVec 4) (m : BitVec 3) (s : State) : exec (.vmulh d a b t m) s = execVmulh d a b t m s := rfl
theorem exec_vfma (d a b : BitVec 5) (t : BitVec 4) (m : BitVec 3) (s : State) : exec (.vfma d a b t m) s = execVfma d a b t m s := rfl
theorem exec_vfms (d a b : BitVec 5) (t : BitVec 4) (m : BitVec 3) (s : State) : exec (.vfms d a b t m) s = execVfms d a b t m s := rfl
theorem exec_vfnm (d a b : BitVec 5) (t : BitVec 4) (m : BitVec 3) (s : State) : exec (.vfnm d a b t m) s = execVfnm d a b t m s := rfl
theorem exec_vmin (d a b : BitVec 5) (t : BitVec 4) (m : BitVec 3) (s : State) : exec (.vmin d a b t m) s = execVmin d a b t m s := rfl
theorem exec_vmax (d a b : BitVec 5) (t : BitVec 4) (m : BitVec 3) (s : State) : exec (.vmax d a b t m) s = execVmax d a b t m s := rfl
theorem exec_vabs (d a : BitVec 5) (t : BitVec 4) (m : BitVec 3) (x : BitVec 1) (s : State) :
    exec (.vabs d a t m x) s = execVabs d a t m x s := rfl
theorem exec_vneg (d a : BitVec 5) (t : BitVec 4) (m : BitVec 3) (x : BitVec 1) (s : State) :
    exec (.vneg d a t m x) s = execVneg d a t m x s := rfl
theorem exec_vdiv (d a b : BitVec 5) (t : BitVec 4) (m : BitVec 3) (s : State) : exec (.vdiv d a b t m) s = execVdiv d a b t m s := rfl
theorem exec_vsqrt (d a : BitVec 5) (t : BitVec 4) (m : BitVec 3) (s : State) : exec (.vsqrt d a t m) s = execVsqrt d a t m s := rfl
theorem exec_vrcp (d a : BitVec 5) (t : BitVec 4) (m : BitVec 3) (x : BitVec 1) (s : State) :
    exec (.vrcp d a t m x) s = execVrcp d a t m x s := rfl
theorem exec_vrsq (d a : BitVec 5) (t : BitVec 4) (m : BitVec 3) (x : BitVec 1) (s : State) :
    exec (.vrsq d a t m x) s = execVrsq d a t m x s := rfl
theorem exec_vexp2 (d a : BitVec 5) (t : BitVec 4) (m : BitVec 3) (x : BitVec 1) (s : State) :
    exec (.vexp2 d a t m x) s = execVexp2 d a t m x s := rfl
theorem exec_vlog2 (d a : BitVec 5) (t : BitVec 4) (m : BitVec 3) (x : BitVec 1) (s : State) :
    exec (.vlog2 d a t m x) s = execVlog2 d a t m x s := rfl
theorem exec_vand (d a b : BitVec 5) (t : BitVec 4) (m : BitVec 3) (s : State) : exec (.vand d a b t m) s = execVand d a b t m s := rfl
theorem exec_vor (d a b : BitVec 5) (t : BitVec 4) (m : BitVec 3) (s : State) : exec (.vor d a b t m) s = execVor d a b t m s := rfl
theorem exec_vxor (d a b : BitVec 5) (t : BitVec 4) (m : BitVec 3) (s : State) : exec (.vxor d a b t m) s = execVxor d a b t m s := rfl
theorem exec_vnot (d a : BitVec 5) (t : BitVec 4) (m : BitVec 3) (s : State) : exec (.vnot d a t m) s = execVnot d a t m s := rfl
theorem exec_vshl (d a b : BitVec 5) (t : BitVec 4) (m : BitVec 3) (s : State) : exec (.vshl d a b t m) s = execVshl d a b t m s := rfl
theorem exec_vshr (d a b : BitVec 5) (t : BitVec 4) (m : BitVec 3) (s : State) : exec (.vshr d a b t m) s = execVshr d a b t m s := rfl
theorem exec_vsra (d a b : BitVec 5) (t : BitVec 4) (m : BitVec 3) (s : State) : exec (.vsra d a b t m) s = execVsra d a b t m s := rfl
theorem exec_vcmpeq (d : BitVec 3) (a b : BitVec 5) (t : BitVec 4) (m : BitVec 3) (x : BitVec 1) (s : State) :
    exec (.vcmpeq d a b t m x) s = execVcmpeq d a b t m x s := rfl
theorem exec_vcmplt (d : BitVec 3) (a b : BitVec 5) (t : BitVec 4) (m : BitVec 3) (x : BitVec 1) (s : State) :
    exec (.vcmplt d a b t m x) s = execVcmplt d a b t m x s := rfl
theorem exec_vcmple (d : BitVec 3) (a b : BitVec 5) (t : BitVec 4) (m : BitVec 3) (x : BitVec 1) (s : State) :
    exec (.vcmple d a b t m x) s = execVcmple d a b t m x s := rfl
theorem exec_vcmpun (d : BitVec 3) (a b : BitVec 5) (t : BitVec 4) (m : BitVec 3) (x : BitVec 1) (s : State) :
    exec (.vcmpun d a b t m x) s = execVcmpun d a b t m x s := rfl
theorem exec_vsel (d a b : BitVec 5) (t : BitVec 4) (m : BitVec 3) (s : State) : exec (.vsel d a b t m) s = execVsel d a b t m s := rfl
theorem exec_vcvt (d a : BitVec 5) (sc : BitVec 1) (c t : BitVec 4) (m : BitVec 3) (r : BitVec 1) (s : State) :
    exec (.vcvt d a sc c t m r) s = execVcvt d a sc c t m r s := rfl
theorem exec_vqblk (d a b : BitVec 5) (t : BitVec 4) (s : State) : exec (.vqblk d a b t) s = execVqblk d a b t s := rfl
theorem exec_vdqblk (d a b : BitVec 5) (t : BitVec 4) (m : BitVec 3) (s : State) :
    exec (.vdqblk d a b t m) s = execVdqblk d a b t m s := rfl
theorem exec_vred (d a : BitVec 5) (p : BitVec 3) (t : BitVec 4) (m : BitVec 3) (s : State) :
    exec (.vred d a p t m) s = execVred d a p t m s := rfl
theorem exec_vscan (d a : BitVec 5) (p : BitVec 3) (t : BitVec 4) (m : BitVec 3) (s : State) :
    exec (.vscan d a p t m) s = execVscan d a p t m s := rfl
theorem exec_vperm (d a b : BitVec 5) (t : BitVec 4) (m : BitVec 3) (x : BitVec 1) (s : State) :
    exec (.vperm d a b t m x) s = execVperm d a b t m x s := rfl
theorem exec_vrot (d a b : BitVec 5) (t : BitVec 4) (m : BitVec 3) (s : State) : exec (.vrot d a b t m) s = execVrot d a b t m s := rfl
theorem exec_vzip (d a b : BitVec 5) (t : BitVec 4) (m : BitVec 3) (x : BitVec 1) (s : State) :
    exec (.vzip d a b t m x) s = execVzip d a b t m x s := rfl
theorem exec_vunzip (d a b : BitVec 5) (t : BitVec 4) (m : BitVec 3) (x : BitVec 1) (s : State) :
    exec (.vunzip d a b t m x) s = execVunzip d a b t m x s := rfl
theorem exec_vbcst (d a b : BitVec 5) (t : BitVec 4) (m : BitVec 3) (s : State) : exec (.vbcst d a b t m) s = execVbcst d a b t m s := rfl
theorem exec_viota (d : BitVec 5) (t : BitVec 4) (m : BitVec 3) (s : State) : exec (.viota d t m) s = execViota d t m s := rfl
theorem exec_vmovi (d : BitVec 5) (imm : BitVec 18) (pre : Option (BitVec 29)) (s : State) :
    exec (.vmovi d imm pre) s = execVmovi d imm pre s := rfl
theorem exec_vdot4 (d a b : BitVec 5) (t : BitVec 4) (m : BitVec 3) (x : BitVec 1) (s : State) :
    exec (.vdot4 d a b t m x) s = execVdot4 d a b t m x s := rfl
theorem exec_vdot2 (d a b : BitVec 5) (t : BitVec 4) (m : BitVec 3) (x : BitVec 1) (s : State) :
    exec (.vdot2 d a b t m x) s = execVdot2 d a b t m x s := rfl
theorem exec_mlog (d a : BitVec 3) (p : BitVec 2) (b m : BitVec 3) (n : BitVec 1) (s : State) :
    exec (.mlog d a p b m n) s = execMlog d a p b m n s := rfl
theorem exec_mpop (d : BitVec 5) (a m : BitVec 3) (s : State) : exec (.mpop d a m) s = execMpop d a m s := rfl
theorem exec_mfirst (d : BitVec 5) (a m : BitVec 3) (s : State) : exec (.mfirst d a m) s = execMfirst d a m s := rfl
theorem exec_vtos (a j : BitVec 5) (s : State) : exec (.vtos a j) s = execVtos a j s := rfl
theorem exec_vtoa (a : BitVec 5) (s : State) : exec (.vtoa a) s = execVtoa a s := rfl
theorem exec_vmov (d a : BitVec 5) (t : BitVec 4) (m : BitVec 3) (s : State) : exec (.vmov d a t m) s = execVmov d a t m s := rfl
theorem exec_vwait (s : State) : exec .vwait s = execVwait s := rfl
theorem exec_vclass (d a : BitVec 5) (t : BitVec 4) (m : BitVec 3) (s : State) : exec (.vclass d a t m) s = execVclass d a t m s := rfl
theorem exec_vclz (d a : BitVec 5) (t : BitVec 4) (m : BitVec 3) (s : State) : exec (.vclz d a t m) s = execVclz d a t m s := rfl
theorem exec_vpopc (d a : BitVec 5) (t : BitVec 4) (m : BitVec 3) (s : State) : exec (.vpopc d a t m) s = execVpopc d a t m s := rfl
theorem exec_aadd (d a b : BitVec 5) (s : State) : exec (.aadd d a b) s = execAadd d a b s := rfl
theorem exec_asub (d a b : BitVec 5) (s : State) : exec (.asub d a b) s = execAsub d a b s := rfl
theorem exec_amul (d a b : BitVec 5) (s : State) : exec (.amul d a b) s = execAmul d a b s := rfl
theorem exec_ashl (d a b : BitVec 5) (s : State) : exec (.ashl d a b) s = execAshl d a b s := rfl
theorem exec_ashr (d a b : BitVec 5) (s : State) : exec (.ashr d a b) s = execAshr d a b s := rfl
theorem exec_aand (d a b : BitVec 5) (s : State) : exec (.aand d a b) s = execAand d a b s := rfl
theorem exec_aor (d a b : BitVec 5) (s : State) : exec (.aor d a b) s = execAor d a b s := rfl
theorem exec_aaddi (d a : BitVec 5) (imm : BitVec 13) (pre : Option (BitVec 29)) (s : State) :
    exec (.aaddi d a imm pre) s = execAaddi d a imm pre s := rfl
theorem exec_amovi (d : BitVec 5) (imm : BitVec 18) (pre : Option (BitVec 29)) (s : State) :
    exec (.amovi d imm pre) s = execAmovi d imm pre s := rfl
theorem exec_amovhi (d : BitVec 5) (imm : BitVec 18) (pre : Option (BitVec 29)) (s : State) :
    exec (.amovhi d imm pre) s = execAmovhi d imm pre s := rfl
theorem exec_lds (d a : BitVec 5) (imm : BitVec 13) (pre : Option (BitVec 29)) (s : State) :
    exec (.lds d a imm pre) s = execLds d a imm pre s := rfl
theorem exec_sts (d a : BitVec 5) (imm : BitVec 13) (pre : Option (BitVec 29)) (s : State) :
    exec (.sts d a imm pre) s = execSts d a imm pre s := rfl
theorem exec_ldv (d a : BitVec 5) (imm : BitVec 13) (pre : Option (BitVec 29)) (s : State) :
    exec (.ldv d a imm pre) s = execLdv d a imm pre s := rfl
theorem exec_stv (a : BitVec 5) (imm : BitVec 13) (pre : Option (BitVec 29)) (s : State) :
    exec (.stv a imm pre) s = execStv a imm pre s := rfl
theorem exec_ldvs (d a b : BitVec 5) (w : BitVec 1) (s : State) : exec (.ldvs d a b w) s = execLdvs d a b w s := rfl
theorem exec_stvs (a b : BitVec 5) (w : BitVec 1) (s : State) : exec (.stvs a b w) s = execStvs a b w s := rfl
theorem exec_ldg (d a : BitVec 5) (w : BitVec 1) (s : State) : exec (.ldg d a w) s = execLdg d a w s := rfl
theorem exec_stg (a : BitVec 5) (w : BitVec 1) (s : State) : exec (.stg a w) s = execStg a w s := rfl
theorem exec_ldt (d a : BitVec 5) (imm : BitVec 13) (pre : Option (BitVec 29)) (s : State) :
    exec (.ldt d a imm pre) s = execLdt d a imm pre s := rfl
theorem exec_stt (a : BitVec 5) (imm : BitVec 13) (pre : Option (BitVec 29)) (s : State) :
    exec (.stt a imm pre) s = execStt a imm pre s := rfl
theorem exec_kset (d : BitVec 3) (a : BitVec 5) (p : BitVec 2) (s : State) : exec (.kset d a p) s = execKset d a p s := rfl
theorem exec_kadd (d a b : BitVec 3) (s : State) : exec (.kadd d a b) s = execKadd d a b s := rfl
theorem exec_kaddi (d a : BitVec 3) (e : BitVec 10) (j : BitVec 3) (pre : Option (BitVec 29)) (s : State) :
    exec (.kaddi d a e j pre) s = execKaddi d a e j pre s := rfl
theorem exec_kclr (d : BitVec 3) (s : State) : exec (.kclr d) s = execKclr d s := rfl
theorem exec_tld (d a : BitVec 5) (k : BitVec 3) (x : BitVec 1) (n : BitVec 2) (s : State) :
    exec (.tld d a k x n) s = execTld d a k x n s := rfl
theorem exec_tst (d a : BitVec 5) (k sc : BitVec 3) (n : BitVec 2) (s : State) : exec (.tst d a k sc n) s = execTst d a k sc n s := rfl
theorem exec_tldv (d a : BitVec 5) (k : BitVec 3) (s : State) : exec (.tldv d a k) s = execTldv d a k s := rfl
theorem exec_tstv (a : BitVec 5) (k sc : BitVec 3) (s : State) : exec (.tstv a k sc) s = execTstv a k sc s := rfl
theorem exec_tldg (d a : BitVec 5) (k j : BitVec 3) (s : State) : exec (.tldg d a k j) s = execTldg d a k j s := rfl
theorem exec_tstg (a : BitVec 5) (k sc j : BitVec 3) (s : State) : exec (.tstg a k sc j) s = execTstg a k sc j s := rfl
theorem exec_tpf (a : BitVec 5) (k : BitVec 3) (p : BitVec 1) (s : State) : exec (.tpf a k p) s = execTpf a k p s := rfl
theorem exec_ttreg (a : BitVec 5) (t : BitVec 8) (s : State) : exec (.ttreg a t) s = execTtreg a t s := rfl
theorem exec_ttrel (t : BitVec 8) (s : State) : exec (.ttrel t) s = execTtrel t s := rfl
theorem exec_ttstat (d : BitVec 5) (t : BitVec 8) (s : State) : exec (.ttstat d t) s = execTtstat d t s := rfl
theorem exec_binit (d a : BitVec 5) (imm : BitVec 10) (s : State) : exec (.binit d a imm) s = execBinit d a imm s := rfl
theorem exec_breg (a : BitVec 5) (imm : BitVec 10) (s : State) : exec (.breg a imm) s = execBreg a imm s := rfl
theorem exec_barv (d a : BitVec 5) (sc : BitVec 3) (imm : BitVec 10) (s : State) : exec (.barv d a sc imm) s = execBarv d a sc imm s := rfl
theorem exec_bard (d a : BitVec 5) (sc : BitVec 3) (imm : BitVec 10) (s : State) : exec (.bard d a sc imm) s = execBard d a sc imm s := rfl
theorem exec_bexp (d a b : BitVec 5) (sc : BitVec 3) (v : BitVec 1) (s : State) : exec (.bexp d a b sc v) s = execBexp d a b sc v s := rfl
theorem exec_bwait (d a : BitVec 5) (sc : BitVec 3) (imm : BitVec 10) (s : State) :
    exec (.bwait d a sc imm) s = execBwait d a sc imm s := rfl
theorem exec_btest (d a : BitVec 5) (sc : BitVec 3) (imm : BitVec 10) (s : State) :
    exec (.btest d a sc imm) s = execBtest d a sc imm s := rfl
theorem exec_ldf (d a : BitVec 5) (sc : BitVec 3) (o : BitVec 10) (s : State) : exec (.ldf d a sc o) s = execLdf d a sc o s := rfl
theorem exec_ldfe (d a : BitVec 5) (sc : BitVec 3) (o : BitVec 10) (s : State) : exec (.ldfe d a sc o) s = execLdfe d a sc o s := rfl
theorem exec_stef (d a : BitVec 5) (sc : BitVec 3) (o : BitVec 10) (s : State) : exec (.stef d a sc o) s = execStef d a sc o s := rfl
theorem exec_stf (d a : BitVec 5) (sc : BitVec 3) (o : BitVec 10) (s : State) : exec (.stf d a sc o) s = execStf d a sc o s := rfl
theorem exec_feset (f : BitVec 1) (a : BitVec 5) (o : BitVec 10) (s : State) : exec (.feset f a o) s = execFeset f a o s := rfl
theorem exec_tready (t : BitVec 8) (s : State) : exec (.tready t) s = execTready t s := rfl
theorem exec_tempty (t : BitVec 8) (s : State) : exec (.tempty t) s = execTempty t s := rfl
theorem exec_twait (sc : BitVec 2) (t : BitVec 8) (s : State) : exec (.twait sc t) s = execTwait sc t s := rfl
theorem exec_ldaq (d a : BitVec 5) (k sc : BitVec 3) (w : BitVec 1) (s : State) : exec (.ldaq d a k sc w) s = execLdaq d a k sc w s := rfl
theorem exec_strl (d a : BitVec 5) (k sc : BitVec 3) (w : BitVec 1) (s : State) : exec (.strl d a k sc w) s = execStrl d a k sc w s := rfl
theorem exec_ldaqs (d a b : BitVec 5) (sc : BitVec 3) (w : BitVec 1) (s : State) :
    exec (.ldaqs d a b sc w) s = execLdaqs d a b sc w s := rfl
theorem exec_strls (d a b : BitVec 5) (sc : BitVec 3) (w : BitVec 1) (s : State) :
    exec (.strls d a b sc w) s = execStrls d a b sc w s := rfl
theorem exec_fence (sc : BitVec 3) (k : BitVec 2) (s : State) : exec (.fence sc k) s = execFence sc k s := rfl
theorem exec_amo (d a : BitVec 5) (r : BitVec 2) (k sc : BitVec 3) (p : BitVec 5) (s : State) :
    exec (.amo d a r k sc p) s = execAmo d a r k sc p s := rfl
theorem exec_amoc (d a : BitVec 5) (r : BitVec 2) (k sc : BitVec 3) (w : BitVec 1) (s : State) :
    exec (.amoc d a r k sc w) s = execAmoc d a r k sc w s := rfl
theorem exec_red (d a : BitVec 5) (r : BitVec 2) (k sc : BitVec 3) (p : BitVec 5) (s : State) :
    exec (.red d a r k sc p) s = execRed d a r k sc p s := rfl
theorem exec_redv (a : BitVec 5) (r : BitVec 2) (k sc : BitVec 3) (y : BitVec 1) (s : State) :
    exec (.redv a r k sc y) s = execRedv a r k sc y s := rfl
theorem exec_amos (d a b : BitVec 5) (sc : BitVec 3) (p : BitVec 5) (s : State) : exec (.amos d a b sc p) s = execAmos d a b sc p s := rfl
theorem exec_mnest (a b : BitVec 5) (l : BitVec 3) (s : State) : exec (.mnest a b l) s = execMnest a b l s := rfl
theorem exec_mbody (n : BitVec 4) (s : State) : exec (.mbody n) s = execMbody n s := rfl
theorem exec_mgo (a b : BitVec 5) (s : State) : exec (.mgo a b) s = execMgo a b s := rfl
theorem exec_msel (k : BitVec 3) (s : State) : exec (.msel k) s = execMsel k s := rfl
theorem exec_mconf (m : BitVec 2) (s : State) : exec (.mconf m) s = execMconf m s := rfl
theorem exec_mclm (n : BitVec 4) (k : BitVec 3) (sc : BitVec 4) (s : State) : exec (.mclm n k sc) s = execMclm n k sc s := rfl
theorem exec_mrel (n : BitVec 4) (k : BitVec 3) (sc : BitVec 4) (s : State) : exec (.mrel n k sc) s = execMrel n k sc s := rfl
theorem exec_mldb (d : BitVec 5) (g : BitVec 2) (x p : BitVec 1) (t : BitVec 4) (s : State) :
    exec (.mldb d g x p t) s = execMldb d g x p t s := rfl
theorem exec_mmma (d : BitVec 5) (g : BitVec 2) (x h : BitVec 1) (t : BitVec 4) (s : State) :
    exec (.mmma d g x h t) s = execMmma d g x h t s := rfl
theorem exec_mmms (d : BitVec 5) (g : BitVec 2) (x h : BitVec 1) (t : BitVec 4) (s : State) :
    exec (.mmms d g x h t) s = execMmms d g x h t s := rfl
theorem exec_mmmc (d a : BitVec 5) (g : BitVec 2) (x h : BitVec 1) (t : BitVec 4) (s : State) :
    exec (.mmmc d a g x h t) s = execMmmc d a g x h t s := rfl
theorem exec_mzacc (g : BitVec 2) (b h : BitVec 1) (s : State) : exec (.mzacc g b h) s = execMzacc g b h s := rfl
theorem exec_mdrn (d a b : BitVec 5) (g : BitVec 2) (h sc : BitVec 1) (t : BitVec 4) (s : State) :
    exec (.mdrn d a b g h sc t) s = execMdrn d a b g h sc t s := rfl
theorem exec_mdrc (d b : BitVec 5) (g : BitVec 2) (h sc : BitVec 1) (t : BitVec 4) (s : State) :
    exec (.mdrc d b g h sc t) s = execMdrc d b g h sc t s := rfl
theorem exec_mamax (a : BitVec 5) (g : BitVec 2) (h : BitVec 1) (s : State) : exec (.mamax a g h) s = execMamax a g h s := rfl
theorem exec_mmqclr (s : State) : exec .mmqclr s = execMmqclr s := rfl
theorem exec_cnest (d a b : BitVec 5) (c : BitVec 2) (s : State) : exec (.cnest d a b c) s = execCnest d a b c s := rfl
theorem exec_ccpy (d a b : BitVec 5) (c : BitVec 2) (v : BitVec 4) (o sc : BitVec 1) (s : State) :
    exec (.ccpy d a b c v o sc) s = execCcpy d a b c v o sc s := rfl
theorem exec_cst (d a b : BitVec 5) (c : BitVec 2) (v : BitVec 4) (o sc : BitVec 1) (s : State) :
    exec (.cst d a b c v o sc) s = execCst d a b c v o sc s := rfl
theorem exec_ccpys (d a b : BitVec 5) (c : BitVec 2) (v : BitVec 4) (o sc : BitVec 1) (s : State) :
    exec (.ccpys d a b c v o sc) s = execCcpys d a b c v o sc s := rfl
theorem exec_cmc (d a b : BitVec 5) (c : BitVec 2) (v : BitVec 4) (o sc : BitVec 1) (s : State) :
    exec (.cmc d a b c v o sc) s = execCmc d a b c v o sc s := rfl
theorem exec_cgth (d a b : BitVec 5) (c : BitVec 2) (v : BitVec 4) (o sc : BitVec 1) (s : State) :
    exec (.cgth d a b c v o sc) s = execCgth d a b c v o sc s := rfl
theorem exec_copf (d a b : BitVec 5) (c : BitVec 2) (v : BitVec 4) (o sc : BitVec 1) (s : State) :
    exec (.copf d a b c v o sc) s = execCopf d a b c v o sc s := rfl
theorem exec_cmeta (d a b : BitVec 5) (c : BitVec 2) (o : BitVec 1) (s : State) : exec (.cmeta d a b c o) s = execCmeta d a b c o s := rfl
theorem exec_cred (d a b : BitVec 5) (c : BitVec 2) (p : BitVec 4) (o : BitVec 1) (s : State) :
    exec (.cred d a b c p o) s = execCred d a b c p o s := rfl
theorem exec_cset (d a b : BitVec 5) (c : BitVec 2) (o : BitVec 1) (s : State) : exec (.cset d a b c o) s = execCset d a b c o s := rfl
theorem exec_crem (d a b : BitVec 5) (c : BitVec 2) (v : BitVec 4) (o sc : BitVec 1) (s : State) :
    exec (.crem d a b c v o sc) s = execCrem d a b c v o sc s := rfl
theorem exec_cpro (d a b : BitVec 5) (c : BitVec 2) (o : BitVec 1) (s : State) : exec (.cpro d a b c o) s = execCpro d a b c o s := rfl
theorem exec_vResultLand (s : State) : exec .vResultLand s = execVResultLand s := rfl
theorem exec_copyCommandStart (s : State) : exec .copyCommandStart s = execCopyCommandStart s := rfl
theorem exec_sectorLands (s : State) : exec .sectorLands s = execSectorLands s := rfl
theorem exec_copyCommandComplete (s : State) : exec .copyCommandComplete s = execCopyCommandComplete s := rfl
theorem exec_takeTrap (s : State) : exec .takeTrap s = execTakeTrap s := rfl
theorem exec_waitTimeout (s : State) : exec .waitTimeout s = execWaitTimeout s := rfl
theorem exec_vStallTimeout (s : State) : exec .vStallTimeout s = execVStallTimeout s := rfl
theorem exec_escrowWaitTimeout (s : State) : exec .escrowWaitTimeout s = execEscrowWaitTimeout s := rfl
theorem exec_linkstall (s : State) : exec .linkstall s = execLinkstall s := rfl
theorem exec_sleepExpiry (s : State) : exec .sleepExpiry s = execSleepExpiry s := rfl
theorem exec_loadDataArrive (s : State) : exec .loadDataArrive s = execLoadDataArrive s := rfl
theorem exec_inheritMessage (s : State) : exec .inheritMessage s = execInheritMessage s := rfl
theorem exec_atomicApply (s : State) : exec .atomicApply s = execAtomicApply s := rfl
theorem exec_slicePeriod (s : State) : exec .slicePeriod s = execSlicePeriod s := rfl
theorem exec_urgentPromotion (s : State) : exec .urgentPromotion s = execUrgentPromotion s := rfl
theorem exec_tellerGrant (s : State) : exec .tellerGrant s = execTellerGrant s := rfl
theorem exec_stripRundownEnd (s : State) : exec .stripRundownEnd s = execStripRundownEnd s := rfl
theorem exec_stripScrubComplete (s : State) : exec .stripScrubComplete s = execStripScrubComplete s := rfl
theorem exec_fragmentSaveComplete (s : State) : exec .fragmentSaveComplete s = execFragmentSaveComplete s := rfl
theorem exec_nestComplete (s : State) : exec .nestComplete s = execNestComplete s := rfl
theorem exec_lnqTailWrite (s : State) : exec .lnqTailWrite s = execLnqTailWrite s := rfl
theorem exec_gangAccept (s : State) : exec .gangAccept s = execGangAccept s := rfl
theorem exec_recordFinish (s : State) : exec .recordFinish s = execRecordFinish s := rfl
theorem exec_leaseMapped (s : State) : exec .leaseMapped s = execLeaseMapped s := rfl
theorem exec_gangStart (s : State) : exec .gangStart s = execGangStart s := rfl
theorem exec_clearingComplete (s : State) : exec .clearingComplete s = execClearingComplete s := rfl
theorem exec_preemptGang (s : State) : exec .preemptGang s = execPreemptGang s := rfl
theorem exec_gangSaveComplete (s : State) : exec .gangSaveComplete s = execGangSaveComplete s := rfl
theorem exec_gangRestore (s : State) : exec .gangRestore s = execGangRestore s := rfl
theorem exec_checkerMismatch (s : State) : exec .checkerMismatch s = execCheckerMismatch s := rfl
theorem exec_residueMismatch (s : State) : exec .residueMismatch s = execResidueMismatch s := rfl
theorem exec_taskDiscard (s : State) : exec .taskDiscard s = execTaskDiscard s := rfl
theorem exec_scrubLine (s : State) : exec .scrubLine s = execScrubLine s := rfl
theorem exec_tileFetch (s : State) : exec .tileFetch s = execTileFetch s := rfl
theorem exec_fetchComplete (s : State) : exec .fetchComplete s = execFetchComplete s := rfl
theorem exec_escrowApply (s : State) : exec .escrowApply s = execEscrowApply s := rfl
theorem exec_deferredAppend (s : State) : exec .deferredAppend s = execDeferredAppend s := rfl
theorem exec_hwFramePut (s : State) : exec .hwFramePut s = execHwFramePut s := rfl
theorem exec_drawerSlotSend (s : State) : exec .drawerSlotSend s = execDrawerSlotSend s := rfl
theorem exec_drawerReadReturn (s : State) : exec .drawerReadReturn s = execDrawerReadReturn s := rfl
theorem exec_drawerWriteComplete (s : State) : exec .drawerWriteComplete s = execDrawerWriteComplete s := rfl
theorem exec_dlEnable (s : State) : exec .dlEnable s = execDlEnable s := rfl
theorem exec_dlDisable (s : State) : exec .dlDisable s = execDlDisable s := rfl
theorem exec_dlRetrain (s : State) : exec .dlRetrain s = execDlRetrain s := rfl
theorem exec_lanesLocked (s : State) : exec .lanesLocked s = execLanesLocked s := rfl
theorem exec_lockLoss (s : State) : exec .lockLoss s = execLockLoss s := rfl
theorem exec_trainingTimeout (s : State) : exec .trainingTimeout s = execTrainingTimeout s := rfl
theorem exec_tuningTimeout (s : State) : exec .tuningTimeout s = execTuningTimeout s := rfl
theorem exec_phOwnWrite (s : State) : exec .phOwnWrite s = execPhOwnWrite s := rfl
theorem exec_allowancePeriod (s : State) : exec .allowancePeriod s = execAllowancePeriod s := rfl
theorem exec_leaveGrant (s : State) : exec .leaveGrant s = execLeaveGrant s := rfl
theorem exec_leaveAgeing (s : State) : exec .leaveAgeing s = execLeaveAgeing s := rfl
theorem exec_leaveSettle (s : State) : exec .leaveSettle s = execLeaveSettle s := rfl
theorem exec_activityPeriod (s : State) : exec .activityPeriod s = execActivityPeriod s := rfl
theorem exec_dieSramWrite (s : State) : exec .dieSramWrite s = execDieSramWrite s := rfl
theorem exec_eccModeChangeDone (s : State) : exec .eccModeChangeDone s = execEccModeChangeDone s := rfl
theorem exec_cluOpWrite (s : State) : exec .cluOpWrite s = execCluOpWrite s := rfl
theorem exec_opPointChange (s : State) : exec .opPointChange s = execOpPointChange s := rfl
theorem exec_svcCtlWrite (s : State) : exec .svcCtlWrite s = execSvcCtlWrite s := rfl
theorem exec_svcTinvWrite (s : State) : exec .svcTinvWrite s = execSvcTinvWrite s := rfl
theorem exec_nfPut (s : State) : exec .nfPut s = execNfPut s := rfl
theorem exec_nfDrop (s : State) : exec .nfDrop s = execNfDrop s := rfl
theorem exec_nfBaseWrite (s : State) : exec .nfBaseWrite s = execNfBaseWrite s := rfl
theorem exec_hostMemRead (s : State) : exec .hostMemRead s = execHostMemRead s := rfl
theorem exec_hostMemWrite (s : State) : exec .hostMemWrite s = execHostMemWrite s := rfl
theorem exec_hostSnoop (s : State) : exec .hostSnoop s = execHostSnoop s := rfl
theorem exec_peerLeaseRequest (s : State) : exec .peerLeaseRequest s = execPeerLeaseRequest s := rfl
theorem exec_peerLeaseReply (s : State) : exec .peerLeaseReply s = execPeerLeaseReply s := rfl
theorem exec_handleRecall (s : State) : exec .handleRecall s = execHandleRecall s := rfl
theorem exec_peerAccess (s : State) : exec .peerAccess s = execPeerAccess s := rfl
theorem exec_fabricTimeout (s : State) : exec .fabricTimeout s = execFabricTimeout s := rfl
theorem exec_cremSectorArrive (s : State) : exec .cremSectorArrive s = execCremSectorArrive s := rfl
theorem exec_cremAck (s : State) : exec .cremAck s = execCremAck s := rfl
theorem exec_holdNotice (s : State) : exec .holdNotice s = execHoldNotice s := rfl
theorem exec_collectiveResult (s : State) : exec .collectiveResult s = execCollectiveResult s := rfl
theorem exec_rxwWrite (s : State) : exec .rxwWrite s = execRxwWrite s := rfl
theorem exec_fgiWrite (s : State) : exec .fgiWrite s = execFgiWrite s := rfl
theorem exec_ntfWrite (s : State) : exec .ntfWrite s = execNtfWrite s := rfl
theorem exec_bmxClr (s : State) : exec .bmxClr s = execBmxClr s := rfl
theorem exec_escRdxWrite (s : State) : exec .escRdxWrite s = execEscRdxWrite s := rfl
theorem exec_deviceReset (s : State) : exec .deviceReset s = execDeviceReset s := rfl
theorem exec_firmwareVerify (s : State) : exec .firmwareVerify s = execFirmwareVerify s := rfl
theorem exec_loadComplete (s : State) : exec .loadComplete s = execLoadComplete s := rfl
theorem exec_brsStatUpd (s : State) : exec .brsStatUpd s = execBrsStatUpd s := rfl
theorem exec_brsTuneWrite (s : State) : exec .brsTuneWrite s = execBrsTuneWrite s := rfl
theorem exec_attCtlGo (s : State) : exec .attCtlGo s = execAttCtlGo s := rfl
theorem exec_attSignDone (s : State) : exec .attSignDone s = execAttSignDone s := rfl
theorem exec_dbgStop (s : State) : exec .dbgStop s = execDbgStop s := rfl
theorem exec_dbgRelease (s : State) : exec .dbgRelease s = execDbgRelease s := rfl
theorem exec_dbgSetTrcDbg (s : State) : exec .dbgSetTrcDbg s = execDbgSetTrcDbg s := rfl
theorem exec_dbgClearTrcDbg (s : State) : exec .dbgClearTrcDbg s = execDbgClearTrcDbg s := rfl
theorem exec_registerWrite (s : State) : exec .registerWrite s = execRegisterWrite s := rfl
theorem exec_registerRead (s : State) : exec .registerRead s = execRegisterRead s := rfl
theorem exec_homeSliceWrite (s : State) : exec .homeSliceWrite s = execHomeSliceWrite s := rfl
theorem exec_remoteRequestArrive (s : State) : exec .remoteRequestArrive s = execRemoteRequestArrive s := rfl
theorem exec_schedulerReply (s : State) : exec .schedulerReply s = execSchedulerReply s := rfl
theorem exec_sramRailSettled (s : State) : exec .sramRailSettled s = execSramRailSettled s := rfl
theorem exec_linkReplay (s : State) : exec .linkReplay s = execLinkReplay s := rfl
theorem exec_hostStoreAck (s : State) : exec .hostStoreAck s = execHostStoreAck s := rfl
theorem exec_peerLeaseRelease (s : State) : exec .peerLeaseRelease s = execPeerLeaseRelease s := rfl

end Sys2Proof.Machine
end

