-- ==== Sys2Proof/Laws/State.lean ====
section
/-!
SUPPORT. What each update of the state does to each of its fields: the field that it writes, and that every other field stays.
-/

set_option Elab.async false

namespace Sys2Proof.Machine

/-! ### setThread -/

@[simp] theorem State.setThread_now (s : State) (th : Thread) : (s.setThread th).now = s.now := rfl
@[simp] theorem State.setThread_freeCount (s : State) (th : Thread) : (s.setThread th).freeCount = s.freeCount := rfl
@[simp] theorem State.setThread_cur (s : State) (th : Thread) : (s.setThread th).cur = s.cur := rfl
@[simp] theorem State.setThread_agenda (s : State) (th : Thread) : (s.setThread th).agenda = s.agenda := rfl
@[simp] theorem State.setThread_threads (s : State) (th : Thread) : (s.setThread th).threads = s.threads.map (fun x => if x.c == th.c && x.t == th.t then th else x) := rfl
@[simp] theorem State.setThread_cores (s : State) (th : Thread) : (s.setThread th).cores = s.cores := rfl
@[simp] theorem State.setThread_groups (s : State) (th : Thread) : (s.setThread th).groups = s.groups := rfl
@[simp] theorem State.setThread_dies (s : State) (th : Thread) : (s.setThread th).dies = s.dies := rfl
@[simp] theorem State.setThread_svcs (s : State) (th : Thread) : (s.setThread th).svcs = s.svcs := rfl
@[simp] theorem State.setThread_tasks (s : State) (th : Thread) : (s.setThread th).tasks = s.tasks := rfl
@[simp] theorem State.setThread_launches (s : State) (th : Thread) : (s.setThread th).launches = s.launches := rfl
@[simp] theorem State.setThread_lnq (s : State) (th : Thread) : (s.setThread th).lnq = s.lnq := rfl
@[simp] theorem State.setThread_waitAcc (s : State) (th : Thread) : (s.setThread th).waitAcc = s.waitAcc := rfl
@[simp] theorem State.setThread_nextTask (s : State) (th : Thread) : (s.setThread th).nextTask = s.nextTask := rfl
@[simp] theorem State.setThread_nextLaunch (s : State) (th : Thread) : (s.setThread th).nextLaunch = s.nextLaunch := rfl
@[simp] theorem State.setThread_nextLease (s : State) (th : Thread) : (s.setThread th).nextLease = s.nextLease := rfl
@[simp] theorem State.setThread_nextLeave (s : State) (th : Thread) : (s.setThread th).nextLeave = s.nextLeave := rfl
@[simp] theorem State.setThread_mem (s : State) (th : Thread) : (s.setThread th).mem = s.mem := rfl
@[simp] theorem State.setThread_poison (s : State) (th : Thread) : (s.setThread th).poison = s.poison := rfl
@[simp] theorem State.setThread_spPoison (s : State) (th : Thread) : (s.setThread th).spPoison = s.spPoison := rfl
@[simp] theorem State.setThread_regs (s : State) (th : Thread) : (s.setThread th).regs = s.regs := rfl
@[simp] theorem State.setThread_dcache (s : State) (th : Thread) : (s.setThread th).dcache = s.dcache := rfl
@[simp] theorem State.setThread_links (s : State) (th : Thread) : (s.setThread th).links = s.links := rfl
@[simp] theorem State.setThread_nextMsg (s : State) (th : Thread) : (s.setThread th).nextMsg = s.nextMsg := rfl
@[simp] theorem State.setThread_mesh (s : State) (th : Thread) : (s.setThread th).mesh = s.mesh := rfl
@[simp] theorem State.setThread_storeQ (s : State) (th : Thread) : (s.setThread th).storeQ = s.storeQ := rfl
@[simp] theorem State.setThread_homeQ (s : State) (th : Thread) : (s.setThread th).homeQ = s.homeQ := rfl
@[simp] theorem State.setThread_waits (s : State) (th : Thread) : (s.setThread th).waits = s.waits := rfl
@[simp] theorem State.setThread_drops (s : State) (th : Thread) : (s.setThread th).drops = s.drops := rfl
@[simp] theorem State.setThread_fab (s : State) (th : Thread) : (s.setThread th).fab = s.fab := rfl
@[simp] theorem State.setThread_nextFab (s : State) (th : Thread) : (s.setThread th).nextFab = s.nextFab := rfl
@[simp] theorem State.setThread_handles (s : State) (th : Thread) : (s.setThread th).handles = s.handles := rfl
@[simp] theorem State.setThread_leaseAsks (s : State) (th : Thread) : (s.setThread th).leaseAsks = s.leaseAsks := rfl
@[simp] theorem State.setThread_peerQ (s : State) (th : Thread) : (s.setThread th).peerQ = s.peerQ := rfl
@[simp] theorem State.setThread_tinvQ (s : State) (th : Thread) : (s.setThread th).tinvQ = s.tinvQ := rfl
@[simp] theorem State.setThread_paused (s : State) (th : Thread) : (s.setThread th).paused = s.paused := rfl
@[simp] theorem State.setThread_ackOwed (s : State) (th : Thread) : (s.setThread th).ackOwed = s.ackOwed := rfl
@[simp] theorem State.setThread_peerOut (s : State) (th : Thread) : (s.setThread th).peerOut = s.peerOut := rfl
@[simp] theorem State.setThread_preQ (s : State) (th : Thread) : (s.setThread th).preQ = s.preQ := rfl
@[simp] theorem State.setThread_heldSectors (s : State) (th : Thread) : (s.setThread th).heldSectors = s.heldSectors := rfl
@[simp] theorem State.setThread_fetches (s : State) (th : Thread) : (s.setThread th).fetches = s.fetches := rfl
@[simp] theorem State.setThread_hwPuts (s : State) (th : Thread) : (s.setThread th).hwPuts = s.hwPuts := rfl
@[simp] theorem State.setThread_pools (s : State) (th : Thread) : (s.setThread th).pools = s.pools := rfl
@[simp] theorem State.setThread_stamps (s : State) (th : Thread) : (s.setThread th).stamps = s.stamps := rfl
@[simp] theorem State.setThread_keptMem (s : State) (th : Thread) : (s.setThread th).keptMem = s.keptMem := rfl
@[simp] theorem State.setThread_hostLines (s : State) (th : Thread) : (s.setThread th).hostLines = s.hostLines := rfl
@[simp] theorem State.setThread_alwPd (s : State) (th : Thread) : (s.setThread th).alwPd = s.alwPd := rfl
@[simp] theorem State.setThread_brs (s : State) (th : Thread) : (s.setThread th).brs = s.brs := rfl
@[simp] theorem State.setThread_msix (s : State) (th : Thread) : (s.setThread th).msix = s.msix := rfl
@[simp] theorem State.setThread_answer (s : State) (th : Thread) : (s.setThread th).answer = s.answer := rfl

/-! ### modThread -/

@[simp] theorem State.modThread_now (s : State) (c t : Nat) (f : Thread → Thread) : (s.modThread c t f).now = s.now := rfl
@[simp] theorem State.modThread_freeCount (s : State) (c t : Nat) (f : Thread → Thread) : (s.modThread c t f).freeCount = s.freeCount := rfl
@[simp] theorem State.modThread_cur (s : State) (c t : Nat) (f : Thread → Thread) : (s.modThread c t f).cur = s.cur := rfl
@[simp] theorem State.modThread_agenda (s : State) (c t : Nat) (f : Thread → Thread) : (s.modThread c t f).agenda = s.agenda := rfl
@[simp] theorem State.modThread_threads (s : State) (c t : Nat) (f : Thread → Thread) : (s.modThread c t f).threads = s.threads.map (fun x => if x.c == c && x.t == t then f x else x) := rfl
@[simp] theorem State.modThread_cores (s : State) (c t : Nat) (f : Thread → Thread) : (s.modThread c t f).cores = s.cores := rfl
@[simp] theorem State.modThread_groups (s : State) (c t : Nat) (f : Thread → Thread) : (s.modThread c t f).groups = s.groups := rfl
@[simp] theorem State.modThread_dies (s : State) (c t : Nat) (f : Thread → Thread) : (s.modThread c t f).dies = s.dies := rfl
@[simp] theorem State.modThread_svcs (s : State) (c t : Nat) (f : Thread → Thread) : (s.modThread c t f).svcs = s.svcs := rfl
@[simp] theorem State.modThread_tasks (s : State) (c t : Nat) (f : Thread → Thread) : (s.modThread c t f).tasks = s.tasks := rfl
@[simp] theorem State.modThread_launches (s : State) (c t : Nat) (f : Thread → Thread) : (s.modThread c t f).launches = s.launches := rfl
@[simp] theorem State.modThread_lnq (s : State) (c t : Nat) (f : Thread → Thread) : (s.modThread c t f).lnq = s.lnq := rfl
@[simp] theorem State.modThread_waitAcc (s : State) (c t : Nat) (f : Thread → Thread) : (s.modThread c t f).waitAcc = s.waitAcc := rfl
@[simp] theorem State.modThread_nextTask (s : State) (c t : Nat) (f : Thread → Thread) : (s.modThread c t f).nextTask = s.nextTask := rfl
@[simp] theorem State.modThread_nextLaunch (s : State) (c t : Nat) (f : Thread → Thread) : (s.modThread c t f).nextLaunch = s.nextLaunch := rfl
@[simp] theorem State.modThread_nextLease (s : State) (c t : Nat) (f : Thread → Thread) : (s.modThread c t f).nextLease = s.nextLease := rfl
@[simp] theorem State.modThread_nextLeave (s : State) (c t : Nat) (f : Thread → Thread) : (s.modThread c t f).nextLeave = s.nextLeave := rfl
@[simp] theorem State.modThread_mem (s : State) (c t : Nat) (f : Thread → Thread) : (s.modThread c t f).mem = s.mem := rfl
@[simp] theorem State.modThread_poison (s : State) (c t : Nat) (f : Thread → Thread) : (s.modThread c t f).poison = s.poison := rfl
@[simp] theorem State.modThread_spPoison (s : State) (c t : Nat) (f : Thread → Thread) : (s.modThread c t f).spPoison = s.spPoison := rfl
@[simp] theorem State.modThread_regs (s : State) (c t : Nat) (f : Thread → Thread) : (s.modThread c t f).regs = s.regs := rfl
@[simp] theorem State.modThread_dcache (s : State) (c t : Nat) (f : Thread → Thread) : (s.modThread c t f).dcache = s.dcache := rfl
@[simp] theorem State.modThread_links (s : State) (c t : Nat) (f : Thread → Thread) : (s.modThread c t f).links = s.links := rfl
@[simp] theorem State.modThread_nextMsg (s : State) (c t : Nat) (f : Thread → Thread) : (s.modThread c t f).nextMsg = s.nextMsg := rfl
@[simp] theorem State.modThread_mesh (s : State) (c t : Nat) (f : Thread → Thread) : (s.modThread c t f).mesh = s.mesh := rfl
@[simp] theorem State.modThread_storeQ (s : State) (c t : Nat) (f : Thread → Thread) : (s.modThread c t f).storeQ = s.storeQ := rfl
@[simp] theorem State.modThread_homeQ (s : State) (c t : Nat) (f : Thread → Thread) : (s.modThread c t f).homeQ = s.homeQ := rfl
@[simp] theorem State.modThread_waits (s : State) (c t : Nat) (f : Thread → Thread) : (s.modThread c t f).waits = s.waits := rfl
@[simp] theorem State.modThread_drops (s : State) (c t : Nat) (f : Thread → Thread) : (s.modThread c t f).drops = s.drops := rfl
@[simp] theorem State.modThread_fab (s : State) (c t : Nat) (f : Thread → Thread) : (s.modThread c t f).fab = s.fab := rfl
@[simp] theorem State.modThread_nextFab (s : State) (c t : Nat) (f : Thread → Thread) : (s.modThread c t f).nextFab = s.nextFab := rfl
@[simp] theorem State.modThread_handles (s : State) (c t : Nat) (f : Thread → Thread) : (s.modThread c t f).handles = s.handles := rfl
@[simp] theorem State.modThread_leaseAsks (s : State) (c t : Nat) (f : Thread → Thread) : (s.modThread c t f).leaseAsks = s.leaseAsks := rfl
@[simp] theorem State.modThread_peerQ (s : State) (c t : Nat) (f : Thread → Thread) : (s.modThread c t f).peerQ = s.peerQ := rfl
@[simp] theorem State.modThread_tinvQ (s : State) (c t : Nat) (f : Thread → Thread) : (s.modThread c t f).tinvQ = s.tinvQ := rfl
@[simp] theorem State.modThread_paused (s : State) (c t : Nat) (f : Thread → Thread) : (s.modThread c t f).paused = s.paused := rfl
@[simp] theorem State.modThread_ackOwed (s : State) (c t : Nat) (f : Thread → Thread) : (s.modThread c t f).ackOwed = s.ackOwed := rfl
@[simp] theorem State.modThread_peerOut (s : State) (c t : Nat) (f : Thread → Thread) : (s.modThread c t f).peerOut = s.peerOut := rfl
@[simp] theorem State.modThread_preQ (s : State) (c t : Nat) (f : Thread → Thread) : (s.modThread c t f).preQ = s.preQ := rfl
@[simp] theorem State.modThread_heldSectors (s : State) (c t : Nat) (f : Thread → Thread) : (s.modThread c t f).heldSectors = s.heldSectors := rfl
@[simp] theorem State.modThread_fetches (s : State) (c t : Nat) (f : Thread → Thread) : (s.modThread c t f).fetches = s.fetches := rfl
@[simp] theorem State.modThread_hwPuts (s : State) (c t : Nat) (f : Thread → Thread) : (s.modThread c t f).hwPuts = s.hwPuts := rfl
@[simp] theorem State.modThread_pools (s : State) (c t : Nat) (f : Thread → Thread) : (s.modThread c t f).pools = s.pools := rfl
@[simp] theorem State.modThread_stamps (s : State) (c t : Nat) (f : Thread → Thread) : (s.modThread c t f).stamps = s.stamps := rfl
@[simp] theorem State.modThread_keptMem (s : State) (c t : Nat) (f : Thread → Thread) : (s.modThread c t f).keptMem = s.keptMem := rfl
@[simp] theorem State.modThread_hostLines (s : State) (c t : Nat) (f : Thread → Thread) : (s.modThread c t f).hostLines = s.hostLines := rfl
@[simp] theorem State.modThread_alwPd (s : State) (c t : Nat) (f : Thread → Thread) : (s.modThread c t f).alwPd = s.alwPd := rfl
@[simp] theorem State.modThread_brs (s : State) (c t : Nat) (f : Thread → Thread) : (s.modThread c t f).brs = s.brs := rfl
@[simp] theorem State.modThread_msix (s : State) (c t : Nat) (f : Thread → Thread) : (s.modThread c t f).msix = s.msix := rfl
@[simp] theorem State.modThread_answer (s : State) (c t : Nat) (f : Thread → Thread) : (s.modThread c t f).answer = s.answer := rfl

/-! ### dropThread -/

@[simp] theorem State.dropThread_now (s : State) (c t : Nat) : (s.dropThread c t).now = s.now := rfl
@[simp] theorem State.dropThread_freeCount (s : State) (c t : Nat) : (s.dropThread c t).freeCount = s.freeCount := rfl
@[simp] theorem State.dropThread_cur (s : State) (c t : Nat) : (s.dropThread c t).cur = s.cur := rfl
@[simp] theorem State.dropThread_agenda (s : State) (c t : Nat) : (s.dropThread c t).agenda = s.agenda := rfl
@[simp] theorem State.dropThread_threads (s : State) (c t : Nat) : (s.dropThread c t).threads = s.threads.filter (fun x => !(x.c == c && x.t == t)) := rfl
@[simp] theorem State.dropThread_cores (s : State) (c t : Nat) : (s.dropThread c t).cores = s.cores := rfl
@[simp] theorem State.dropThread_groups (s : State) (c t : Nat) : (s.dropThread c t).groups = s.groups := rfl
@[simp] theorem State.dropThread_dies (s : State) (c t : Nat) : (s.dropThread c t).dies = s.dies := rfl
@[simp] theorem State.dropThread_svcs (s : State) (c t : Nat) : (s.dropThread c t).svcs = s.svcs := rfl
@[simp] theorem State.dropThread_tasks (s : State) (c t : Nat) : (s.dropThread c t).tasks = s.tasks := rfl
@[simp] theorem State.dropThread_launches (s : State) (c t : Nat) : (s.dropThread c t).launches = s.launches := rfl
@[simp] theorem State.dropThread_lnq (s : State) (c t : Nat) : (s.dropThread c t).lnq = s.lnq := rfl
@[simp] theorem State.dropThread_waitAcc (s : State) (c t : Nat) : (s.dropThread c t).waitAcc = s.waitAcc := rfl
@[simp] theorem State.dropThread_nextTask (s : State) (c t : Nat) : (s.dropThread c t).nextTask = s.nextTask := rfl
@[simp] theorem State.dropThread_nextLaunch (s : State) (c t : Nat) : (s.dropThread c t).nextLaunch = s.nextLaunch := rfl
@[simp] theorem State.dropThread_nextLease (s : State) (c t : Nat) : (s.dropThread c t).nextLease = s.nextLease := rfl
@[simp] theorem State.dropThread_nextLeave (s : State) (c t : Nat) : (s.dropThread c t).nextLeave = s.nextLeave := rfl
@[simp] theorem State.dropThread_mem (s : State) (c t : Nat) : (s.dropThread c t).mem = s.mem := rfl
@[simp] theorem State.dropThread_poison (s : State) (c t : Nat) : (s.dropThread c t).poison = s.poison := rfl
@[simp] theorem State.dropThread_spPoison (s : State) (c t : Nat) : (s.dropThread c t).spPoison = s.spPoison := rfl
@[simp] theorem State.dropThread_regs (s : State) (c t : Nat) : (s.dropThread c t).regs = s.regs := rfl
@[simp] theorem State.dropThread_dcache (s : State) (c t : Nat) : (s.dropThread c t).dcache = s.dcache := rfl
@[simp] theorem State.dropThread_links (s : State) (c t : Nat) : (s.dropThread c t).links = s.links := rfl
@[simp] theorem State.dropThread_nextMsg (s : State) (c t : Nat) : (s.dropThread c t).nextMsg = s.nextMsg := rfl
@[simp] theorem State.dropThread_mesh (s : State) (c t : Nat) : (s.dropThread c t).mesh = s.mesh := rfl
@[simp] theorem State.dropThread_storeQ (s : State) (c t : Nat) : (s.dropThread c t).storeQ = s.storeQ := rfl
@[simp] theorem State.dropThread_homeQ (s : State) (c t : Nat) : (s.dropThread c t).homeQ = s.homeQ := rfl
@[simp] theorem State.dropThread_waits (s : State) (c t : Nat) : (s.dropThread c t).waits = s.waits := rfl
@[simp] theorem State.dropThread_drops (s : State) (c t : Nat) : (s.dropThread c t).drops = s.drops := rfl
@[simp] theorem State.dropThread_fab (s : State) (c t : Nat) : (s.dropThread c t).fab = s.fab := rfl
@[simp] theorem State.dropThread_nextFab (s : State) (c t : Nat) : (s.dropThread c t).nextFab = s.nextFab := rfl
@[simp] theorem State.dropThread_handles (s : State) (c t : Nat) : (s.dropThread c t).handles = s.handles := rfl
@[simp] theorem State.dropThread_leaseAsks (s : State) (c t : Nat) : (s.dropThread c t).leaseAsks = s.leaseAsks := rfl
@[simp] theorem State.dropThread_peerQ (s : State) (c t : Nat) : (s.dropThread c t).peerQ = s.peerQ := rfl
@[simp] theorem State.dropThread_tinvQ (s : State) (c t : Nat) : (s.dropThread c t).tinvQ = s.tinvQ := rfl
@[simp] theorem State.dropThread_paused (s : State) (c t : Nat) : (s.dropThread c t).paused = s.paused := rfl
@[simp] theorem State.dropThread_ackOwed (s : State) (c t : Nat) : (s.dropThread c t).ackOwed = s.ackOwed := rfl
@[simp] theorem State.dropThread_peerOut (s : State) (c t : Nat) : (s.dropThread c t).peerOut = s.peerOut := rfl
@[simp] theorem State.dropThread_preQ (s : State) (c t : Nat) : (s.dropThread c t).preQ = s.preQ := rfl
@[simp] theorem State.dropThread_heldSectors (s : State) (c t : Nat) : (s.dropThread c t).heldSectors = s.heldSectors := rfl
@[simp] theorem State.dropThread_fetches (s : State) (c t : Nat) : (s.dropThread c t).fetches = s.fetches := rfl
@[simp] theorem State.dropThread_hwPuts (s : State) (c t : Nat) : (s.dropThread c t).hwPuts = s.hwPuts := rfl
@[simp] theorem State.dropThread_pools (s : State) (c t : Nat) : (s.dropThread c t).pools = s.pools := rfl
@[simp] theorem State.dropThread_stamps (s : State) (c t : Nat) : (s.dropThread c t).stamps = s.stamps := rfl
@[simp] theorem State.dropThread_keptMem (s : State) (c t : Nat) : (s.dropThread c t).keptMem = s.keptMem := rfl
@[simp] theorem State.dropThread_hostLines (s : State) (c t : Nat) : (s.dropThread c t).hostLines = s.hostLines := rfl
@[simp] theorem State.dropThread_alwPd (s : State) (c t : Nat) : (s.dropThread c t).alwPd = s.alwPd := rfl
@[simp] theorem State.dropThread_brs (s : State) (c t : Nat) : (s.dropThread c t).brs = s.brs := rfl
@[simp] theorem State.dropThread_msix (s : State) (c t : Nat) : (s.dropThread c t).msix = s.msix := rfl
@[simp] theorem State.dropThread_answer (s : State) (c t : Nat) : (s.dropThread c t).answer = s.answer := rfl

/-! ### setCore -/

@[simp] theorem State.setCore_now (s : State) (c : Nat) (k : Core) : (s.setCore c k).now = s.now := rfl
@[simp] theorem State.setCore_freeCount (s : State) (c : Nat) (k : Core) : (s.setCore c k).freeCount = s.freeCount := rfl
@[simp] theorem State.setCore_cur (s : State) (c : Nat) (k : Core) : (s.setCore c k).cur = s.cur := rfl
@[simp] theorem State.setCore_agenda (s : State) (c : Nat) (k : Core) : (s.setCore c k).agenda = s.agenda := rfl
@[simp] theorem State.setCore_threads (s : State) (c : Nat) (k : Core) : (s.setCore c k).threads = s.threads := rfl
@[simp] theorem State.setCore_cores (s : State) (c : Nat) (k : Core) : (s.setCore c k).cores = s.cores.set c k := rfl
@[simp] theorem State.setCore_groups (s : State) (c : Nat) (k : Core) : (s.setCore c k).groups = s.groups := rfl
@[simp] theorem State.setCore_dies (s : State) (c : Nat) (k : Core) : (s.setCore c k).dies = s.dies := rfl
@[simp] theorem State.setCore_svcs (s : State) (c : Nat) (k : Core) : (s.setCore c k).svcs = s.svcs := rfl
@[simp] theorem State.setCore_tasks (s : State) (c : Nat) (k : Core) : (s.setCore c k).tasks = s.tasks := rfl
@[simp] theorem State.setCore_launches (s : State) (c : Nat) (k : Core) : (s.setCore c k).launches = s.launches := rfl
@[simp] theorem State.setCore_lnq (s : State) (c : Nat) (k : Core) : (s.setCore c k).lnq = s.lnq := rfl
@[simp] theorem State.setCore_waitAcc (s : State) (c : Nat) (k : Core) : (s.setCore c k).waitAcc = s.waitAcc := rfl
@[simp] theorem State.setCore_nextTask (s : State) (c : Nat) (k : Core) : (s.setCore c k).nextTask = s.nextTask := rfl
@[simp] theorem State.setCore_nextLaunch (s : State) (c : Nat) (k : Core) : (s.setCore c k).nextLaunch = s.nextLaunch := rfl
@[simp] theorem State.setCore_nextLease (s : State) (c : Nat) (k : Core) : (s.setCore c k).nextLease = s.nextLease := rfl
@[simp] theorem State.setCore_nextLeave (s : State) (c : Nat) (k : Core) : (s.setCore c k).nextLeave = s.nextLeave := rfl
@[simp] theorem State.setCore_mem (s : State) (c : Nat) (k : Core) : (s.setCore c k).mem = s.mem := rfl
@[simp] theorem State.setCore_poison (s : State) (c : Nat) (k : Core) : (s.setCore c k).poison = s.poison := rfl
@[simp] theorem State.setCore_spPoison (s : State) (c : Nat) (k : Core) : (s.setCore c k).spPoison = s.spPoison := rfl
@[simp] theorem State.setCore_regs (s : State) (c : Nat) (k : Core) : (s.setCore c k).regs = s.regs := rfl
@[simp] theorem State.setCore_dcache (s : State) (c : Nat) (k : Core) : (s.setCore c k).dcache = s.dcache := rfl
@[simp] theorem State.setCore_links (s : State) (c : Nat) (k : Core) : (s.setCore c k).links = s.links := rfl
@[simp] theorem State.setCore_nextMsg (s : State) (c : Nat) (k : Core) : (s.setCore c k).nextMsg = s.nextMsg := rfl
@[simp] theorem State.setCore_mesh (s : State) (c : Nat) (k : Core) : (s.setCore c k).mesh = s.mesh := rfl
@[simp] theorem State.setCore_storeQ (s : State) (c : Nat) (k : Core) : (s.setCore c k).storeQ = s.storeQ := rfl
@[simp] theorem State.setCore_homeQ (s : State) (c : Nat) (k : Core) : (s.setCore c k).homeQ = s.homeQ := rfl
@[simp] theorem State.setCore_waits (s : State) (c : Nat) (k : Core) : (s.setCore c k).waits = s.waits := rfl
@[simp] theorem State.setCore_drops (s : State) (c : Nat) (k : Core) : (s.setCore c k).drops = s.drops := rfl
@[simp] theorem State.setCore_fab (s : State) (c : Nat) (k : Core) : (s.setCore c k).fab = s.fab := rfl
@[simp] theorem State.setCore_nextFab (s : State) (c : Nat) (k : Core) : (s.setCore c k).nextFab = s.nextFab := rfl
@[simp] theorem State.setCore_handles (s : State) (c : Nat) (k : Core) : (s.setCore c k).handles = s.handles := rfl
@[simp] theorem State.setCore_leaseAsks (s : State) (c : Nat) (k : Core) : (s.setCore c k).leaseAsks = s.leaseAsks := rfl
@[simp] theorem State.setCore_peerQ (s : State) (c : Nat) (k : Core) : (s.setCore c k).peerQ = s.peerQ := rfl
@[simp] theorem State.setCore_tinvQ (s : State) (c : Nat) (k : Core) : (s.setCore c k).tinvQ = s.tinvQ := rfl
@[simp] theorem State.setCore_paused (s : State) (c : Nat) (k : Core) : (s.setCore c k).paused = s.paused := rfl
@[simp] theorem State.setCore_ackOwed (s : State) (c : Nat) (k : Core) : (s.setCore c k).ackOwed = s.ackOwed := rfl
@[simp] theorem State.setCore_peerOut (s : State) (c : Nat) (k : Core) : (s.setCore c k).peerOut = s.peerOut := rfl
@[simp] theorem State.setCore_preQ (s : State) (c : Nat) (k : Core) : (s.setCore c k).preQ = s.preQ := rfl
@[simp] theorem State.setCore_heldSectors (s : State) (c : Nat) (k : Core) : (s.setCore c k).heldSectors = s.heldSectors := rfl
@[simp] theorem State.setCore_fetches (s : State) (c : Nat) (k : Core) : (s.setCore c k).fetches = s.fetches := rfl
@[simp] theorem State.setCore_hwPuts (s : State) (c : Nat) (k : Core) : (s.setCore c k).hwPuts = s.hwPuts := rfl
@[simp] theorem State.setCore_pools (s : State) (c : Nat) (k : Core) : (s.setCore c k).pools = s.pools := rfl
@[simp] theorem State.setCore_stamps (s : State) (c : Nat) (k : Core) : (s.setCore c k).stamps = s.stamps := rfl
@[simp] theorem State.setCore_keptMem (s : State) (c : Nat) (k : Core) : (s.setCore c k).keptMem = s.keptMem := rfl
@[simp] theorem State.setCore_hostLines (s : State) (c : Nat) (k : Core) : (s.setCore c k).hostLines = s.hostLines := rfl
@[simp] theorem State.setCore_alwPd (s : State) (c : Nat) (k : Core) : (s.setCore c k).alwPd = s.alwPd := rfl
@[simp] theorem State.setCore_brs (s : State) (c : Nat) (k : Core) : (s.setCore c k).brs = s.brs := rfl
@[simp] theorem State.setCore_msix (s : State) (c : Nat) (k : Core) : (s.setCore c k).msix = s.msix := rfl
@[simp] theorem State.setCore_answer (s : State) (c : Nat) (k : Core) : (s.setCore c k).answer = s.answer := rfl

/-! ### setDie -/

@[simp] theorem State.setDie_now (s : State) (d : Nat) (x : Die) : (s.setDie d x).now = s.now := rfl
@[simp] theorem State.setDie_freeCount (s : State) (d : Nat) (x : Die) : (s.setDie d x).freeCount = s.freeCount := rfl
@[simp] theorem State.setDie_cur (s : State) (d : Nat) (x : Die) : (s.setDie d x).cur = s.cur := rfl
@[simp] theorem State.setDie_agenda (s : State) (d : Nat) (x : Die) : (s.setDie d x).agenda = s.agenda := rfl
@[simp] theorem State.setDie_threads (s : State) (d : Nat) (x : Die) : (s.setDie d x).threads = s.threads := rfl
@[simp] theorem State.setDie_cores (s : State) (d : Nat) (x : Die) : (s.setDie d x).cores = s.cores := rfl
@[simp] theorem State.setDie_groups (s : State) (d : Nat) (x : Die) : (s.setDie d x).groups = s.groups := rfl
@[simp] theorem State.setDie_dies (s : State) (d : Nat) (x : Die) : (s.setDie d x).dies = s.dies.set d x := rfl
@[simp] theorem State.setDie_svcs (s : State) (d : Nat) (x : Die) : (s.setDie d x).svcs = s.svcs := rfl
@[simp] theorem State.setDie_tasks (s : State) (d : Nat) (x : Die) : (s.setDie d x).tasks = s.tasks := rfl
@[simp] theorem State.setDie_launches (s : State) (d : Nat) (x : Die) : (s.setDie d x).launches = s.launches := rfl
@[simp] theorem State.setDie_lnq (s : State) (d : Nat) (x : Die) : (s.setDie d x).lnq = s.lnq := rfl
@[simp] theorem State.setDie_waitAcc (s : State) (d : Nat) (x : Die) : (s.setDie d x).waitAcc = s.waitAcc := rfl
@[simp] theorem State.setDie_nextTask (s : State) (d : Nat) (x : Die) : (s.setDie d x).nextTask = s.nextTask := rfl
@[simp] theorem State.setDie_nextLaunch (s : State) (d : Nat) (x : Die) : (s.setDie d x).nextLaunch = s.nextLaunch := rfl
@[simp] theorem State.setDie_nextLease (s : State) (d : Nat) (x : Die) : (s.setDie d x).nextLease = s.nextLease := rfl
@[simp] theorem State.setDie_nextLeave (s : State) (d : Nat) (x : Die) : (s.setDie d x).nextLeave = s.nextLeave := rfl
@[simp] theorem State.setDie_mem (s : State) (d : Nat) (x : Die) : (s.setDie d x).mem = s.mem := rfl
@[simp] theorem State.setDie_poison (s : State) (d : Nat) (x : Die) : (s.setDie d x).poison = s.poison := rfl
@[simp] theorem State.setDie_spPoison (s : State) (d : Nat) (x : Die) : (s.setDie d x).spPoison = s.spPoison := rfl
@[simp] theorem State.setDie_regs (s : State) (d : Nat) (x : Die) : (s.setDie d x).regs = s.regs := rfl
@[simp] theorem State.setDie_dcache (s : State) (d : Nat) (x : Die) : (s.setDie d x).dcache = s.dcache := rfl
@[simp] theorem State.setDie_links (s : State) (d : Nat) (x : Die) : (s.setDie d x).links = s.links := rfl
@[simp] theorem State.setDie_nextMsg (s : State) (d : Nat) (x : Die) : (s.setDie d x).nextMsg = s.nextMsg := rfl
@[simp] theorem State.setDie_mesh (s : State) (d : Nat) (x : Die) : (s.setDie d x).mesh = s.mesh := rfl
@[simp] theorem State.setDie_storeQ (s : State) (d : Nat) (x : Die) : (s.setDie d x).storeQ = s.storeQ := rfl
@[simp] theorem State.setDie_homeQ (s : State) (d : Nat) (x : Die) : (s.setDie d x).homeQ = s.homeQ := rfl
@[simp] theorem State.setDie_waits (s : State) (d : Nat) (x : Die) : (s.setDie d x).waits = s.waits := rfl
@[simp] theorem State.setDie_drops (s : State) (d : Nat) (x : Die) : (s.setDie d x).drops = s.drops := rfl
@[simp] theorem State.setDie_fab (s : State) (d : Nat) (x : Die) : (s.setDie d x).fab = s.fab := rfl
@[simp] theorem State.setDie_nextFab (s : State) (d : Nat) (x : Die) : (s.setDie d x).nextFab = s.nextFab := rfl
@[simp] theorem State.setDie_handles (s : State) (d : Nat) (x : Die) : (s.setDie d x).handles = s.handles := rfl
@[simp] theorem State.setDie_leaseAsks (s : State) (d : Nat) (x : Die) : (s.setDie d x).leaseAsks = s.leaseAsks := rfl
@[simp] theorem State.setDie_peerQ (s : State) (d : Nat) (x : Die) : (s.setDie d x).peerQ = s.peerQ := rfl
@[simp] theorem State.setDie_tinvQ (s : State) (d : Nat) (x : Die) : (s.setDie d x).tinvQ = s.tinvQ := rfl
@[simp] theorem State.setDie_paused (s : State) (d : Nat) (x : Die) : (s.setDie d x).paused = s.paused := rfl
@[simp] theorem State.setDie_ackOwed (s : State) (d : Nat) (x : Die) : (s.setDie d x).ackOwed = s.ackOwed := rfl
@[simp] theorem State.setDie_peerOut (s : State) (d : Nat) (x : Die) : (s.setDie d x).peerOut = s.peerOut := rfl
@[simp] theorem State.setDie_preQ (s : State) (d : Nat) (x : Die) : (s.setDie d x).preQ = s.preQ := rfl
@[simp] theorem State.setDie_heldSectors (s : State) (d : Nat) (x : Die) : (s.setDie d x).heldSectors = s.heldSectors := rfl
@[simp] theorem State.setDie_fetches (s : State) (d : Nat) (x : Die) : (s.setDie d x).fetches = s.fetches := rfl
@[simp] theorem State.setDie_hwPuts (s : State) (d : Nat) (x : Die) : (s.setDie d x).hwPuts = s.hwPuts := rfl
@[simp] theorem State.setDie_pools (s : State) (d : Nat) (x : Die) : (s.setDie d x).pools = s.pools := rfl
@[simp] theorem State.setDie_stamps (s : State) (d : Nat) (x : Die) : (s.setDie d x).stamps = s.stamps := rfl
@[simp] theorem State.setDie_keptMem (s : State) (d : Nat) (x : Die) : (s.setDie d x).keptMem = s.keptMem := rfl
@[simp] theorem State.setDie_hostLines (s : State) (d : Nat) (x : Die) : (s.setDie d x).hostLines = s.hostLines := rfl
@[simp] theorem State.setDie_alwPd (s : State) (d : Nat) (x : Die) : (s.setDie d x).alwPd = s.alwPd := rfl
@[simp] theorem State.setDie_brs (s : State) (d : Nat) (x : Die) : (s.setDie d x).brs = s.brs := rfl
@[simp] theorem State.setDie_msix (s : State) (d : Nat) (x : Die) : (s.setDie d x).msix = s.msix := rfl
@[simp] theorem State.setDie_answer (s : State) (d : Nat) (x : Die) : (s.setDie d x).answer = s.answer := rfl

/-! ### setSvc -/

@[simp] theorem State.setSvc_now (s : State) (n : Nat) (x : Svc) : (s.setSvc n x).now = s.now := rfl
@[simp] theorem State.setSvc_freeCount (s : State) (n : Nat) (x : Svc) : (s.setSvc n x).freeCount = s.freeCount := rfl
@[simp] theorem State.setSvc_cur (s : State) (n : Nat) (x : Svc) : (s.setSvc n x).cur = s.cur := rfl
@[simp] theorem State.setSvc_agenda (s : State) (n : Nat) (x : Svc) : (s.setSvc n x).agenda = s.agenda := rfl
@[simp] theorem State.setSvc_threads (s : State) (n : Nat) (x : Svc) : (s.setSvc n x).threads = s.threads := rfl
@[simp] theorem State.setSvc_cores (s : State) (n : Nat) (x : Svc) : (s.setSvc n x).cores = s.cores := rfl
@[simp] theorem State.setSvc_groups (s : State) (n : Nat) (x : Svc) : (s.setSvc n x).groups = s.groups := rfl
@[simp] theorem State.setSvc_dies (s : State) (n : Nat) (x : Svc) : (s.setSvc n x).dies = s.dies := rfl
@[simp] theorem State.setSvc_svcs (s : State) (n : Nat) (x : Svc) : (s.setSvc n x).svcs = s.svcs.set n x := rfl
@[simp] theorem State.setSvc_tasks (s : State) (n : Nat) (x : Svc) : (s.setSvc n x).tasks = s.tasks := rfl
@[simp] theorem State.setSvc_launches (s : State) (n : Nat) (x : Svc) : (s.setSvc n x).launches = s.launches := rfl
@[simp] theorem State.setSvc_lnq (s : State) (n : Nat) (x : Svc) : (s.setSvc n x).lnq = s.lnq := rfl
@[simp] theorem State.setSvc_waitAcc (s : State) (n : Nat) (x : Svc) : (s.setSvc n x).waitAcc = s.waitAcc := rfl
@[simp] theorem State.setSvc_nextTask (s : State) (n : Nat) (x : Svc) : (s.setSvc n x).nextTask = s.nextTask := rfl
@[simp] theorem State.setSvc_nextLaunch (s : State) (n : Nat) (x : Svc) : (s.setSvc n x).nextLaunch = s.nextLaunch := rfl
@[simp] theorem State.setSvc_nextLease (s : State) (n : Nat) (x : Svc) : (s.setSvc n x).nextLease = s.nextLease := rfl
@[simp] theorem State.setSvc_nextLeave (s : State) (n : Nat) (x : Svc) : (s.setSvc n x).nextLeave = s.nextLeave := rfl
@[simp] theorem State.setSvc_mem (s : State) (n : Nat) (x : Svc) : (s.setSvc n x).mem = s.mem := rfl
@[simp] theorem State.setSvc_poison (s : State) (n : Nat) (x : Svc) : (s.setSvc n x).poison = s.poison := rfl
@[simp] theorem State.setSvc_spPoison (s : State) (n : Nat) (x : Svc) : (s.setSvc n x).spPoison = s.spPoison := rfl
@[simp] theorem State.setSvc_regs (s : State) (n : Nat) (x : Svc) : (s.setSvc n x).regs = s.regs := rfl
@[simp] theorem State.setSvc_dcache (s : State) (n : Nat) (x : Svc) : (s.setSvc n x).dcache = s.dcache := rfl
@[simp] theorem State.setSvc_links (s : State) (n : Nat) (x : Svc) : (s.setSvc n x).links = s.links := rfl
@[simp] theorem State.setSvc_nextMsg (s : State) (n : Nat) (x : Svc) : (s.setSvc n x).nextMsg = s.nextMsg := rfl
@[simp] theorem State.setSvc_mesh (s : State) (n : Nat) (x : Svc) : (s.setSvc n x).mesh = s.mesh := rfl
@[simp] theorem State.setSvc_storeQ (s : State) (n : Nat) (x : Svc) : (s.setSvc n x).storeQ = s.storeQ := rfl
@[simp] theorem State.setSvc_homeQ (s : State) (n : Nat) (x : Svc) : (s.setSvc n x).homeQ = s.homeQ := rfl
@[simp] theorem State.setSvc_waits (s : State) (n : Nat) (x : Svc) : (s.setSvc n x).waits = s.waits := rfl
@[simp] theorem State.setSvc_drops (s : State) (n : Nat) (x : Svc) : (s.setSvc n x).drops = s.drops := rfl
@[simp] theorem State.setSvc_fab (s : State) (n : Nat) (x : Svc) : (s.setSvc n x).fab = s.fab := rfl
@[simp] theorem State.setSvc_nextFab (s : State) (n : Nat) (x : Svc) : (s.setSvc n x).nextFab = s.nextFab := rfl
@[simp] theorem State.setSvc_handles (s : State) (n : Nat) (x : Svc) : (s.setSvc n x).handles = s.handles := rfl
@[simp] theorem State.setSvc_leaseAsks (s : State) (n : Nat) (x : Svc) : (s.setSvc n x).leaseAsks = s.leaseAsks := rfl
@[simp] theorem State.setSvc_peerQ (s : State) (n : Nat) (x : Svc) : (s.setSvc n x).peerQ = s.peerQ := rfl
@[simp] theorem State.setSvc_tinvQ (s : State) (n : Nat) (x : Svc) : (s.setSvc n x).tinvQ = s.tinvQ := rfl
@[simp] theorem State.setSvc_paused (s : State) (n : Nat) (x : Svc) : (s.setSvc n x).paused = s.paused := rfl
@[simp] theorem State.setSvc_ackOwed (s : State) (n : Nat) (x : Svc) : (s.setSvc n x).ackOwed = s.ackOwed := rfl
@[simp] theorem State.setSvc_peerOut (s : State) (n : Nat) (x : Svc) : (s.setSvc n x).peerOut = s.peerOut := rfl
@[simp] theorem State.setSvc_preQ (s : State) (n : Nat) (x : Svc) : (s.setSvc n x).preQ = s.preQ := rfl
@[simp] theorem State.setSvc_heldSectors (s : State) (n : Nat) (x : Svc) : (s.setSvc n x).heldSectors = s.heldSectors := rfl
@[simp] theorem State.setSvc_fetches (s : State) (n : Nat) (x : Svc) : (s.setSvc n x).fetches = s.fetches := rfl
@[simp] theorem State.setSvc_hwPuts (s : State) (n : Nat) (x : Svc) : (s.setSvc n x).hwPuts = s.hwPuts := rfl
@[simp] theorem State.setSvc_pools (s : State) (n : Nat) (x : Svc) : (s.setSvc n x).pools = s.pools := rfl
@[simp] theorem State.setSvc_stamps (s : State) (n : Nat) (x : Svc) : (s.setSvc n x).stamps = s.stamps := rfl
@[simp] theorem State.setSvc_keptMem (s : State) (n : Nat) (x : Svc) : (s.setSvc n x).keptMem = s.keptMem := rfl
@[simp] theorem State.setSvc_hostLines (s : State) (n : Nat) (x : Svc) : (s.setSvc n x).hostLines = s.hostLines := rfl
@[simp] theorem State.setSvc_alwPd (s : State) (n : Nat) (x : Svc) : (s.setSvc n x).alwPd = s.alwPd := rfl
@[simp] theorem State.setSvc_brs (s : State) (n : Nat) (x : Svc) : (s.setSvc n x).brs = s.brs := rfl
@[simp] theorem State.setSvc_msix (s : State) (n : Nat) (x : Svc) : (s.setSvc n x).msix = s.msix := rfl
@[simp] theorem State.setSvc_answer (s : State) (n : Nat) (x : Svc) : (s.setSvc n x).answer = s.answer := rfl

/-! ### setLink -/

@[simp] theorem State.setLink_now (s : State) (l : Nat) (x : Link) : (s.setLink l x).now = s.now := rfl
@[simp] theorem State.setLink_freeCount (s : State) (l : Nat) (x : Link) : (s.setLink l x).freeCount = s.freeCount := rfl
@[simp] theorem State.setLink_cur (s : State) (l : Nat) (x : Link) : (s.setLink l x).cur = s.cur := rfl
@[simp] theorem State.setLink_agenda (s : State) (l : Nat) (x : Link) : (s.setLink l x).agenda = s.agenda := rfl
@[simp] theorem State.setLink_threads (s : State) (l : Nat) (x : Link) : (s.setLink l x).threads = s.threads := rfl
@[simp] theorem State.setLink_cores (s : State) (l : Nat) (x : Link) : (s.setLink l x).cores = s.cores := rfl
@[simp] theorem State.setLink_groups (s : State) (l : Nat) (x : Link) : (s.setLink l x).groups = s.groups := rfl
@[simp] theorem State.setLink_dies (s : State) (l : Nat) (x : Link) : (s.setLink l x).dies = s.dies := rfl
@[simp] theorem State.setLink_svcs (s : State) (l : Nat) (x : Link) : (s.setLink l x).svcs = s.svcs := rfl
@[simp] theorem State.setLink_tasks (s : State) (l : Nat) (x : Link) : (s.setLink l x).tasks = s.tasks := rfl
@[simp] theorem State.setLink_launches (s : State) (l : Nat) (x : Link) : (s.setLink l x).launches = s.launches := rfl
@[simp] theorem State.setLink_lnq (s : State) (l : Nat) (x : Link) : (s.setLink l x).lnq = s.lnq := rfl
@[simp] theorem State.setLink_waitAcc (s : State) (l : Nat) (x : Link) : (s.setLink l x).waitAcc = s.waitAcc := rfl
@[simp] theorem State.setLink_nextTask (s : State) (l : Nat) (x : Link) : (s.setLink l x).nextTask = s.nextTask := rfl
@[simp] theorem State.setLink_nextLaunch (s : State) (l : Nat) (x : Link) : (s.setLink l x).nextLaunch = s.nextLaunch := rfl
@[simp] theorem State.setLink_nextLease (s : State) (l : Nat) (x : Link) : (s.setLink l x).nextLease = s.nextLease := rfl
@[simp] theorem State.setLink_nextLeave (s : State) (l : Nat) (x : Link) : (s.setLink l x).nextLeave = s.nextLeave := rfl
@[simp] theorem State.setLink_mem (s : State) (l : Nat) (x : Link) : (s.setLink l x).mem = s.mem := rfl
@[simp] theorem State.setLink_poison (s : State) (l : Nat) (x : Link) : (s.setLink l x).poison = s.poison := rfl
@[simp] theorem State.setLink_spPoison (s : State) (l : Nat) (x : Link) : (s.setLink l x).spPoison = s.spPoison := rfl
@[simp] theorem State.setLink_regs (s : State) (l : Nat) (x : Link) : (s.setLink l x).regs = s.regs := rfl
@[simp] theorem State.setLink_dcache (s : State) (l : Nat) (x : Link) : (s.setLink l x).dcache = s.dcache := rfl
@[simp] theorem State.setLink_links (s : State) (l : Nat) (x : Link) : (s.setLink l x).links = s.links.set l x := rfl
@[simp] theorem State.setLink_nextMsg (s : State) (l : Nat) (x : Link) : (s.setLink l x).nextMsg = s.nextMsg := rfl
@[simp] theorem State.setLink_mesh (s : State) (l : Nat) (x : Link) : (s.setLink l x).mesh = s.mesh := rfl
@[simp] theorem State.setLink_storeQ (s : State) (l : Nat) (x : Link) : (s.setLink l x).storeQ = s.storeQ := rfl
@[simp] theorem State.setLink_homeQ (s : State) (l : Nat) (x : Link) : (s.setLink l x).homeQ = s.homeQ := rfl
@[simp] theorem State.setLink_waits (s : State) (l : Nat) (x : Link) : (s.setLink l x).waits = s.waits := rfl
@[simp] theorem State.setLink_drops (s : State) (l : Nat) (x : Link) : (s.setLink l x).drops = s.drops := rfl
@[simp] theorem State.setLink_fab (s : State) (l : Nat) (x : Link) : (s.setLink l x).fab = s.fab := rfl
@[simp] theorem State.setLink_nextFab (s : State) (l : Nat) (x : Link) : (s.setLink l x).nextFab = s.nextFab := rfl
@[simp] theorem State.setLink_handles (s : State) (l : Nat) (x : Link) : (s.setLink l x).handles = s.handles := rfl
@[simp] theorem State.setLink_leaseAsks (s : State) (l : Nat) (x : Link) : (s.setLink l x).leaseAsks = s.leaseAsks := rfl
@[simp] theorem State.setLink_peerQ (s : State) (l : Nat) (x : Link) : (s.setLink l x).peerQ = s.peerQ := rfl
@[simp] theorem State.setLink_tinvQ (s : State) (l : Nat) (x : Link) : (s.setLink l x).tinvQ = s.tinvQ := rfl
@[simp] theorem State.setLink_paused (s : State) (l : Nat) (x : Link) : (s.setLink l x).paused = s.paused := rfl
@[simp] theorem State.setLink_ackOwed (s : State) (l : Nat) (x : Link) : (s.setLink l x).ackOwed = s.ackOwed := rfl
@[simp] theorem State.setLink_peerOut (s : State) (l : Nat) (x : Link) : (s.setLink l x).peerOut = s.peerOut := rfl
@[simp] theorem State.setLink_preQ (s : State) (l : Nat) (x : Link) : (s.setLink l x).preQ = s.preQ := rfl
@[simp] theorem State.setLink_heldSectors (s : State) (l : Nat) (x : Link) : (s.setLink l x).heldSectors = s.heldSectors := rfl
@[simp] theorem State.setLink_fetches (s : State) (l : Nat) (x : Link) : (s.setLink l x).fetches = s.fetches := rfl
@[simp] theorem State.setLink_hwPuts (s : State) (l : Nat) (x : Link) : (s.setLink l x).hwPuts = s.hwPuts := rfl
@[simp] theorem State.setLink_pools (s : State) (l : Nat) (x : Link) : (s.setLink l x).pools = s.pools := rfl
@[simp] theorem State.setLink_stamps (s : State) (l : Nat) (x : Link) : (s.setLink l x).stamps = s.stamps := rfl
@[simp] theorem State.setLink_keptMem (s : State) (l : Nat) (x : Link) : (s.setLink l x).keptMem = s.keptMem := rfl
@[simp] theorem State.setLink_hostLines (s : State) (l : Nat) (x : Link) : (s.setLink l x).hostLines = s.hostLines := rfl
@[simp] theorem State.setLink_alwPd (s : State) (l : Nat) (x : Link) : (s.setLink l x).alwPd = s.alwPd := rfl
@[simp] theorem State.setLink_brs (s : State) (l : Nat) (x : Link) : (s.setLink l x).brs = s.brs := rfl
@[simp] theorem State.setLink_msix (s : State) (l : Nat) (x : Link) : (s.setLink l x).msix = s.msix := rfl
@[simp] theorem State.setLink_answer (s : State) (l : Nat) (x : Link) : (s.setLink l x).answer = s.answer := rfl

/-! ### setReg -/

@[simp] theorem State.setReg_now (s : State) (r : Reg) (v : Word) : (s.setReg r v).now = s.now := rfl
@[simp] theorem State.setReg_freeCount (s : State) (r : Reg) (v : Word) : (s.setReg r v).freeCount = s.freeCount := rfl
@[simp] theorem State.setReg_cur (s : State) (r : Reg) (v : Word) : (s.setReg r v).cur = s.cur := rfl
@[simp] theorem State.setReg_agenda (s : State) (r : Reg) (v : Word) : (s.setReg r v).agenda = s.agenda := rfl
@[simp] theorem State.setReg_threads (s : State) (r : Reg) (v : Word) : (s.setReg r v).threads = s.threads := rfl
@[simp] theorem State.setReg_cores (s : State) (r : Reg) (v : Word) : (s.setReg r v).cores = s.cores := rfl
@[simp] theorem State.setReg_groups (s : State) (r : Reg) (v : Word) : (s.setReg r v).groups = s.groups := rfl
@[simp] theorem State.setReg_dies (s : State) (r : Reg) (v : Word) : (s.setReg r v).dies = s.dies := rfl
@[simp] theorem State.setReg_svcs (s : State) (r : Reg) (v : Word) : (s.setReg r v).svcs = s.svcs := rfl
@[simp] theorem State.setReg_tasks (s : State) (r : Reg) (v : Word) : (s.setReg r v).tasks = s.tasks := rfl
@[simp] theorem State.setReg_launches (s : State) (r : Reg) (v : Word) : (s.setReg r v).launches = s.launches := rfl
@[simp] theorem State.setReg_lnq (s : State) (r : Reg) (v : Word) : (s.setReg r v).lnq = s.lnq := rfl
@[simp] theorem State.setReg_waitAcc (s : State) (r : Reg) (v : Word) : (s.setReg r v).waitAcc = s.waitAcc := rfl
@[simp] theorem State.setReg_nextTask (s : State) (r : Reg) (v : Word) : (s.setReg r v).nextTask = s.nextTask := rfl
@[simp] theorem State.setReg_nextLaunch (s : State) (r : Reg) (v : Word) : (s.setReg r v).nextLaunch = s.nextLaunch := rfl
@[simp] theorem State.setReg_nextLease (s : State) (r : Reg) (v : Word) : (s.setReg r v).nextLease = s.nextLease := rfl
@[simp] theorem State.setReg_nextLeave (s : State) (r : Reg) (v : Word) : (s.setReg r v).nextLeave = s.nextLeave := rfl
@[simp] theorem State.setReg_mem (s : State) (r : Reg) (v : Word) : (s.setReg r v).mem = s.mem := rfl
@[simp] theorem State.setReg_poison (s : State) (r : Reg) (v : Word) : (s.setReg r v).poison = s.poison := rfl
@[simp] theorem State.setReg_spPoison (s : State) (r : Reg) (v : Word) : (s.setReg r v).spPoison = s.spPoison := rfl
@[simp] theorem State.setReg_regs (s : State) (r : Reg) (v : Word) : (s.setReg r v).regs = s.regs.set r.off v := rfl
@[simp] theorem State.setReg_dcache (s : State) (r : Reg) (v : Word) : (s.setReg r v).dcache = s.dcache := rfl
@[simp] theorem State.setReg_links (s : State) (r : Reg) (v : Word) : (s.setReg r v).links = s.links := rfl
@[simp] theorem State.setReg_nextMsg (s : State) (r : Reg) (v : Word) : (s.setReg r v).nextMsg = s.nextMsg := rfl
@[simp] theorem State.setReg_mesh (s : State) (r : Reg) (v : Word) : (s.setReg r v).mesh = s.mesh := rfl
@[simp] theorem State.setReg_storeQ (s : State) (r : Reg) (v : Word) : (s.setReg r v).storeQ = s.storeQ := rfl
@[simp] theorem State.setReg_homeQ (s : State) (r : Reg) (v : Word) : (s.setReg r v).homeQ = s.homeQ := rfl
@[simp] theorem State.setReg_waits (s : State) (r : Reg) (v : Word) : (s.setReg r v).waits = s.waits := rfl
@[simp] theorem State.setReg_drops (s : State) (r : Reg) (v : Word) : (s.setReg r v).drops = s.drops := rfl
@[simp] theorem State.setReg_fab (s : State) (r : Reg) (v : Word) : (s.setReg r v).fab = s.fab := rfl
@[simp] theorem State.setReg_nextFab (s : State) (r : Reg) (v : Word) : (s.setReg r v).nextFab = s.nextFab := rfl
@[simp] theorem State.setReg_handles (s : State) (r : Reg) (v : Word) : (s.setReg r v).handles = s.handles := rfl
@[simp] theorem State.setReg_leaseAsks (s : State) (r : Reg) (v : Word) : (s.setReg r v).leaseAsks = s.leaseAsks := rfl
@[simp] theorem State.setReg_peerQ (s : State) (r : Reg) (v : Word) : (s.setReg r v).peerQ = s.peerQ := rfl
@[simp] theorem State.setReg_tinvQ (s : State) (r : Reg) (v : Word) : (s.setReg r v).tinvQ = s.tinvQ := rfl
@[simp] theorem State.setReg_paused (s : State) (r : Reg) (v : Word) : (s.setReg r v).paused = s.paused := rfl
@[simp] theorem State.setReg_ackOwed (s : State) (r : Reg) (v : Word) : (s.setReg r v).ackOwed = s.ackOwed := rfl
@[simp] theorem State.setReg_peerOut (s : State) (r : Reg) (v : Word) : (s.setReg r v).peerOut = s.peerOut := rfl
@[simp] theorem State.setReg_preQ (s : State) (r : Reg) (v : Word) : (s.setReg r v).preQ = s.preQ := rfl
@[simp] theorem State.setReg_heldSectors (s : State) (r : Reg) (v : Word) : (s.setReg r v).heldSectors = s.heldSectors := rfl
@[simp] theorem State.setReg_fetches (s : State) (r : Reg) (v : Word) : (s.setReg r v).fetches = s.fetches := rfl
@[simp] theorem State.setReg_hwPuts (s : State) (r : Reg) (v : Word) : (s.setReg r v).hwPuts = s.hwPuts := rfl
@[simp] theorem State.setReg_pools (s : State) (r : Reg) (v : Word) : (s.setReg r v).pools = s.pools := rfl
@[simp] theorem State.setReg_stamps (s : State) (r : Reg) (v : Word) : (s.setReg r v).stamps = s.stamps := rfl
@[simp] theorem State.setReg_keptMem (s : State) (r : Reg) (v : Word) : (s.setReg r v).keptMem = s.keptMem := rfl
@[simp] theorem State.setReg_hostLines (s : State) (r : Reg) (v : Word) : (s.setReg r v).hostLines = s.hostLines := rfl
@[simp] theorem State.setReg_alwPd (s : State) (r : Reg) (v : Word) : (s.setReg r v).alwPd = s.alwPd := rfl
@[simp] theorem State.setReg_brs (s : State) (r : Reg) (v : Word) : (s.setReg r v).brs = s.brs := rfl
@[simp] theorem State.setReg_msix (s : State) (r : Reg) (v : Word) : (s.setReg r v).msix = s.msix := rfl
@[simp] theorem State.setReg_answer (s : State) (r : Reg) (v : Word) : (s.setReg r v).answer = s.answer := rfl

/-! ### setLnq -/

@[simp] theorem State.setLnq_now (s : State) (n q : Nat) (x : LnqSt) : (s.setLnq n q x).now = s.now := rfl
@[simp] theorem State.setLnq_freeCount (s : State) (n q : Nat) (x : LnqSt) : (s.setLnq n q x).freeCount = s.freeCount := rfl
@[simp] theorem State.setLnq_cur (s : State) (n q : Nat) (x : LnqSt) : (s.setLnq n q x).cur = s.cur := rfl
@[simp] theorem State.setLnq_agenda (s : State) (n q : Nat) (x : LnqSt) : (s.setLnq n q x).agenda = s.agenda := rfl
@[simp] theorem State.setLnq_threads (s : State) (n q : Nat) (x : LnqSt) : (s.setLnq n q x).threads = s.threads := rfl
@[simp] theorem State.setLnq_cores (s : State) (n q : Nat) (x : LnqSt) : (s.setLnq n q x).cores = s.cores := rfl
@[simp] theorem State.setLnq_groups (s : State) (n q : Nat) (x : LnqSt) : (s.setLnq n q x).groups = s.groups := rfl
@[simp] theorem State.setLnq_dies (s : State) (n q : Nat) (x : LnqSt) : (s.setLnq n q x).dies = s.dies := rfl
@[simp] theorem State.setLnq_svcs (s : State) (n q : Nat) (x : LnqSt) : (s.setLnq n q x).svcs = s.svcs := rfl
@[simp] theorem State.setLnq_tasks (s : State) (n q : Nat) (x : LnqSt) : (s.setLnq n q x).tasks = s.tasks := rfl
@[simp] theorem State.setLnq_launches (s : State) (n q : Nat) (x : LnqSt) : (s.setLnq n q x).launches = s.launches := rfl
@[simp] theorem State.setLnq_lnq (s : State) (n q : Nat) (x : LnqSt) : (s.setLnq n q x).lnq = s.lnq.set (16 * n + q) x := rfl
@[simp] theorem State.setLnq_waitAcc (s : State) (n q : Nat) (x : LnqSt) : (s.setLnq n q x).waitAcc = s.waitAcc := rfl
@[simp] theorem State.setLnq_nextTask (s : State) (n q : Nat) (x : LnqSt) : (s.setLnq n q x).nextTask = s.nextTask := rfl
@[simp] theorem State.setLnq_nextLaunch (s : State) (n q : Nat) (x : LnqSt) : (s.setLnq n q x).nextLaunch = s.nextLaunch := rfl
@[simp] theorem State.setLnq_nextLease (s : State) (n q : Nat) (x : LnqSt) : (s.setLnq n q x).nextLease = s.nextLease := rfl
@[simp] theorem State.setLnq_nextLeave (s : State) (n q : Nat) (x : LnqSt) : (s.setLnq n q x).nextLeave = s.nextLeave := rfl
@[simp] theorem State.setLnq_mem (s : State) (n q : Nat) (x : LnqSt) : (s.setLnq n q x).mem = s.mem := rfl
@[simp] theorem State.setLnq_poison (s : State) (n q : Nat) (x : LnqSt) : (s.setLnq n q x).poison = s.poison := rfl
@[simp] theorem State.setLnq_spPoison (s : State) (n q : Nat) (x : LnqSt) : (s.setLnq n q x).spPoison = s.spPoison := rfl
@[simp] theorem State.setLnq_regs (s : State) (n q : Nat) (x : LnqSt) : (s.setLnq n q x).regs = s.regs := rfl
@[simp] theorem State.setLnq_dcache (s : State) (n q : Nat) (x : LnqSt) : (s.setLnq n q x).dcache = s.dcache := rfl
@[simp] theorem State.setLnq_links (s : State) (n q : Nat) (x : LnqSt) : (s.setLnq n q x).links = s.links := rfl
@[simp] theorem State.setLnq_nextMsg (s : State) (n q : Nat) (x : LnqSt) : (s.setLnq n q x).nextMsg = s.nextMsg := rfl
@[simp] theorem State.setLnq_mesh (s : State) (n q : Nat) (x : LnqSt) : (s.setLnq n q x).mesh = s.mesh := rfl
@[simp] theorem State.setLnq_storeQ (s : State) (n q : Nat) (x : LnqSt) : (s.setLnq n q x).storeQ = s.storeQ := rfl
@[simp] theorem State.setLnq_homeQ (s : State) (n q : Nat) (x : LnqSt) : (s.setLnq n q x).homeQ = s.homeQ := rfl
@[simp] theorem State.setLnq_waits (s : State) (n q : Nat) (x : LnqSt) : (s.setLnq n q x).waits = s.waits := rfl
@[simp] theorem State.setLnq_drops (s : State) (n q : Nat) (x : LnqSt) : (s.setLnq n q x).drops = s.drops := rfl
@[simp] theorem State.setLnq_fab (s : State) (n q : Nat) (x : LnqSt) : (s.setLnq n q x).fab = s.fab := rfl
@[simp] theorem State.setLnq_nextFab (s : State) (n q : Nat) (x : LnqSt) : (s.setLnq n q x).nextFab = s.nextFab := rfl
@[simp] theorem State.setLnq_handles (s : State) (n q : Nat) (x : LnqSt) : (s.setLnq n q x).handles = s.handles := rfl
@[simp] theorem State.setLnq_leaseAsks (s : State) (n q : Nat) (x : LnqSt) : (s.setLnq n q x).leaseAsks = s.leaseAsks := rfl
@[simp] theorem State.setLnq_peerQ (s : State) (n q : Nat) (x : LnqSt) : (s.setLnq n q x).peerQ = s.peerQ := rfl
@[simp] theorem State.setLnq_tinvQ (s : State) (n q : Nat) (x : LnqSt) : (s.setLnq n q x).tinvQ = s.tinvQ := rfl
@[simp] theorem State.setLnq_paused (s : State) (n q : Nat) (x : LnqSt) : (s.setLnq n q x).paused = s.paused := rfl
@[simp] theorem State.setLnq_ackOwed (s : State) (n q : Nat) (x : LnqSt) : (s.setLnq n q x).ackOwed = s.ackOwed := rfl
@[simp] theorem State.setLnq_peerOut (s : State) (n q : Nat) (x : LnqSt) : (s.setLnq n q x).peerOut = s.peerOut := rfl
@[simp] theorem State.setLnq_preQ (s : State) (n q : Nat) (x : LnqSt) : (s.setLnq n q x).preQ = s.preQ := rfl
@[simp] theorem State.setLnq_heldSectors (s : State) (n q : Nat) (x : LnqSt) : (s.setLnq n q x).heldSectors = s.heldSectors := rfl
@[simp] theorem State.setLnq_fetches (s : State) (n q : Nat) (x : LnqSt) : (s.setLnq n q x).fetches = s.fetches := rfl
@[simp] theorem State.setLnq_hwPuts (s : State) (n q : Nat) (x : LnqSt) : (s.setLnq n q x).hwPuts = s.hwPuts := rfl
@[simp] theorem State.setLnq_pools (s : State) (n q : Nat) (x : LnqSt) : (s.setLnq n q x).pools = s.pools := rfl
@[simp] theorem State.setLnq_stamps (s : State) (n q : Nat) (x : LnqSt) : (s.setLnq n q x).stamps = s.stamps := rfl
@[simp] theorem State.setLnq_keptMem (s : State) (n q : Nat) (x : LnqSt) : (s.setLnq n q x).keptMem = s.keptMem := rfl
@[simp] theorem State.setLnq_hostLines (s : State) (n q : Nat) (x : LnqSt) : (s.setLnq n q x).hostLines = s.hostLines := rfl
@[simp] theorem State.setLnq_alwPd (s : State) (n q : Nat) (x : LnqSt) : (s.setLnq n q x).alwPd = s.alwPd := rfl
@[simp] theorem State.setLnq_brs (s : State) (n q : Nat) (x : LnqSt) : (s.setLnq n q x).brs = s.brs := rfl
@[simp] theorem State.setLnq_msix (s : State) (n q : Nat) (x : LnqSt) : (s.setLnq n q x).msix = s.msix := rfl
@[simp] theorem State.setLnq_answer (s : State) (n q : Nat) (x : LnqSt) : (s.setLnq n q x).answer = s.answer := rfl

/-! ### modTask -/

@[simp] theorem State.modTask_now (s : State) (id : Nat) (f : Task → Task) : (s.modTask id f).now = s.now := rfl
@[simp] theorem State.modTask_freeCount (s : State) (id : Nat) (f : Task → Task) : (s.modTask id f).freeCount = s.freeCount := rfl
@[simp] theorem State.modTask_cur (s : State) (id : Nat) (f : Task → Task) : (s.modTask id f).cur = s.cur := rfl
@[simp] theorem State.modTask_agenda (s : State) (id : Nat) (f : Task → Task) : (s.modTask id f).agenda = s.agenda := rfl
@[simp] theorem State.modTask_threads (s : State) (id : Nat) (f : Task → Task) : (s.modTask id f).threads = s.threads := rfl
@[simp] theorem State.modTask_cores (s : State) (id : Nat) (f : Task → Task) : (s.modTask id f).cores = s.cores := rfl
@[simp] theorem State.modTask_groups (s : State) (id : Nat) (f : Task → Task) : (s.modTask id f).groups = s.groups := rfl
@[simp] theorem State.modTask_dies (s : State) (id : Nat) (f : Task → Task) : (s.modTask id f).dies = s.dies := rfl
@[simp] theorem State.modTask_svcs (s : State) (id : Nat) (f : Task → Task) : (s.modTask id f).svcs = s.svcs := rfl
@[simp] theorem State.modTask_tasks (s : State) (id : Nat) (f : Task → Task) : (s.modTask id f).tasks = s.tasks.map (fun t => if t.id == id then f t else t) := rfl
@[simp] theorem State.modTask_launches (s : State) (id : Nat) (f : Task → Task) : (s.modTask id f).launches = s.launches := rfl
@[simp] theorem State.modTask_lnq (s : State) (id : Nat) (f : Task → Task) : (s.modTask id f).lnq = s.lnq := rfl
@[simp] theorem State.modTask_waitAcc (s : State) (id : Nat) (f : Task → Task) : (s.modTask id f).waitAcc = s.waitAcc := rfl
@[simp] theorem State.modTask_nextTask (s : State) (id : Nat) (f : Task → Task) : (s.modTask id f).nextTask = s.nextTask := rfl
@[simp] theorem State.modTask_nextLaunch (s : State) (id : Nat) (f : Task → Task) : (s.modTask id f).nextLaunch = s.nextLaunch := rfl
@[simp] theorem State.modTask_nextLease (s : State) (id : Nat) (f : Task → Task) : (s.modTask id f).nextLease = s.nextLease := rfl
@[simp] theorem State.modTask_nextLeave (s : State) (id : Nat) (f : Task → Task) : (s.modTask id f).nextLeave = s.nextLeave := rfl
@[simp] theorem State.modTask_mem (s : State) (id : Nat) (f : Task → Task) : (s.modTask id f).mem = s.mem := rfl
@[simp] theorem State.modTask_poison (s : State) (id : Nat) (f : Task → Task) : (s.modTask id f).poison = s.poison := rfl
@[simp] theorem State.modTask_spPoison (s : State) (id : Nat) (f : Task → Task) : (s.modTask id f).spPoison = s.spPoison := rfl
@[simp] theorem State.modTask_regs (s : State) (id : Nat) (f : Task → Task) : (s.modTask id f).regs = s.regs := rfl
@[simp] theorem State.modTask_dcache (s : State) (id : Nat) (f : Task → Task) : (s.modTask id f).dcache = s.dcache := rfl
@[simp] theorem State.modTask_links (s : State) (id : Nat) (f : Task → Task) : (s.modTask id f).links = s.links := rfl
@[simp] theorem State.modTask_nextMsg (s : State) (id : Nat) (f : Task → Task) : (s.modTask id f).nextMsg = s.nextMsg := rfl
@[simp] theorem State.modTask_mesh (s : State) (id : Nat) (f : Task → Task) : (s.modTask id f).mesh = s.mesh := rfl
@[simp] theorem State.modTask_storeQ (s : State) (id : Nat) (f : Task → Task) : (s.modTask id f).storeQ = s.storeQ := rfl
@[simp] theorem State.modTask_homeQ (s : State) (id : Nat) (f : Task → Task) : (s.modTask id f).homeQ = s.homeQ := rfl
@[simp] theorem State.modTask_waits (s : State) (id : Nat) (f : Task → Task) : (s.modTask id f).waits = s.waits := rfl
@[simp] theorem State.modTask_drops (s : State) (id : Nat) (f : Task → Task) : (s.modTask id f).drops = s.drops := rfl
@[simp] theorem State.modTask_fab (s : State) (id : Nat) (f : Task → Task) : (s.modTask id f).fab = s.fab := rfl
@[simp] theorem State.modTask_nextFab (s : State) (id : Nat) (f : Task → Task) : (s.modTask id f).nextFab = s.nextFab := rfl
@[simp] theorem State.modTask_handles (s : State) (id : Nat) (f : Task → Task) : (s.modTask id f).handles = s.handles := rfl
@[simp] theorem State.modTask_leaseAsks (s : State) (id : Nat) (f : Task → Task) : (s.modTask id f).leaseAsks = s.leaseAsks := rfl
@[simp] theorem State.modTask_peerQ (s : State) (id : Nat) (f : Task → Task) : (s.modTask id f).peerQ = s.peerQ := rfl
@[simp] theorem State.modTask_tinvQ (s : State) (id : Nat) (f : Task → Task) : (s.modTask id f).tinvQ = s.tinvQ := rfl
@[simp] theorem State.modTask_paused (s : State) (id : Nat) (f : Task → Task) : (s.modTask id f).paused = s.paused := rfl
@[simp] theorem State.modTask_ackOwed (s : State) (id : Nat) (f : Task → Task) : (s.modTask id f).ackOwed = s.ackOwed := rfl
@[simp] theorem State.modTask_peerOut (s : State) (id : Nat) (f : Task → Task) : (s.modTask id f).peerOut = s.peerOut := rfl
@[simp] theorem State.modTask_preQ (s : State) (id : Nat) (f : Task → Task) : (s.modTask id f).preQ = s.preQ := rfl
@[simp] theorem State.modTask_heldSectors (s : State) (id : Nat) (f : Task → Task) : (s.modTask id f).heldSectors = s.heldSectors := rfl
@[simp] theorem State.modTask_fetches (s : State) (id : Nat) (f : Task → Task) : (s.modTask id f).fetches = s.fetches := rfl
@[simp] theorem State.modTask_hwPuts (s : State) (id : Nat) (f : Task → Task) : (s.modTask id f).hwPuts = s.hwPuts := rfl
@[simp] theorem State.modTask_pools (s : State) (id : Nat) (f : Task → Task) : (s.modTask id f).pools = s.pools := rfl
@[simp] theorem State.modTask_stamps (s : State) (id : Nat) (f : Task → Task) : (s.modTask id f).stamps = s.stamps := rfl
@[simp] theorem State.modTask_keptMem (s : State) (id : Nat) (f : Task → Task) : (s.modTask id f).keptMem = s.keptMem := rfl
@[simp] theorem State.modTask_hostLines (s : State) (id : Nat) (f : Task → Task) : (s.modTask id f).hostLines = s.hostLines := rfl
@[simp] theorem State.modTask_alwPd (s : State) (id : Nat) (f : Task → Task) : (s.modTask id f).alwPd = s.alwPd := rfl
@[simp] theorem State.modTask_brs (s : State) (id : Nat) (f : Task → Task) : (s.modTask id f).brs = s.brs := rfl
@[simp] theorem State.modTask_msix (s : State) (id : Nat) (f : Task → Task) : (s.modTask id f).msix = s.msix := rfl
@[simp] theorem State.modTask_answer (s : State) (id : Nat) (f : Task → Task) : (s.modTask id f).answer = s.answer := rfl

/-! ### modGroup -/

@[simp] theorem State.modGroup_now (s : State) (task j : Nat) (f : Group → Group) : (s.modGroup task j f).now = s.now := rfl
@[simp] theorem State.modGroup_freeCount (s : State) (task j : Nat) (f : Group → Group) : (s.modGroup task j f).freeCount = s.freeCount := rfl
@[simp] theorem State.modGroup_cur (s : State) (task j : Nat) (f : Group → Group) : (s.modGroup task j f).cur = s.cur := rfl
@[simp] theorem State.modGroup_agenda (s : State) (task j : Nat) (f : Group → Group) : (s.modGroup task j f).agenda = s.agenda := rfl
@[simp] theorem State.modGroup_threads (s : State) (task j : Nat) (f : Group → Group) : (s.modGroup task j f).threads = s.threads := rfl
@[simp] theorem State.modGroup_cores (s : State) (task j : Nat) (f : Group → Group) : (s.modGroup task j f).cores = s.cores := rfl
@[simp] theorem State.modGroup_groups (s : State) (task j : Nat) (f : Group → Group) : (s.modGroup task j f).groups = s.groups.map (fun g => if g.task == task && g.j == j then f g else g) := rfl
@[simp] theorem State.modGroup_dies (s : State) (task j : Nat) (f : Group → Group) : (s.modGroup task j f).dies = s.dies := rfl
@[simp] theorem State.modGroup_svcs (s : State) (task j : Nat) (f : Group → Group) : (s.modGroup task j f).svcs = s.svcs := rfl
@[simp] theorem State.modGroup_tasks (s : State) (task j : Nat) (f : Group → Group) : (s.modGroup task j f).tasks = s.tasks := rfl
@[simp] theorem State.modGroup_launches (s : State) (task j : Nat) (f : Group → Group) : (s.modGroup task j f).launches = s.launches := rfl
@[simp] theorem State.modGroup_lnq (s : State) (task j : Nat) (f : Group → Group) : (s.modGroup task j f).lnq = s.lnq := rfl
@[simp] theorem State.modGroup_waitAcc (s : State) (task j : Nat) (f : Group → Group) : (s.modGroup task j f).waitAcc = s.waitAcc := rfl
@[simp] theorem State.modGroup_nextTask (s : State) (task j : Nat) (f : Group → Group) : (s.modGroup task j f).nextTask = s.nextTask := rfl
@[simp] theorem State.modGroup_nextLaunch (s : State) (task j : Nat) (f : Group → Group) : (s.modGroup task j f).nextLaunch = s.nextLaunch := rfl
@[simp] theorem State.modGroup_nextLease (s : State) (task j : Nat) (f : Group → Group) : (s.modGroup task j f).nextLease = s.nextLease := rfl
@[simp] theorem State.modGroup_nextLeave (s : State) (task j : Nat) (f : Group → Group) : (s.modGroup task j f).nextLeave = s.nextLeave := rfl
@[simp] theorem State.modGroup_mem (s : State) (task j : Nat) (f : Group → Group) : (s.modGroup task j f).mem = s.mem := rfl
@[simp] theorem State.modGroup_poison (s : State) (task j : Nat) (f : Group → Group) : (s.modGroup task j f).poison = s.poison := rfl
@[simp] theorem State.modGroup_spPoison (s : State) (task j : Nat) (f : Group → Group) : (s.modGroup task j f).spPoison = s.spPoison := rfl
@[simp] theorem State.modGroup_regs (s : State) (task j : Nat) (f : Group → Group) : (s.modGroup task j f).regs = s.regs := rfl
@[simp] theorem State.modGroup_dcache (s : State) (task j : Nat) (f : Group → Group) : (s.modGroup task j f).dcache = s.dcache := rfl
@[simp] theorem State.modGroup_links (s : State) (task j : Nat) (f : Group → Group) : (s.modGroup task j f).links = s.links := rfl
@[simp] theorem State.modGroup_nextMsg (s : State) (task j : Nat) (f : Group → Group) : (s.modGroup task j f).nextMsg = s.nextMsg := rfl
@[simp] theorem State.modGroup_mesh (s : State) (task j : Nat) (f : Group → Group) : (s.modGroup task j f).mesh = s.mesh := rfl
@[simp] theorem State.modGroup_storeQ (s : State) (task j : Nat) (f : Group → Group) : (s.modGroup task j f).storeQ = s.storeQ := rfl
@[simp] theorem State.modGroup_homeQ (s : State) (task j : Nat) (f : Group → Group) : (s.modGroup task j f).homeQ = s.homeQ := rfl
@[simp] theorem State.modGroup_waits (s : State) (task j : Nat) (f : Group → Group) : (s.modGroup task j f).waits = s.waits := rfl
@[simp] theorem State.modGroup_drops (s : State) (task j : Nat) (f : Group → Group) : (s.modGroup task j f).drops = s.drops := rfl
@[simp] theorem State.modGroup_fab (s : State) (task j : Nat) (f : Group → Group) : (s.modGroup task j f).fab = s.fab := rfl
@[simp] theorem State.modGroup_nextFab (s : State) (task j : Nat) (f : Group → Group) : (s.modGroup task j f).nextFab = s.nextFab := rfl
@[simp] theorem State.modGroup_handles (s : State) (task j : Nat) (f : Group → Group) : (s.modGroup task j f).handles = s.handles := rfl
@[simp] theorem State.modGroup_leaseAsks (s : State) (task j : Nat) (f : Group → Group) : (s.modGroup task j f).leaseAsks = s.leaseAsks := rfl
@[simp] theorem State.modGroup_peerQ (s : State) (task j : Nat) (f : Group → Group) : (s.modGroup task j f).peerQ = s.peerQ := rfl
@[simp] theorem State.modGroup_tinvQ (s : State) (task j : Nat) (f : Group → Group) : (s.modGroup task j f).tinvQ = s.tinvQ := rfl
@[simp] theorem State.modGroup_paused (s : State) (task j : Nat) (f : Group → Group) : (s.modGroup task j f).paused = s.paused := rfl
@[simp] theorem State.modGroup_ackOwed (s : State) (task j : Nat) (f : Group → Group) : (s.modGroup task j f).ackOwed = s.ackOwed := rfl
@[simp] theorem State.modGroup_peerOut (s : State) (task j : Nat) (f : Group → Group) : (s.modGroup task j f).peerOut = s.peerOut := rfl
@[simp] theorem State.modGroup_preQ (s : State) (task j : Nat) (f : Group → Group) : (s.modGroup task j f).preQ = s.preQ := rfl
@[simp] theorem State.modGroup_heldSectors (s : State) (task j : Nat) (f : Group → Group) : (s.modGroup task j f).heldSectors = s.heldSectors := rfl
@[simp] theorem State.modGroup_fetches (s : State) (task j : Nat) (f : Group → Group) : (s.modGroup task j f).fetches = s.fetches := rfl
@[simp] theorem State.modGroup_hwPuts (s : State) (task j : Nat) (f : Group → Group) : (s.modGroup task j f).hwPuts = s.hwPuts := rfl
@[simp] theorem State.modGroup_pools (s : State) (task j : Nat) (f : Group → Group) : (s.modGroup task j f).pools = s.pools := rfl
@[simp] theorem State.modGroup_stamps (s : State) (task j : Nat) (f : Group → Group) : (s.modGroup task j f).stamps = s.stamps := rfl
@[simp] theorem State.modGroup_keptMem (s : State) (task j : Nat) (f : Group → Group) : (s.modGroup task j f).keptMem = s.keptMem := rfl
@[simp] theorem State.modGroup_hostLines (s : State) (task j : Nat) (f : Group → Group) : (s.modGroup task j f).hostLines = s.hostLines := rfl
@[simp] theorem State.modGroup_alwPd (s : State) (task j : Nat) (f : Group → Group) : (s.modGroup task j f).alwPd = s.alwPd := rfl
@[simp] theorem State.modGroup_brs (s : State) (task j : Nat) (f : Group → Group) : (s.modGroup task j f).brs = s.brs := rfl
@[simp] theorem State.modGroup_msix (s : State) (task j : Nat) (f : Group → Group) : (s.modGroup task j f).msix = s.msix := rfl
@[simp] theorem State.modGroup_answer (s : State) (task j : Nat) (f : Group → Group) : (s.modGroup task j f).answer = s.answer := rfl

/-! ### later -/

@[simp] theorem State.later_now (s : State) (is : List Event) : (s.later is).now = s.now := rfl
@[simp] theorem State.later_freeCount (s : State) (is : List Event) : (s.later is).freeCount = s.freeCount := rfl
@[simp] theorem State.later_cur (s : State) (is : List Event) : (s.later is).cur = s.cur := rfl
@[simp] theorem State.later_agenda (s : State) (is : List Event) : (s.later is).agenda = s.agenda ++ is := rfl
@[simp] theorem State.later_threads (s : State) (is : List Event) : (s.later is).threads = s.threads := rfl
@[simp] theorem State.later_cores (s : State) (is : List Event) : (s.later is).cores = s.cores := rfl
@[simp] theorem State.later_groups (s : State) (is : List Event) : (s.later is).groups = s.groups := rfl
@[simp] theorem State.later_dies (s : State) (is : List Event) : (s.later is).dies = s.dies := rfl
@[simp] theorem State.later_svcs (s : State) (is : List Event) : (s.later is).svcs = s.svcs := rfl
@[simp] theorem State.later_tasks (s : State) (is : List Event) : (s.later is).tasks = s.tasks := rfl
@[simp] theorem State.later_launches (s : State) (is : List Event) : (s.later is).launches = s.launches := rfl
@[simp] theorem State.later_lnq (s : State) (is : List Event) : (s.later is).lnq = s.lnq := rfl
@[simp] theorem State.later_waitAcc (s : State) (is : List Event) : (s.later is).waitAcc = s.waitAcc := rfl
@[simp] theorem State.later_nextTask (s : State) (is : List Event) : (s.later is).nextTask = s.nextTask := rfl
@[simp] theorem State.later_nextLaunch (s : State) (is : List Event) : (s.later is).nextLaunch = s.nextLaunch := rfl
@[simp] theorem State.later_nextLease (s : State) (is : List Event) : (s.later is).nextLease = s.nextLease := rfl
@[simp] theorem State.later_nextLeave (s : State) (is : List Event) : (s.later is).nextLeave = s.nextLeave := rfl
@[simp] theorem State.later_mem (s : State) (is : List Event) : (s.later is).mem = s.mem := rfl
@[simp] theorem State.later_poison (s : State) (is : List Event) : (s.later is).poison = s.poison := rfl
@[simp] theorem State.later_spPoison (s : State) (is : List Event) : (s.later is).spPoison = s.spPoison := rfl
@[simp] theorem State.later_regs (s : State) (is : List Event) : (s.later is).regs = s.regs := rfl
@[simp] theorem State.later_dcache (s : State) (is : List Event) : (s.later is).dcache = s.dcache := rfl
@[simp] theorem State.later_links (s : State) (is : List Event) : (s.later is).links = s.links := rfl
@[simp] theorem State.later_nextMsg (s : State) (is : List Event) : (s.later is).nextMsg = s.nextMsg := rfl
@[simp] theorem State.later_mesh (s : State) (is : List Event) : (s.later is).mesh = s.mesh := rfl
@[simp] theorem State.later_storeQ (s : State) (is : List Event) : (s.later is).storeQ = s.storeQ := rfl
@[simp] theorem State.later_homeQ (s : State) (is : List Event) : (s.later is).homeQ = s.homeQ := rfl
@[simp] theorem State.later_waits (s : State) (is : List Event) : (s.later is).waits = s.waits := rfl
@[simp] theorem State.later_drops (s : State) (is : List Event) : (s.later is).drops = s.drops := rfl
@[simp] theorem State.later_fab (s : State) (is : List Event) : (s.later is).fab = s.fab := rfl
@[simp] theorem State.later_nextFab (s : State) (is : List Event) : (s.later is).nextFab = s.nextFab := rfl
@[simp] theorem State.later_handles (s : State) (is : List Event) : (s.later is).handles = s.handles := rfl
@[simp] theorem State.later_leaseAsks (s : State) (is : List Event) : (s.later is).leaseAsks = s.leaseAsks := rfl
@[simp] theorem State.later_peerQ (s : State) (is : List Event) : (s.later is).peerQ = s.peerQ := rfl
@[simp] theorem State.later_tinvQ (s : State) (is : List Event) : (s.later is).tinvQ = s.tinvQ := rfl
@[simp] theorem State.later_paused (s : State) (is : List Event) : (s.later is).paused = s.paused := rfl
@[simp] theorem State.later_ackOwed (s : State) (is : List Event) : (s.later is).ackOwed = s.ackOwed := rfl
@[simp] theorem State.later_peerOut (s : State) (is : List Event) : (s.later is).peerOut = s.peerOut := rfl
@[simp] theorem State.later_preQ (s : State) (is : List Event) : (s.later is).preQ = s.preQ := rfl
@[simp] theorem State.later_heldSectors (s : State) (is : List Event) : (s.later is).heldSectors = s.heldSectors := rfl
@[simp] theorem State.later_fetches (s : State) (is : List Event) : (s.later is).fetches = s.fetches := rfl
@[simp] theorem State.later_hwPuts (s : State) (is : List Event) : (s.later is).hwPuts = s.hwPuts := rfl
@[simp] theorem State.later_pools (s : State) (is : List Event) : (s.later is).pools = s.pools := rfl
@[simp] theorem State.later_stamps (s : State) (is : List Event) : (s.later is).stamps = s.stamps := rfl
@[simp] theorem State.later_keptMem (s : State) (is : List Event) : (s.later is).keptMem = s.keptMem := rfl
@[simp] theorem State.later_hostLines (s : State) (is : List Event) : (s.later is).hostLines = s.hostLines := rfl
@[simp] theorem State.later_alwPd (s : State) (is : List Event) : (s.later is).alwPd = s.alwPd := rfl
@[simp] theorem State.later_brs (s : State) (is : List Event) : (s.later is).brs = s.brs := rfl
@[simp] theorem State.later_msix (s : State) (is : List Event) : (s.later is).msix = s.msix := rfl
@[simp] theorem State.later_answer (s : State) (is : List Event) : (s.later is).answer = s.answer := rfl

/-! ### bump -/

@[simp] theorem State.bump_now (s : State) : s.bump.now = s.now := rfl
@[simp] theorem State.bump_freeCount (s : State) : s.bump.freeCount = s.freeCount + 1 := rfl
@[simp] theorem State.bump_cur (s : State) : s.bump.cur = s.cur := rfl
@[simp] theorem State.bump_agenda (s : State) : s.bump.agenda = s.agenda := rfl
@[simp] theorem State.bump_threads (s : State) : s.bump.threads = s.threads := rfl
@[simp] theorem State.bump_cores (s : State) : s.bump.cores = s.cores := rfl
@[simp] theorem State.bump_groups (s : State) : s.bump.groups = s.groups := rfl
@[simp] theorem State.bump_dies (s : State) : s.bump.dies = s.dies := rfl
@[simp] theorem State.bump_svcs (s : State) : s.bump.svcs = s.svcs := rfl
@[simp] theorem State.bump_tasks (s : State) : s.bump.tasks = s.tasks := rfl
@[simp] theorem State.bump_launches (s : State) : s.bump.launches = s.launches := rfl
@[simp] theorem State.bump_lnq (s : State) : s.bump.lnq = s.lnq := rfl
@[simp] theorem State.bump_waitAcc (s : State) : s.bump.waitAcc = s.waitAcc := rfl
@[simp] theorem State.bump_nextTask (s : State) : s.bump.nextTask = s.nextTask := rfl
@[simp] theorem State.bump_nextLaunch (s : State) : s.bump.nextLaunch = s.nextLaunch := rfl
@[simp] theorem State.bump_nextLease (s : State) : s.bump.nextLease = s.nextLease := rfl
@[simp] theorem State.bump_nextLeave (s : State) : s.bump.nextLeave = s.nextLeave := rfl
@[simp] theorem State.bump_mem (s : State) : s.bump.mem = s.mem := rfl
@[simp] theorem State.bump_poison (s : State) : s.bump.poison = s.poison := rfl
@[simp] theorem State.bump_spPoison (s : State) : s.bump.spPoison = s.spPoison := rfl
@[simp] theorem State.bump_regs (s : State) : s.bump.regs = s.regs := rfl
@[simp] theorem State.bump_dcache (s : State) : s.bump.dcache = s.dcache := rfl
@[simp] theorem State.bump_links (s : State) : s.bump.links = s.links := rfl
@[simp] theorem State.bump_nextMsg (s : State) : s.bump.nextMsg = s.nextMsg := rfl
@[simp] theorem State.bump_mesh (s : State) : s.bump.mesh = s.mesh := rfl
@[simp] theorem State.bump_storeQ (s : State) : s.bump.storeQ = s.storeQ := rfl
@[simp] theorem State.bump_homeQ (s : State) : s.bump.homeQ = s.homeQ := rfl
@[simp] theorem State.bump_waits (s : State) : s.bump.waits = s.waits := rfl
@[simp] theorem State.bump_drops (s : State) : s.bump.drops = s.drops := rfl
@[simp] theorem State.bump_fab (s : State) : s.bump.fab = s.fab := rfl
@[simp] theorem State.bump_nextFab (s : State) : s.bump.nextFab = s.nextFab := rfl
@[simp] theorem State.bump_handles (s : State) : s.bump.handles = s.handles := rfl
@[simp] theorem State.bump_leaseAsks (s : State) : s.bump.leaseAsks = s.leaseAsks := rfl
@[simp] theorem State.bump_peerQ (s : State) : s.bump.peerQ = s.peerQ := rfl
@[simp] theorem State.bump_tinvQ (s : State) : s.bump.tinvQ = s.tinvQ := rfl
@[simp] theorem State.bump_paused (s : State) : s.bump.paused = s.paused := rfl
@[simp] theorem State.bump_ackOwed (s : State) : s.bump.ackOwed = s.ackOwed := rfl
@[simp] theorem State.bump_peerOut (s : State) : s.bump.peerOut = s.peerOut := rfl
@[simp] theorem State.bump_preQ (s : State) : s.bump.preQ = s.preQ := rfl
@[simp] theorem State.bump_heldSectors (s : State) : s.bump.heldSectors = s.heldSectors := rfl
@[simp] theorem State.bump_fetches (s : State) : s.bump.fetches = s.fetches := rfl
@[simp] theorem State.bump_hwPuts (s : State) : s.bump.hwPuts = s.hwPuts := rfl
@[simp] theorem State.bump_pools (s : State) : s.bump.pools = s.pools := rfl
@[simp] theorem State.bump_stamps (s : State) : s.bump.stamps = s.stamps := rfl
@[simp] theorem State.bump_keptMem (s : State) : s.bump.keptMem = s.keptMem := rfl
@[simp] theorem State.bump_hostLines (s : State) : s.bump.hostLines = s.hostLines := rfl
@[simp] theorem State.bump_alwPd (s : State) : s.bump.alwPd = s.alwPd := rfl
@[simp] theorem State.bump_brs (s : State) : s.bump.brs = s.brs := rfl
@[simp] theorem State.bump_msix (s : State) : s.bump.msix = s.msix := rfl
@[simp] theorem State.bump_answer (s : State) : s.bump.answer = s.answer := rfl

end Sys2Proof.Machine
end

