-- ==== Sys2Proof/Laws/Front.lean ====
section
/-!
SUPPORT. What a front word does to its thread: `sWord_ok`
says what an S word that takes effect does, and `sWord_wait` and `sWord_trap` what it does otherwise.
-/

set_option Elab.async false

namespace Sys2Proof.Machine

/-! ### The thread in its slot -/

theorem State.thread?_slot {s : State} {c t : Nat} {th : Thread} (h : s.thread? c t = some th) : th.c = c ∧ th.t = t := by
  have h2 := List.find?_some h
  simpa using h2

/-- The thread of a slot after a thread has been put back. -/
theorem State.thread?_setThread {s : State} {c t : Nat} {th x : Thread} (h : s.thread? c t = some th) (hc : x.c = c) (ht : x.t = t) :
    (s.setThread x).thread? c t = some x := by
  unfold State.thread? at *
  rw [State.setThread_threads]
  subst hc ht
  generalize s.threads = l at *
  induction l with
  | nil => simp at h
  | cons y r ih =>
    simp only [List.map_cons]
    by_cases hy : (y.c == x.c && y.t == x.t) = true
    · simp [hy]
    · rw [List.find?_cons_of_neg (by simpa using hy)] at h
      rw [if_neg hy, List.find?_cons_of_neg (by simpa using hy)]
      exact ih h

/-- Putting a thread back twice is putting back the second. -/
theorem State.setThread_setThread (s : State) (x y : Thread) (hc : x.c = y.c) (ht : x.t = y.t) :
    (s.setThread x).setThread y = s.setThread y := by
  have hl : (s.threads.map (fun z => if z.c == x.c && z.t == x.t then x else z)).map
      (fun z => if z.c == y.c && z.t == y.t then y else z) = s.threads.map (fun z => if z.c == y.c && z.t == y.t then y else z) := by
    rw [List.map_map]
    refine List.map_congr_left ?_
    intro z _
    by_cases hz : (z.c == y.c && z.t == y.t) = true
    · have hz2 : (z.c == x.c && z.t == x.t) = true := by rw [hc, ht]; exact hz
      simp only [Function.comp_apply, if_pos hz2, if_pos hz]
      simp [hc, ht]
    · have hz2 : ¬(z.c == x.c && z.t == x.t) = true := by rw [hc, ht]; exact hz
      simp only [Function.comp_apply, if_neg hz2, if_neg hz]
  unfold State.setThread
  exact congrArg (fun l => ({ s with threads := l } : State)) hl

/-! ### Front words -/

theorem State.traceLoops_quiet (s : State) (th : Thread) (q : Nat) (o n : List Loop) (h : th.csr.trc = 0) :
    s.traceLoops th q o n = s := by
  simp [State.traceLoops, Thread.traces, h]

theorem State.tryStop_free (s : State) (th : Thread) (h : th.issue.stopReq = 0) : s.tryStop th = s := by
  simp [State.tryStop, h]

@[simp] theorem Thread.log_c (th : Thread) (k : HistKind) : (th.log k).c = th.c := by unfold Thread.log; split <;> rfl
@[simp] theorem Thread.log_t (th : Thread) (k : HistKind) : (th.log k).t = th.t := by unfold Thread.log; split <;> rfl
@[simp] theorem Thread.log_csr (th : Thread) (k : HistKind) : (th.log k).csr = th.csr := by unfold Thread.log; split <;> rfl
@[simp] theorem Thread.log_issue (th : Thread) (k : HistKind) : (th.log k).issue = th.issue := by unfold Thread.log; split <;> rfl
@[simp] theorem Thread.log_f (th : Thread) (k : HistKind) : (th.log k).f = th.f := by unfold Thread.log; split <;> rfl
@[simp] theorem Thread.log_q (th : Thread) (k : HistKind) : (th.log k).q = th.q := by unfold Thread.log; split <;> rfl
@[simp] theorem Thread.log_aq (th : Thread) (k : HistKind) : (th.log k).aq = th.aq := by unfold Thread.log; split <;> rfl
@[simp] theorem Thread.log_seq (th : Thread) (k : HistKind) : (th.log k).seq = th.seq := by unfold Thread.log; split <;> rfl
@[simp] theorem Thread.log_loops (th : Thread) (k : HistKind) : (th.log k).loops = th.loops := by unfold Thread.log; split <;> rfl

/-- What a history entry keeps, several of them keep. -/
theorem Thread.logs_keep {α : Type} (f : Thread → α) (h : ∀ th k, f (Thread.log th k) = f th) (ks : List HistKind) (th : Thread) :
    f (ks.foldl Thread.log th) = f th := by
  induction ks generalizing th with
  | nil => rfl
  | cons k r ih => rw [List.foldl_cons, ih, h]

@[simp] theorem Thread.setLoops_c (th : Thread) (l : List Loop) : (th.setLoops l).c = th.c := Thread.logs_keep (·.c) Thread.log_c _ th
@[simp] theorem Thread.setLoops_t (th : Thread) (l : List Loop) : (th.setLoops l).t = th.t := Thread.logs_keep (·.t) Thread.log_t _ th
@[simp] theorem Thread.setLoops_csr (th : Thread) (l : List Loop) : (th.setLoops l).csr = th.csr :=
  Thread.logs_keep (·.csr) Thread.log_csr _ th
@[simp] theorem Thread.setLoops_issue (th : Thread) (l : List Loop) : (th.setLoops l).issue = th.issue :=
  Thread.logs_keep (·.issue) Thread.log_issue _ th
@[simp] theorem Thread.setLoops_f (th : Thread) (l : List Loop) : (th.setLoops l).f = th.f := Thread.logs_keep (·.f) Thread.log_f _ th
@[simp] theorem Thread.setLoops_q (th : Thread) (l : List Loop) : (th.setLoops l).q = th.q := Thread.logs_keep (·.q) Thread.log_q _ th
@[simp] theorem Thread.setLoops_loops (th : Thread) (l : List Loop) : (th.setLoops l).loops = l := rfl

theorem Thread.log_hist (th : Thread) (k : HistKind) : (th.log k).hist.length ≤ th.hist.length + 1 := by
  unfold Thread.log
  split
  · omega
  · simp

/-- Entries and levels of the loops together: the measure by which a word's entries are bounded (05 R146). -/
def Thread.held (th : Thread) : Nat := th.hist.length + th.loops.length

theorem Thread.logs_hist (ks : List HistKind) (th : Thread) : (ks.foldl Thread.log th).hist.length ≤ th.hist.length + ks.length := by
  induction ks generalizing th with
  | nil => simp
  | cons k r ih => have h1 := ih (th.log k); have h2 := Thread.log_hist th k; simp only [List.foldl_cons, List.length_cons]; omega

/-- One entry stands for each level that goes, and one for a level that changes (05 R146). -/
theorem loopHist_length (old new : List Loop) (h : new.length ≤ old.length) :
    (loopHist old new).length + new.length ≤ old.length + 1 := by
  unfold loopHist
  rw [if_neg (by omega)]
  simp only [List.length_append, List.length_map, List.length_take]
  split
  · split <;> simp only [List.length_nil, List.length_cons] at * <;> omega
  · simp only [List.length_nil]; omega

/-- Levels that go or change add at most one to entries and levels together. -/
theorem Thread.setLoops_held (th : Thread) (l : List Loop) (h : l.length ≤ th.loops.length) : (th.setLoops l).held ≤ th.held + 1 := by
  have h1 := loopHist_length th.loops l h
  have h2 := Thread.logs_hist (loopHist th.loops l) th
  simp only [Thread.setLoops, Thread.held]
  omega

/-- A level that opens adds two. -/
theorem Thread.openLoop_held (th : Thread) (y : Loop) : (th.setLoops (y :: th.loops)).held ≤ th.held + 2 := by
  have h2 := Thread.logs_hist (loopHist th.loops (y :: th.loops)) th
  simp only [loopHist, List.length_cons, if_pos (Nat.lt_succ_self _), List.length_nil] at h2
  simp only [Thread.setLoops, Thread.held, loopHist, List.length_cons, if_pos (Nat.lt_succ_self _)]
  omega

theorem loopBack_length (a : Word) (l : List Loop) (pc : Word) : (loopBack a l pc).1.length ≤ l.length := by
  induction l with
  | nil => simp [loopBack]
  | cons y r ih =>
    unfold loopBack
    split
    · split
      · simp
      · simp; omega
    · simp

theorem leaveLoops_length (a t : Word) (l : List Loop) : (leaveLoops a t l).length ≤ l.length := by
  induction l with
  | nil => simp [leaveLoops]
  | cons y r ih => unfold leaveLoops; split <;> simp; omega

@[simp] theorem Thread.advance_c (th : Thread) (e : QEntry) (g : Option Word) (n : Nat) : (th.advance e g n).c = th.c := by
  unfold Thread.advance; cases g <;> simp
@[simp] theorem Thread.advance_t (th : Thread) (e : QEntry) (g : Option Word) (n : Nat) : (th.advance e g n).t = th.t := by
  unfold Thread.advance; cases g <;> simp
@[simp] theorem Thread.advance_csr (th : Thread) (e : QEntry) (g : Option Word) (n : Nat) : (th.advance e g n).csr = th.csr := by
  unfold Thread.advance; cases g <;> simp
@[simp] theorem Thread.advance_stopReq (th : Thread) (e : QEntry) (g : Option Word) (n : Nat) :
    (th.advance e g n).issue.stopReq = th.issue.stopReq := by
  unfold Thread.advance; cases g <;> simp
@[simp] theorem Thread.advance_f (th : Thread) (e : QEntry) (g : Option Word) (n : Nat) : (th.advance e g n).f = th.f := by
  unfold Thread.advance; cases g <;> simp
@[simp] theorem Thread.advance_q (th : Thread) (e : QEntry) (g : Option Word) (n : Nat) : (th.advance e g n).q = th.q := by
  unfold Thread.advance; cases g <;> simp

theorem Thread.advance_hist (th : Thread) (e : QEntry) (g : Option Word) (n : Nat) :
    (th.advance e g n).hist.length ≤ th.held + 1 := by
  unfold Thread.advance
  cases g
  · have h := Thread.setLoops_held th _ (loopBack_length (e.addr + wd e.size - 4) th.loops (e.addr + wd e.size))
    simp only [Thread.held] at *
    omega
  · simp only [Thread.held]; omega

/-- A front word that has changed only threads is done: its thread moves past it. -/
theorem State.frontDone_calm {s s1 : State} {old th : Thread} (e : QEntry) (g : Option Word) (h : s1.thread? old.c old.t = some th)
    (hq : th.csr.trc = 0) (hf : th.issue.stopReq = 0) : s1.frontDone old e g = s1.setThread (th.advance e g s1.now) := by
  have hs := State.thread?_slot h
  have h2 : (s1.setThread (th.advance e g s1.now)).thread? old.c old.t = some (th.advance e g s1.now) :=
    State.thread?_setThread h (by simp [hs.1]) (by simp [hs.2])
  simp only [State.frontDone, h]
  rw [State.traceLoops_quiet _ _ _ _ _ (by simp [hq]), h2]
  exact State.tryStop_free _ _ (by simp [hf])

/-- A front word whose effect `body` gives, in a state `s1` in which its thread is `th1`. -/
theorem frontWord_ok {s s1 : State} {th th1 : Thread} {body : Thread → Except Stop (State × Option Word)} {g : Option Word}
    (h : s.thread? s.cur.c s.cur.t = some th) (hb : body th = .ok (s1, g)) (h1 : s1.thread? th.c th.t = some th1)
    (hq : th1.csr.trc = 0) (hf : th1.issue.stopReq = 0) (hr : th1.held < 64) :
    frontWord s body = .next (s1.setThread (th1.advance s.cur.e g s1.now)) := by
  have hs := State.thread?_slot h1
  have hd := State.frontDone_calm (s := s) s.cur.e g h1 hq hf
  have h2 : (s1.setThread (th1.advance s.cur.e g s1.now)).thread? th.c th.t = some (th1.advance s.cur.e g s1.now) :=
    State.thread?_setThread h1 (by simp [hs.1]) (by simp [hs.2])
  have hl := Thread.advance_hist th1 s.cur.e g s1.now
  simp only [frontWord, h, hb, hd, State.moved, h2]
  rw [if_neg (by omega)]

/-- An S word that takes effect (05 R146): only its own thread changes. -/
theorem sWord_ok {s : State} {th th1 : Thread} {body : Thread → Except Stop (Thread × Option Word)} {g : Option Word}
    (h : s.thread? s.cur.c s.cur.t = some th) (hb : body th = .ok (th1, g)) (hc : th1.c = th.c) (ht : th1.t = th.t)
    (hq : th1.csr.trc = 0) (hf : th1.issue.stopReq = 0) (hr : th1.held < 64) :
    sWord s body = .next (s.setThread (th1.advance s.cur.e g s.now)) := by
  have hs := State.thread?_slot h
  have h1 : (s.setThread th1).thread? th.c th.t = some th1 :=
    State.thread?_setThread (by rw [hs.1, hs.2]; exact h) hc ht
  have hw : frontWord s (fun th => do let r ← body th; .ok (s.setThread r.1, r.2)) =
      .next ((s.setThread th1).setThread (th1.advance s.cur.e g (s.setThread th1).now)) :=
    frontWord_ok h (by simp [hb, bind, Except.bind]) h1 hq hf hr
  rw [sWord, hw, State.setThread_setThread _ _ _ (by simp) (by simp)]
  rfl

/-- A front word that must wait stays where it is. -/
theorem frontWord_wait {s : State} {th : Thread} {body : Thread → Except Stop (State × Option Word)} {w : Option WaitWhy}
    (h : s.thread? s.cur.c s.cur.t = some th) (hb : body th = .error (.wait w)) :
    frontWord s body = .next (s.noteWait .front th w) := by
  simp [frontWord, h, hb]

/-- A front word's own fault, once older words have settled (16 R406). -/
theorem frontWord_trap {s : State} {th : Thread} {body : Thread → Except Stop (State × Option Word)} {c : BitVec 6} {v : Word}
    (h : s.thread? s.cur.c s.cur.t = some th) (hb : body th = .error (.trap c v)) (hs : th.settled th.seq = true) :
    frontWord s body = .next (s.takeTrap th th.seq s.cur.e.addr c v 0) := by
  simp [frontWord, h, hb, State.frontTrap, hs]

/-! ### The s file -/

@[simp] theorem Thread.sPut_c (th : Thread) (d : BitVec 5) (x : Word) : (th.sPut d x).c = th.c := by
  unfold Thread.sPut; repeat' split
  all_goals simp
@[simp] theorem Thread.sPut_t (th : Thread) (d : BitVec 5) (x : Word) : (th.sPut d x).t = th.t := by
  unfold Thread.sPut; repeat' split
  all_goals simp
@[simp] theorem Thread.sPut_csr (th : Thread) (d : BitVec 5) (x : Word) : (th.sPut d x).csr = th.csr := by
  unfold Thread.sPut; repeat' split
  all_goals simp
@[simp] theorem Thread.sPut_issue (th : Thread) (d : BitVec 5) (x : Word) : (th.sPut d x).issue = th.issue := by
  unfold Thread.sPut; repeat' split
  all_goals simp
theorem Thread.log_held (th : Thread) (k : HistKind) : (th.log k).held ≤ th.held + 1 := by
  have h := Thread.log_hist th k
  simp only [Thread.held, Thread.log_loops] at *
  omega

theorem Thread.sPut_held (th : Thread) (d : BitVec 5) (x : Word) : (th.sPut d x).held ≤ th.held + 1 := by
  unfold Thread.sPut
  repeat' split
  · omega
  · exact Nat.le_succ _
  · exact Nat.le_succ _
  · exact Thread.log_held th _

@[simp] theorem Thread.sPop_c (th : Thread) (l : List (BitVec 5)) : (th.sPop l).c = th.c := by
  unfold Thread.sPop; repeat' split
  all_goals simp
@[simp] theorem Thread.sPop_t (th : Thread) (l : List (BitVec 5)) : (th.sPop l).t = th.t := by
  unfold Thread.sPop; repeat' split
  all_goals simp
@[simp] theorem Thread.sPop_csr (th : Thread) (l : List (BitVec 5)) : (th.sPop l).csr = th.csr := by
  unfold Thread.sPop; repeat' split
  all_goals simp
@[simp] theorem Thread.sPop_issue (th : Thread) (l : List (BitVec 5)) : (th.sPop l).issue = th.issue := by
  unfold Thread.sPop; repeat' split
  all_goals simp
@[simp] theorem Thread.sPop_loops (th : Thread) (l : List (BitVec 5)) : (th.sPop l).loops = th.loops := by
  unfold Thread.sPop; repeat' split
  all_goals simp
theorem Thread.sPop_held (th : Thread) (l : List (BitVec 5)) : (th.sPop l).held ≤ th.held + 2 := by
  have hv := Thread.log_held th (.popVsq (headVal 0 th.q.vsq))
  have key (x : Thread) (k : HistKind) (n : Nat) (hx : x.held ≤ n) : (x.log k).held ≤ n + 1 :=
    Nat.le_trans (Thread.log_held x k) (Nat.succ_le_succ hx)
  unfold Thread.sPop
  by_cases h28 : l.contains 28 = true <;> by_cases h29 : l.contains 29 = true <;> simp only [h28, h29, if_true]
  · exact key _ _ _ hv
  · exact Nat.le_succ_of_le hv
  · exact key th _ _ (Nat.le_succ _)
  · simp

/-! ### Shapes of S words -/

/-- An S word at the front whose body gives a thread with at most six more history entries and loop levels. -/
theorem sWord_past {s : State} {th th1 : Thread} {body : Thread → Except Stop (Thread × Option Word)} {g : Option Word}
    (h : AtFront s th) (hb : body th = .ok (th1, g)) (hc : th1.c = th.c) (ht : th1.t = th.t) (hk : th1.csr = th.csr)
    (hi : th1.issue = th.issue) (hr : th1.held ≤ th.held + 6) : sWord s body = .next (s.past th1 g) := by
  have hm := h.calm.room
  exact sWord_ok h.here hb hc ht (by rw [hk]; exact h.calm.quiet) (by rw [hi]; exact h.calm.free) (by unfold Thread.held at *; omega)

theorem Thread.sPop_sPut_held (th : Thread) (rs : List (BitVec 5)) (d : BitVec 5) (v : Word) :
    ((th.sPop rs).sPut d v).held ≤ th.held + 6 := by
  have h1 := Thread.sPut_held (th.sPop rs) d v
  have h2 := Thread.sPop_held th rs
  omega

theorem Thread.sPop_setLoops_held (th : Thread) (rs : List (BitVec 5)) (l : List Loop) (h : l.length ≤ (th.sPop rs).loops.length) :
    ((th.sPop rs).setLoops l).held ≤ th.held + 6 := by
  have h1 := Thread.setLoops_held (th.sPop rs) l h
  have h2 := Thread.sPop_held th rs
  omega

/-- A word of two sources and a destination. -/
theorem opRR_ok {s : State} {th : Thread} {d a b : BitVec 5} {f : Word → Word → Word} (h : AtFront s th)
    (hr : th.sReady s.now [a, b] = .ok ()) (hd : th.sRoom d = .ok ()) :
    opRR s d a b f = .next (s.past ((th.sPop [a, b]).sPut d (f (th.sVal a) (th.sVal b))) none) :=
  sWord_past h (by simp [hr, hd, bind, Except.bind]) (by simp) (by simp) (by simp) (by simp) (Thread.sPop_sPut_held th _ d _)

/-- A division by a divisor other than zero. -/
theorem opDiv_ok {s : State} {th : Thread} {d a b : BitVec 5} {f : Word → Word → Word} (h : AtFront s th)
    (hr : th.sReady s.now [a, b] = .ok ()) (hd : th.sRoom d = .ok ()) (hz : th.sVal b ≠ 0) :
    opDiv s d a b f = .next (s.past ((th.sPop [a, b]).sPut d (f (th.sVal a) (th.sVal b))) none) :=
  sWord_past h (by simp only [hr, hd, bind, Except.bind]; rw [if_neg hz]) (by simp) (by simp) (by simp) (by simp) (Thread.sPop_sPut_held th _ d _)

/-- A division by zero. -/
theorem opDiv_zero {s : State} {th : Thread} {d a b : BitVec 5} {f : Word → Word → Word} (h : AtFront s th)
    (hr : th.sReady s.now [a, b] = .ok ()) (hz : th.sVal b = 0) (hs : th.settled th.seq = true) :
    opDiv s d a b f = .next (s.takeTrap th th.seq s.cur.e.addr 0x04 (th.sVal a) 0) :=
  frontWord_trap h.here (by simp [hr, hz, bind, Except.bind]) hs

/-- A word of one source and a destination. -/
theorem opR_ok {s : State} {th : Thread} {d a : BitVec 5} {f : Thread → Word → Word} (h : AtFront s th)
    (hr : th.sReady s.now [a] = .ok ()) (hd : th.sRoom d = .ok ()) :
    opR s d a f = .next (s.past ((th.sPop [a]).sPut d (f th (th.sVal a))) none) :=
  sWord_past h (by simp [hr, hd, bind, Except.bind]) (by simp) (by simp) (by simp) (by simp) (Thread.sPop_sPut_held th _ d _)

/-- A branch that is taken. -/
theorem opBranch_taken {s : State} {th : Thread} {a b : BitVec 5} {o : Word} {c : Word → Word → Bool} (h : AtFront s th)
    (hr : th.sReady s.now [a, b] = .ok ()) (hc : c (th.sVal a) (th.sVal b) = true) :
    opBranch s a b o c = .next (s.past
      ((th.sPop [a, b]).setLoops (leaveLoops s.cur.e.addr (s.cur.e.addr + 4 * o) (th.sPop [a, b]).loops)) (some (s.cur.e.addr + 4 * o))) :=
  sWord_past h (by simp [hr, hc, bind, Except.bind, Thread.jump]) (by simp) (by simp) (by simp) (by simp) (Thread.sPop_setLoops_held th _ _ (leaveLoops_length _ _ _))

/-- A branch that is not taken. -/
theorem opBranch_next {s : State} {th : Thread} {a b : BitVec 5} {o : Word} {c : Word → Word → Bool} (h : AtFront s th)
    (hr : th.sReady s.now [a, b] = .ok ()) (hc : c (th.sVal a) (th.sVal b) = false) :
    opBranch s a b o c = .next (s.past (th.sPop [a, b]) none) :=
  sWord_past h (by simp [hr, hc, bind, Except.bind]) (by simp) (by simp) (by simp) (by simp)
    (Nat.le_trans (Thread.sPop_held th _) (by omega))

end Sys2Proof.Machine
end

