-- ==== Sys2Proof/Laws/Issue.lean ====
section
/-!
SUPPORT. What the shared operations that issue a word do, once each: a K word, an access word, a V word. A lemma that ends in `_cases`
says every next state that the operation can answer; the others say one outcome under its conditions.
-/

set_option Elab.async false

namespace Sys2Proof.Machine

/-! ### K words -/

/-- A K word at the horizon whose effect `body` gives, in a state in which its thread is `th1`. -/
theorem kWord_ok {s s1 : State} {th th1 : Thread} {body : Thread → Except Stop (State × Option Word)} {g : Option Word}
    (h : s.thread? s.cur.c s.cur.t = some th) (hz : th.atHorizon th.seq = true) (hb : body th = .ok (s1, g))
    (h1 : s1.thread? th.c th.t = some th1) (hq : th1.csr.trc = 0) (hf : th1.issue.stopReq = 0) (hr : th1.held < 64) :
    kWord s body = .next (s1.setThread (th1.advance s.cur.e g s1.now)) :=
  frontWord_ok h (by simp only [hz, if_true]; exact hb) h1 hq hf hr

/-- A K word waits for the horizon (05 R147). -/
theorem kWord_early {s : State} {th : Thread} {body : Thread → Except Stop (State × Option Word)}
    (h : s.thread? s.cur.c s.cur.t = some th) (hz : th.atHorizon th.seq = false) (hb : body th ≠ .error .drain) :
    kWord s body = .next (s.noteWait .front th none) := by
  refine frontWord_wait h ?_
  simp [hz, hb]

/-- A K word that drains does so before the horizon too (04 R113). -/
theorem kWord_drains {s : State} {th : Thread} {body : Thread → Except Stop (State × Option Word)}
    (h : s.thread? s.cur.c s.cur.t = some th) (hb : body th = .error .drain) : kWord s body = .next (s.drainWait th) := by
  cases hz : th.atHorizon th.seq <;> simp [kWord, frontWord, h, hz, hb]

/-- A K word whose condition is not met stays at the front. -/
theorem kWord_wait {s : State} {th : Thread} {body : Thread → Except Stop (State × Option Word)} {w : Option WaitWhy}
    (h : s.thread? s.cur.c s.cur.t = some th) (hz : th.atHorizon th.seq = true) (hb : body th = .error (.wait w)) :
    kWord s body = .next (s.noteWait .front th w) :=
  frontWord_wait h (by simp [hz, hb])

/-- A K word's own trap, once older words have settled (16 R406). -/
theorem kWord_trap {s : State} {th : Thread} {body : Thread → Except Stop (State × Option Word)} {c : BitVec 6} {v : Word}
    (h : s.thread? s.cur.c s.cur.t = some th) (hz : th.atHorizon th.seq = true) (hb : body th = .error (.trap c v))
    (hs : th.settled th.seq = true) : kWord s body = .next (s.takeTrap th th.seq s.cur.e.addr c v 0) :=
  frontWord_trap h (by simp [hz, hb]) hs

/-- A word that has moved on stands, or waits for room in the history (05 R146). -/
theorem State.moved_cases (s : State) (th : Thread) (s1 : State) : s.moved th s1 = s1 ∨ s.moved th s1 = s.noteWait .front th none := by
  unfold State.moved
  repeat' split
  all_goals simp

/-- Every next state of a front word: its effect, a wait, a wait for results in flight, a mark met, or its trap. -/
theorem frontWord_cases {s t : State} {body : Thread → Except Stop (State × Option Word)} (h : frontWord s body = .next t) :
    ∃ th, s.thread? s.cur.c s.cur.t = some th ∧
      ((∃ s1 g, body th = .ok (s1, g) ∧ (t = s1.frontDone th s.cur.e g ∨ t = s.noteWait .front th none)) ∨
        (∃ w, body th = .error (.wait w) ∧ t = s.noteWait .front th w) ∨
        (body th = .error .drain ∧ t = s.drainWait th) ∨
        (∃ u d k l v, body th = .error (.consume u d k l v) ∧ t = s.consumed .front th u d k l v) ∨
        (∃ c v, body th = .error (.trap c v) ∧ t = s.frontTrap th s.cur.e c v)) := by
  unfold frontWord at h
  split at h
  · cases h
  · rename_i th hth
    refine ⟨th, hth, ?_⟩
    split at h
    · rename_i s1 g hb
      refine .inl ⟨s1, g, hb, ?_⟩
      cases h
      exact State.moved_cases s th _
    · rename_i w hb; cases h; exact .inr (.inl ⟨w, hb, rfl⟩)
    · rename_i hb; cases h; exact .inr (.inr (.inl ⟨hb, rfl⟩))
    · rename_i u d k l v hb; cases h; exact .inr (.inr (.inr (.inl ⟨u, d, k, l, v, hb, rfl⟩)))
    · rename_i c v hb; cases h; exact .inr (.inr (.inr (.inr ⟨c, v, hb, rfl⟩)))

/-- No front word faults or is refused while a thread stands in its slot. -/
theorem frontWord_next {s : State} {th : Thread} {body : Thread → Except Stop (State × Option Word)}
    (h : s.thread? s.cur.c s.cur.t = some th) : ∃ t, frontWord s body = .next t := by
  unfold frontWord
  rw [h]
  dsimp only
  repeat' split
  all_goals exact ⟨_, rfl⟩

/-! ### Access words -/

/-- An access word at the head of its queue whose effect `body` gives. -/
theorem accessHold_ok {s s1 : State} {th : Thread} {body : Thread → Except Stop (State × Option (Option WaitWhy))}
    (h : AtAccess s th) (hb : body th = .ok (s1, none)) :
    accessHold s body = .next (s1.modThread th.c th.t (·.accessDone s.now)) := by
  simp [accessHold, h.here, h.queue, hb]

/-- An access word at the head of its queue that stays there after a step. -/
theorem accessHold_stays {s s1 : State} {th : Thread} {w : Option WaitWhy}
    {body : Thread → Except Stop (State × Option (Option WaitWhy))} (h : AtAccess s th) (hb : body th = .ok (s1, some w)) :
    accessHold s body = .next (s1.waitA th.c th.t w) := by
  simp [accessHold, h.here, h.queue, hb]

/-- An access word at the head of its queue whose condition is not met. -/
theorem accessHold_wait {s : State} {th : Thread} {w : Option WaitWhy}
    {body : Thread → Except Stop (State × Option (Option WaitWhy))} (h : AtAccess s th) (hb : body th = .error (.wait w)) :
    accessHold s body = .next (s.noteWait .a th w) := by
  simp [accessHold, h.here, h.queue, hb]

/-- An access word at the head of its queue that takes its trap. -/
theorem accessHold_trap {s s1 : State} {th : Thread} {c : BitVec 6} {v : Word}
    {body : Thread → Except Stop (State × Option (Option WaitWhy))} (h : AtAccess s th) (hb : body th = .error (.trap c v))
    (ht : s.accessTrap? th s.cur.e c v = some s1) : accessHold s body = .next s1 := by
  simp [accessHold, h.here, h.queue, hb, ht]

theorem accessWord_ok {s s1 : State} {th : Thread} {body : Thread → Eff} (h : AtAccess s th) (hb : body th = .ok s1) :
    accessWord s body = .next (s1.modThread th.c th.t (·.accessDone s.now)) :=
  accessHold_ok h (by simp [hb, Except.map])

theorem accessWord_wait {s : State} {th : Thread} {w : Option WaitWhy} {body : Thread → Eff} (h : AtAccess s th)
    (hb : body th = .error (.wait w)) : accessWord s body = .next (s.noteWait .a th w) :=
  accessHold_wait h (by simp [hb, Except.map])

theorem accessWord_trap {s s1 : State} {th : Thread} {c : BitVec 6} {v : Word} {body : Thread → Eff} (h : AtAccess s th)
    (hb : body th = .error (.trap c v)) (ht : s.accessTrap? th s.cur.e c v = some s1) : accessWord s body = .next s1 :=
  accessHold_trap h (by simp [hb, Except.map]) ht

/-- What `accessTrap?` answers: nothing before older words have settled; a debug stop for a BREAK with `trc.dbg`; else the trap. -/
theorem State.accessTrap?_cases (s : State) (th : Thread) (e : QEntry) (c : BitVec 6) (v : Word) :
    (th.settled e.seq = false ∧ s.accessTrap? th e c v = none) ∨
      (th.settled e.seq = true ∧ c = 0x0F ∧ th.csr.trc.getLsbD 6 = true ∧ (s.accessTrap? th e c v).isSome) ∨
      (th.settled e.seq = true ∧ s.accessTrap? th e c v = some (s.takeTrap th e.seq e.addr c v 1)) := by
  unfold State.accessTrap?
  cases hs : th.settled e.seq
  · exact .inl ⟨rfl, by simp⟩
  · by_cases hc : c = 0x0F ∧ th.csr.trc.getLsbD 6 = true
    · refine .inr (.inl ⟨rfl, hc.1, hc.2, ?_⟩)
      rw [if_neg (by simp), if_pos (by simp [hc.1]; exact hc.2)]
      by_cases hl : th.inLoops = true <;> simp [hl]
    · refine .inr (.inr ⟨rfl, ?_⟩)
      rw [if_neg (by simp), if_neg (by simpa using hc)]

/-- Every next state of an access word at the head of its queue. -/
theorem accessHold_cases {s t : State} {th : Thread} {body : Thread → Except Stop (State × Option (Option WaitWhy))}
    (h : AtAccess s th) (hx : accessHold s body = .next t) :
    (∃ s1, body th = .ok (s1, none) ∧ t = s1.modThread th.c th.t (·.accessDone s.now)) ∨
      (∃ s1 w, body th = .ok (s1, some w) ∧ t = s1.waitA th.c th.t w) ∨
      (∃ w, body th = .error (.wait w) ∧ t = s.noteWait .a th w) ∨
      (body th = .error .drain ∧ t = s.noteWait .a th none) ∨
      (∃ u d k l v, body th = .error (.consume u d k l v) ∧ t = s.consumed .a th u d k l v) ∨
      (∃ c v, body th = .error (.trap c v) ∧
        (s.accessTrap? th s.cur.e c v = some t ∨ s.accessTrap? th s.cur.e c v = none ∧ t = s.noteWait .a th none)) := by
  simp only [accessHold, h.here, h.queue] at hx
  cases hb : body th with
  | ok r =>
    obtain ⟨s1, w⟩ := r
    cases w with
    | none => simp [hb] at hx; exact .inl ⟨s1, rfl, hx.symm⟩
    | some w => simp [hb] at hx; exact .inr (.inl ⟨s1, w, rfl, hx.symm⟩)
  | error e =>
    cases e with
    | wait w => simp [hb] at hx; exact .inr (.inr (.inl ⟨w, rfl, hx.symm⟩))
    | drain => simp [hb] at hx; exact .inr (.inr (.inr (.inl ⟨rfl, hx.symm⟩)))
    | consume u d k l v => simp [hb] at hx; exact .inr (.inr (.inr (.inr (.inl ⟨u, d, k, l, v, rfl, hx.symm⟩))))
    | trap c v =>
      refine .inr (.inr (.inr (.inr (.inr ⟨c, v, rfl, ?_⟩))))
      cases ht : s.accessTrap? th s.cur.e c v with
      | some s1 => simp [hb, ht] at hx; exact .inl (by rw [hx])
      | none => simp [hb, ht] at hx; exact .inr ⟨rfl, hx.symm⟩

/-! ### V words -/

/-- A V word at the head of its queue that can issue (06 R155): what it reads, pops and pushes happens now, its results are to land. -/
theorem vWord_ok {s : State} {th : Thread} {i : Instr} {lat : Nat} {body : Thread → VOut} (h : AtIssue s th i) :
    vWord s lat body =
      .next ((s.setThread (({ th with xq := th.xq.tail } : Thread).vIssue s.cur.e lat s.now (body th))).landDue th.c th.t) := by
  simp [vWord, h.here, h.queue, h.ready]

/-- A V word at the head of its queue that cannot issue waits for the reason that `vBlocked` gives. -/
theorem vWord_wait {s : State} {th : Thread} {lat : Nat} {body : Thread → VOut} {why : Option WaitWhy}
    (h : s.thread? s.cur.c s.cur.t = some th) (hq : s.cur.front = false) (hb : th.vBlocked s.now s.cur.e = some why) :
    vWord s lat body = .next (s.noteWait .v th why) := by
  simp [vWord, h, hq, hb]

/-- No V word faults or is refused while a thread stands in its slot. -/
theorem vWord_next {s : State} {th : Thread} {lat : Nat} {body : Thread → VOut} (h : s.thread? s.cur.c s.cur.t = some th) :
    ∃ t, vWord s lat body = .next t := by
  unfold vWord
  rw [h]
  dsimp only
  repeat' split
  all_goals exact ⟨_, rfl⟩

end Sys2Proof.Machine
end

