-- ==== Sys2Proof/Laws/Memory.lean ====
section
/-!
SUPPORT. Byte memory: a read after a write, and that every write keeps the canonical form.
-/

set_option Elab.async false

namespace Sys2Proof.Machine

/-! ### Reads after writes -/

theorem Memory.get_nil (a : Nat) : Memory.get [] a = 0 := rfl

/-- The bytes of a canonical memory lie above every address below its first. -/
theorem Memory.get_lt (m : Memory) (x : Nat) (y : Byte) (h : Memory.wf ((x, y) :: m) = true) (a : Nat) (ha : a < x) :
    Memory.get ((x, y) :: m) a = 0 := by
  induction m generalizing x y with
  | nil => simp [Memory.get, Nat.ne_of_lt ha]
  | cons p r ih =>
    obtain ⟨x2, y2⟩ := p
    simp only [Memory.wf, Bool.and_eq_true, decide_eq_true_eq] at h
    have h2 := ih x2 y2 h.2 (Nat.lt_trans ha h.1.2)
    simpa [Memory.get, Nat.ne_of_lt ha] using h2

theorem Memory.wf_tail {p : Nat × Byte} {m : Memory} (h : Memory.wf (p :: m) = true) : Memory.wf m = true := by
  cases m with
  | nil => rfl
  | cons q r =>
    obtain ⟨x, y⟩ := p
    obtain ⟨x2, y2⟩ := q
    simp only [Memory.wf, Bool.and_eq_true] at h
    exact h.2

theorem Memory.get_put_self (m : Memory) (a : Nat) (b : Byte) (h : Memory.wf m = true) : (m.put a b).get a = b := by
  induction m with
  | nil => by_cases hb : b = 0#8 <;> simp [Memory.put, Memory.get, hb]
  | cons p r ih =>
    obtain ⟨x, y⟩ := p
    simp only [Memory.put]
    by_cases h1 : a < x
    · by_cases hb : b = 0#8
      · simpa [h1, hb] using Memory.get_lt r x y h a h1
      · simp [h1, hb, Memory.get]
    · by_cases h2 : a = x
      · subst h2
        by_cases hb : b = 0#8
        · simp only [Nat.lt_irrefl, if_false, if_true, hb]
          cases r with
          | nil => rfl
          | cons q r2 =>
            obtain ⟨x2, y2⟩ := q
            simp only [Memory.wf, Bool.and_eq_true, decide_eq_true_eq] at h
            exact Memory.get_lt r2 x2 y2 h.2 a h.1.2
        · simp [hb, Memory.get]
      · simp only [h1, h2, if_false, Memory.get]
        exact ih (Memory.wf_tail h)

theorem Memory.get_put_ne (m : Memory) (a c : Nat) (b : Byte) (hn : c ≠ a) : (m.put a b).get c = m.get c := by
  induction m with
  | nil => by_cases hb : b = 0#8 <;> simp [Memory.put, Memory.get, hb, hn]
  | cons p r ih =>
    obtain ⟨x, y⟩ := p
    simp only [Memory.put]
    by_cases h1 : a < x
    · by_cases hb : b = 0#8 <;> simp [h1, hb, Memory.get, hn]
    · by_cases h2 : a = x
      · subst h2
        by_cases hb : b = 0#8 <;> simp [hb, Memory.get, hn]
      · simp only [h1, h2, if_false, Memory.get, ih]

/-! ### The canonical form -/

/-- The canonical form, by adjacent and by all pairs. -/
theorem Memory.wf_iff (m : Memory) :
    Memory.wf m = true ↔ (∀ p ∈ m, p.2 ≠ 0) ∧ List.Pairwise (fun p q : Nat × Byte => p.1 < q.1) m := by
  induction m with
  | nil => simp [Memory.wf]
  | cons p r ih =>
    obtain ⟨x, y⟩ := p
    cases r with
    | nil => simp [Memory.wf]
    | cons q r2 =>
      obtain ⟨x2, y2⟩ := q
      simp only [Memory.wf, Bool.and_eq_true, decide_eq_true_eq, ih]
      constructor
      · rintro ⟨⟨hy, hx⟩, h0, hp⟩
        refine ⟨?_, List.pairwise_cons.2 ⟨?_, hp⟩⟩
        · intro p hpm
          rcases List.mem_cons.1 hpm with rfl | hm
          · simpa using hy
          · exact h0 p hm
        · intro p hpm
          rcases List.mem_cons.1 hpm with rfl | hm
          · exact hx
          · exact Nat.lt_trans hx ((List.pairwise_cons.1 hp).1 p hm)
      · rintro ⟨h0, hp⟩
        have hp2 := List.pairwise_cons.1 hp
        refine ⟨⟨by simpa using h0 (x, y) (by simp), hp2.1 (x2, y2) (by simp)⟩, ?_, hp2.2⟩
        intro p hpm
        exact h0 p (List.mem_cons_of_mem _ hpm)

theorem Memory.mem_put (m : Memory) (a : Nat) (b : Byte) (p : Nat × Byte) (h : p ∈ m.put a b) : p ∈ m ∨ (p = (a, b) ∧ b ≠ 0#8) := by
  induction m with
  | nil => by_cases hb : b = 0#8 <;> simp_all [Memory.put]
  | cons q r ih =>
    obtain ⟨x, y⟩ := q
    simp only [Memory.put] at h
    split at h
    · split at h
      · exact .inl h
      · rcases List.mem_cons.1 h with rfl | h2
        · exact .inr ⟨rfl, by assumption⟩
        · exact .inl h2
    · split at h
      · split at h
        · exact .inl (List.mem_cons_of_mem _ h)
        · rcases List.mem_cons.1 h with rfl | h2
          · exact .inr ⟨rfl, by assumption⟩
          · exact .inl (List.mem_cons_of_mem _ h2)
      · rcases List.mem_cons.1 h with rfl | h2
        · exact .inl (by simp)
        · rcases ih h2 with h3 | h3
          · exact .inl (List.mem_cons_of_mem _ h3)
          · exact .inr h3

theorem Memory.rising_put (m : Memory) (a : Nat) (b : Byte) (h : List.Pairwise (fun p q : Nat × Byte => p.1 < q.1) m) :
    List.Pairwise (fun p q : Nat × Byte => p.1 < q.1) (m.put a b) := by
  induction m with
  | nil => by_cases hb : b = 0#8 <;> simp [Memory.put, hb]
  | cons q r ih =>
    obtain ⟨x, y⟩ := q
    have h2 := List.pairwise_cons.1 h
    simp only [Memory.put]
    split
    · rename_i ha
      split
      · exact h
      · refine List.pairwise_cons.2 ⟨?_, h⟩
        intro p hp
        rcases List.mem_cons.1 hp with rfl | hm
        · exact ha
        · exact Nat.lt_trans ha (h2.1 p hm)
    · split
      · split
        · exact h2.2
        · rename_i _ he _
          subst he
          exact List.pairwise_cons.2 ⟨h2.1, h2.2⟩
      · rename_i h3 h4
        refine List.pairwise_cons.2 ⟨?_, ih h2.2⟩
        intro p hp
        rcases Memory.mem_put r a b p hp with hm | ⟨rfl, -⟩
        · exact h2.1 p hm
        · exact Nat.lt_of_le_of_ne (Nat.le_of_not_lt h3) (Ne.symm h4)

theorem Memory.wf_put (m : Memory) (a : Nat) (b : Byte) (h : Memory.wf m = true) : Memory.wf (m.put a b) = true := by
  rw [Memory.wf_iff] at h ⊢
  refine ⟨fun p hp => ?_, Memory.rising_put m a b h.2⟩
  rcases Memory.mem_put m a b p hp with hm | ⟨rfl, hb⟩
  · exact h.1 p hm
  · exact hb

theorem Memory.wf_putN (m : Memory) (a n v : Nat) (h : Memory.wf m = true) : Memory.wf (m.putN a n v) = true := by
  induction n generalizing m a v with
  | zero => exact h
  | succ n ih => exact ih _ _ _ (Memory.wf_put m a _ h)

theorem Memory.wf_putWord (m : Memory) (a : Nat) (w : Word) (h : Memory.wf m = true) : Memory.wf (m.putWord a w) = true :=
  Memory.wf_putN m a 8 _ h

theorem Memory.wf_putMask (m : Memory) (a n v k : Nat) (h : Memory.wf m = true) : Memory.wf (m.putMask a n v k) = true := by
  induction n generalizing m a v k with
  | zero => exact h
  | succ n ih =>
    refine ih _ _ _ _ ?_
    by_cases hk : k % 2 = 1
    · simpa [hk] using Memory.wf_put m a _ h
    · simpa [hk] using h

theorem Memory.wf_blit (m : Memory) (a : Nat) (x : Memory) (h : Memory.wf m = true) : Memory.wf (m.blit a x) = true := by
  induction x generalizing m with
  | nil => exact h
  | cons p r ih =>
    obtain ⟨k, b⟩ := p
    exact ih _ (Memory.wf_put m (a + k) b h)

theorem Memory.wf_filter (m : Memory) (f : Nat × Byte → Bool) (h : Memory.wf m = true) : Memory.wf (m.filter f) = true := by
  rw [Memory.wf_iff] at h ⊢
  exact ⟨fun p hp => h.1 p (List.mem_filter.1 hp).1, h.2.filter f⟩

theorem Memory.wf_clear (m : Memory) (a n : Nat) (h : Memory.wf m = true) : Memory.wf (m.clear a n) = true :=
  Memory.wf_filter m _ h

theorem Memory.wf_slice (m : Memory) (a n : Nat) (h : Memory.wf m = true) : Memory.wf (m.slice a n) = true := by
  have h2 := Memory.wf_filter m (fun p => decide (a ≤ p.1) && decide (p.1 < a + n)) h
  rw [Memory.wf_iff] at h2 ⊢
  refine ⟨?_, ?_⟩
  · intro p hp
    obtain ⟨q, hq, rfl⟩ := List.mem_map.1 hp
    exact h2.1 q hq
  · rw [Memory.slice, List.pairwise_map]
    refine h2.2.imp_of_mem ?_
    intro p q hp hq hpq
    have h3 := (List.mem_filter.1 hp).2
    simp only [Bool.and_eq_true, decide_eq_true_eq] at h3
    show p.1 - a < q.1 - a
    omega

end Sys2Proof.Machine
end

