-- ==== Sys2Proof/Laws/PerInstr.lean ====
section
/-!
SUPPORT. For every instruction: the row of its word, read by the decoder, is the instruction without its L word's bits. One lemma for
each constructor; a step of the device has no word.
-/

set_option Elab.async false

namespace Sys2Proof.Laws.RowOfEncode

open Sys2Proof

/-- An instruction without the bits of its L word. -/
def bare : Instr → Instr
  | .addi d a i _ => .addi d a i none
  | .andi d a i _ => .andi d a i none
  | .ori d a i _ => .ori d a i none
  | .xori d a i _ => .xori d a i none
  | .slti d a i _ => .slti d a i none
  | .movi d i _ => .movi d i none
  | .movhi d i _ => .movhi d i none
  | .beq a b o _ => .beq a b o none
  | .bne a b o _ => .bne a b o none
  | .blt a b o _ => .blt a b o none
  | .bge a b o _ => .bge a b o none
  | .bltn a b o _ => .bltn a b o none
  | .bgen a b o _ => .bgen a b o none
  | .jmp o _ => .jmp o none
  | .call o _ => .call o none
  | .jr a i _ => .jr a i none
  | .callr a i _ => .callr a i none
  | .vmovi d i _ => .vmovi d i none
  | .aaddi d a i _ => .aaddi d a i none
  | .amovi d i _ => .amovi d i none
  | .amovhi d i _ => .amovhi d i none
  | .lds d a i _ => .lds d a i none
  | .sts d a i _ => .sts d a i none
  | .ldv d a i _ => .ldv d a i none
  | .stv a i _ => .stv a i none
  | .ldt d a i _ => .ldt d a i none
  | .stt a i _ => .stt a i none
  | .kaddi d a e j _ => .kaddi d a e j none
  | i => i

/-- The decoder reads an instruction's word as its row. -/
def Statement (i : Instr) : Prop := Machine.engineOf i ≠ .none → decodeRow i.encodeWord = some (bare i)

theorem add (d : BitVec 5) (a : BitVec 5) (b : BitVec 5) : Statement (.add d a b) := by
  intro _
  have hw : Instr.encodeWord (.add d a b) = (0x0#9 ++ d ++ a ++ b ++ 0x0#8 : BitVec (9+5+5+5+8)) := rfl
  show decodeRow (Instr.encodeWord (.add d a b)) = some (.add d a b)
  generalize Instr.encodeWord (.add d a b) = w at hw ⊢
  have f : bits w 29 3 = 0x0#3 ∧ bits w 23 6 = 0x0#6 ∧ bits w 0 8 = 0x0#8 ∧ bits w 18 5 = d ∧ bits w 13 5 = a ∧ bits w 8 5 = b := by
    subst hw
    refine ⟨?_, ?_, ?_, ?_, ?_, ?_⟩ <;> simp (disch := decide) only [bits, BitVec.extractLsb'_append_eq_of_le, BitVec.extractLsb'_append_eq_of_add_le,
      BitVec.extractLsb'_eq_self, Nat.reduceSub] <;> rfl
  obtain ⟨f1, f2, g0, g1, g2, g3⟩ := f
  unfold decodeRow; rw [f1]; show decodeRowS w = _
  unfold decodeRowS; rw [f2]
  show (if bits w 0 8 = 0 then some (.add (bits w 18 5) (bits w 13 5) (bits w 8 5)) else none : Option Instr) = some (.add d a b)
  simp only [g0, g1, g2, g3]
  rfl
theorem sub (d : BitVec 5) (a : BitVec 5) (b : BitVec 5) : Statement (.sub d a b) := by
  intro _
  have hw : Instr.encodeWord (.sub d a b) = (0x1#9 ++ d ++ a ++ b ++ 0x0#8 : BitVec (9+5+5+5+8)) := rfl
  show decodeRow (Instr.encodeWord (.sub d a b)) = some (.sub d a b)
  generalize Instr.encodeWord (.sub d a b) = w at hw ⊢
  have f : bits w 29 3 = 0x0#3 ∧ bits w 23 6 = 0x1#6 ∧ bits w 0 8 = 0x0#8 ∧ bits w 18 5 = d ∧ bits w 13 5 = a ∧ bits w 8 5 = b := by
    subst hw
    refine ⟨?_, ?_, ?_, ?_, ?_, ?_⟩ <;> simp (disch := decide) only [bits, BitVec.extractLsb'_append_eq_of_le, BitVec.extractLsb'_append_eq_of_add_le,
      BitVec.extractLsb'_eq_self, Nat.reduceSub] <;> rfl
  obtain ⟨f1, f2, g0, g1, g2, g3⟩ := f
  unfold decodeRow; rw [f1]; show decodeRowS w = _
  unfold decodeRowS; rw [f2]
  show (if bits w 0 8 = 0 then some (.sub (bits w 18 5) (bits w 13 5) (bits w 8 5)) else none : Option Instr) = some (.sub d a b)
  simp only [g0, g1, g2, g3]
  rfl
theorem mul (d : BitVec 5) (a : BitVec 5) (b : BitVec 5) : Statement (.mul d a b) := by
  intro _
  have hw : Instr.encodeWord (.mul d a b) = (0x2#9 ++ d ++ a ++ b ++ 0x0#8 : BitVec (9+5+5+5+8)) := rfl
  show decodeRow (Instr.encodeWord (.mul d a b)) = some (.mul d a b)
  generalize Instr.encodeWord (.mul d a b) = w at hw ⊢
  have f : bits w 29 3 = 0x0#3 ∧ bits w 23 6 = 0x2#6 ∧ bits w 0 8 = 0x0#8 ∧ bits w 18 5 = d ∧ bits w 13 5 = a ∧ bits w 8 5 = b := by
    subst hw
    refine ⟨?_, ?_, ?_, ?_, ?_, ?_⟩ <;> simp (disch := decide) only [bits, BitVec.extractLsb'_append_eq_of_le, BitVec.extractLsb'_append_eq_of_add_le,
      BitVec.extractLsb'_eq_self, Nat.reduceSub] <;> rfl
  obtain ⟨f1, f2, g0, g1, g2, g3⟩ := f
  unfold decodeRow; rw [f1]; show decodeRowS w = _
  unfold decodeRowS; rw [f2]
  show (if bits w 0 8 = 0 then some (.mul (bits w 18 5) (bits w 13 5) (bits w 8 5)) else none : Option Instr) = some (.mul d a b)
  simp only [g0, g1, g2, g3]
  rfl
theorem mulh (d : BitVec 5) (a : BitVec 5) (b : BitVec 5) : Statement (.mulh d a b) := by
  intro _
  have hw : Instr.encodeWord (.mulh d a b) = (0x3#9 ++ d ++ a ++ b ++ 0x0#8 : BitVec (9+5+5+5+8)) := rfl
  show decodeRow (Instr.encodeWord (.mulh d a b)) = some (.mulh d a b)
  generalize Instr.encodeWord (.mulh d a b) = w at hw ⊢
  have f : bits w 29 3 = 0x0#3 ∧ bits w 23 6 = 0x3#6 ∧ bits w 0 8 = 0x0#8 ∧ bits w 18 5 = d ∧ bits w 13 5 = a ∧ bits w 8 5 = b := by
    subst hw
    refine ⟨?_, ?_, ?_, ?_, ?_, ?_⟩ <;> simp (disch := decide) only [bits, BitVec.extractLsb'_append_eq_of_le, BitVec.extractLsb'_append_eq_of_add_le,
      BitVec.extractLsb'_eq_self, Nat.reduceSub] <;> rfl
  obtain ⟨f1, f2, g0, g1, g2, g3⟩ := f
  unfold decodeRow; rw [f1]; show decodeRowS w = _
  unfold decodeRowS; rw [f2]
  show (if bits w 0 8 = 0 then some (.mulh (bits w 18 5) (bits w 13 5) (bits w 8 5)) else if bits w 0 8 = 0x1 then some (.mulhn
    (bits w 18 5) (bits w 13 5) (bits w 8 5)) else none : Option Instr) = some (.mulh d a b)
  simp only [g0, g1, g2, g3]
  rfl
theorem mulhn (d : BitVec 5) (a : BitVec 5) (b : BitVec 5) : Statement (.mulhn d a b) := by
  intro _
  have hw : Instr.encodeWord (.mulhn d a b) = (0x3#9 ++ d ++ a ++ b ++ 0x1#8 : BitVec (9+5+5+5+8)) := rfl
  show decodeRow (Instr.encodeWord (.mulhn d a b)) = some (.mulhn d a b)
  generalize Instr.encodeWord (.mulhn d a b) = w at hw ⊢
  have f : bits w 29 3 = 0x0#3 ∧ bits w 23 6 = 0x3#6 ∧ bits w 0 8 = 0x1#8 ∧ bits w 18 5 = d ∧ bits w 13 5 = a ∧ bits w 8 5 = b := by
    subst hw
    refine ⟨?_, ?_, ?_, ?_, ?_, ?_⟩ <;> simp (disch := decide) only [bits, BitVec.extractLsb'_append_eq_of_le, BitVec.extractLsb'_append_eq_of_add_le,
      BitVec.extractLsb'_eq_self, Nat.reduceSub] <;> rfl
  obtain ⟨f1, f2, g0, g1, g2, g3⟩ := f
  unfold decodeRow; rw [f1]; show decodeRowS w = _
  unfold decodeRowS; rw [f2]
  show (if bits w 0 8 = 0 then some (.mulh (bits w 18 5) (bits w 13 5) (bits w 8 5)) else if bits w 0 8 = 0x1 then some (.mulhn
    (bits w 18 5) (bits w 13 5) (bits w 8 5)) else none : Option Instr) = some (.mulhn d a b)
  simp only [g0, g1, g2, g3]
  rfl
theorem div (d : BitVec 5) (a : BitVec 5) (b : BitVec 5) : Statement (.div d a b) := by
  intro _
  have hw : Instr.encodeWord (.div d a b) = (0x4#9 ++ d ++ a ++ b ++ 0x0#8 : BitVec (9+5+5+5+8)) := rfl
  show decodeRow (Instr.encodeWord (.div d a b)) = some (.div d a b)
  generalize Instr.encodeWord (.div d a b) = w at hw ⊢
  have f : bits w 29 3 = 0x0#3 ∧ bits w 23 6 = 0x4#6 ∧ bits w 0 8 = 0x0#8 ∧ bits w 18 5 = d ∧ bits w 13 5 = a ∧ bits w 8 5 = b := by
    subst hw
    refine ⟨?_, ?_, ?_, ?_, ?_, ?_⟩ <;> simp (disch := decide) only [bits, BitVec.extractLsb'_append_eq_of_le, BitVec.extractLsb'_append_eq_of_add_le,
      BitVec.extractLsb'_eq_self, Nat.reduceSub] <;> rfl
  obtain ⟨f1, f2, g0, g1, g2, g3⟩ := f
  unfold decodeRow; rw [f1]; show decodeRowS w = _
  unfold decodeRowS; rw [f2]
  show (if bits w 0 8 = 0 then some (.div (bits w 18 5) (bits w 13 5) (bits w 8 5)) else if bits w 0 8 = 0x1 then some (.divn
    (bits w 18 5) (bits w 13 5) (bits w 8 5)) else none : Option Instr) = some (.div d a b)
  simp only [g0, g1, g2, g3]
  rfl
theorem divn (d : BitVec 5) (a : BitVec 5) (b : BitVec 5) : Statement (.divn d a b) := by
  intro _
  have hw : Instr.encodeWord (.divn d a b) = (0x4#9 ++ d ++ a ++ b ++ 0x1#8 : BitVec (9+5+5+5+8)) := rfl
  show decodeRow (Instr.encodeWord (.divn d a b)) = some (.divn d a b)
  generalize Instr.encodeWord (.divn d a b) = w at hw ⊢
  have f : bits w 29 3 = 0x0#3 ∧ bits w 23 6 = 0x4#6 ∧ bits w 0 8 = 0x1#8 ∧ bits w 18 5 = d ∧ bits w 13 5 = a ∧ bits w 8 5 = b := by
    subst hw
    refine ⟨?_, ?_, ?_, ?_, ?_, ?_⟩ <;> simp (disch := decide) only [bits, BitVec.extractLsb'_append_eq_of_le, BitVec.extractLsb'_append_eq_of_add_le,
      BitVec.extractLsb'_eq_self, Nat.reduceSub] <;> rfl
  obtain ⟨f1, f2, g0, g1, g2, g3⟩ := f
  unfold decodeRow; rw [f1]; show decodeRowS w = _
  unfold decodeRowS; rw [f2]
  show (if bits w 0 8 = 0 then some (.div (bits w 18 5) (bits w 13 5) (bits w 8 5)) else if bits w 0 8 = 0x1 then some (.divn
    (bits w 18 5) (bits w 13 5) (bits w 8 5)) else none : Option Instr) = some (.divn d a b)
  simp only [g0, g1, g2, g3]
  rfl
theorem rem (d : BitVec 5) (a : BitVec 5) (b : BitVec 5) : Statement (.rem d a b) := by
  intro _
  have hw : Instr.encodeWord (.rem d a b) = (0x5#9 ++ d ++ a ++ b ++ 0x0#8 : BitVec (9+5+5+5+8)) := rfl
  show decodeRow (Instr.encodeWord (.rem d a b)) = some (.rem d a b)
  generalize Instr.encodeWord (.rem d a b) = w at hw ⊢
  have f : bits w 29 3 = 0x0#3 ∧ bits w 23 6 = 0x5#6 ∧ bits w 0 8 = 0x0#8 ∧ bits w 18 5 = d ∧ bits w 13 5 = a ∧ bits w 8 5 = b := by
    subst hw
    refine ⟨?_, ?_, ?_, ?_, ?_, ?_⟩ <;> simp (disch := decide) only [bits, BitVec.extractLsb'_append_eq_of_le, BitVec.extractLsb'_append_eq_of_add_le,
      BitVec.extractLsb'_eq_self, Nat.reduceSub] <;> rfl
  obtain ⟨f1, f2, g0, g1, g2, g3⟩ := f
  unfold decodeRow; rw [f1]; show decodeRowS w = _
  unfold decodeRowS; rw [f2]
  show (if bits w 0 8 = 0 then some (.rem (bits w 18 5) (bits w 13 5) (bits w 8 5)) else if bits w 0 8 = 0x1 then some (.remn
    (bits w 18 5) (bits w 13 5) (bits w 8 5)) else none : Option Instr) = some (.rem d a b)
  simp only [g0, g1, g2, g3]
  rfl
theorem remn (d : BitVec 5) (a : BitVec 5) (b : BitVec 5) : Statement (.remn d a b) := by
  intro _
  have hw : Instr.encodeWord (.remn d a b) = (0x5#9 ++ d ++ a ++ b ++ 0x1#8 : BitVec (9+5+5+5+8)) := rfl
  show decodeRow (Instr.encodeWord (.remn d a b)) = some (.remn d a b)
  generalize Instr.encodeWord (.remn d a b) = w at hw ⊢
  have f : bits w 29 3 = 0x0#3 ∧ bits w 23 6 = 0x5#6 ∧ bits w 0 8 = 0x1#8 ∧ bits w 18 5 = d ∧ bits w 13 5 = a ∧ bits w 8 5 = b := by
    subst hw
    refine ⟨?_, ?_, ?_, ?_, ?_, ?_⟩ <;> simp (disch := decide) only [bits, BitVec.extractLsb'_append_eq_of_le, BitVec.extractLsb'_append_eq_of_add_le,
      BitVec.extractLsb'_eq_self, Nat.reduceSub] <;> rfl
  obtain ⟨f1, f2, g0, g1, g2, g3⟩ := f
  unfold decodeRow; rw [f1]; show decodeRowS w = _
  unfold decodeRowS; rw [f2]
  show (if bits w 0 8 = 0 then some (.rem (bits w 18 5) (bits w 13 5) (bits w 8 5)) else if bits w 0 8 = 0x1 then some (.remn
    (bits w 18 5) (bits w 13 5) (bits w 8 5)) else none : Option Instr) = some (.remn d a b)
  simp only [g0, g1, g2, g3]
  rfl
theorem and (d : BitVec 5) (a : BitVec 5) (b : BitVec 5) : Statement (.and d a b) := by
  intro _
  have hw : Instr.encodeWord (.and d a b) = (0x6#9 ++ d ++ a ++ b ++ 0x0#8 : BitVec (9+5+5+5+8)) := rfl
  show decodeRow (Instr.encodeWord (.and d a b)) = some (.and d a b)
  generalize Instr.encodeWord (.and d a b) = w at hw ⊢
  have f : bits w 29 3 = 0x0#3 ∧ bits w 23 6 = 0x6#6 ∧ bits w 0 8 = 0x0#8 ∧ bits w 18 5 = d ∧ bits w 13 5 = a ∧ bits w 8 5 = b := by
    subst hw
    refine ⟨?_, ?_, ?_, ?_, ?_, ?_⟩ <;> simp (disch := decide) only [bits, BitVec.extractLsb'_append_eq_of_le, BitVec.extractLsb'_append_eq_of_add_le,
      BitVec.extractLsb'_eq_self, Nat.reduceSub] <;> rfl
  obtain ⟨f1, f2, g0, g1, g2, g3⟩ := f
  unfold decodeRow; rw [f1]; show decodeRowS w = _
  unfold decodeRowS; rw [f2]
  show (if bits w 0 8 = 0 then some (.and (bits w 18 5) (bits w 13 5) (bits w 8 5)) else none : Option Instr) = some (.and d a b)
  simp only [g0, g1, g2, g3]
  rfl
theorem or (d : BitVec 5) (a : BitVec 5) (b : BitVec 5) : Statement (.or d a b) := by
  intro _
  have hw : Instr.encodeWord (.or d a b) = (0x7#9 ++ d ++ a ++ b ++ 0x0#8 : BitVec (9+5+5+5+8)) := rfl
  show decodeRow (Instr.encodeWord (.or d a b)) = some (.or d a b)
  generalize Instr.encodeWord (.or d a b) = w at hw ⊢
  have f : bits w 29 3 = 0x0#3 ∧ bits w 23 6 = 0x7#6 ∧ bits w 0 8 = 0x0#8 ∧ bits w 18 5 = d ∧ bits w 13 5 = a ∧ bits w 8 5 = b := by
    subst hw
    refine ⟨?_, ?_, ?_, ?_, ?_, ?_⟩ <;> simp (disch := decide) only [bits, BitVec.extractLsb'_append_eq_of_le, BitVec.extractLsb'_append_eq_of_add_le,
      BitVec.extractLsb'_eq_self, Nat.reduceSub] <;> rfl
  obtain ⟨f1, f2, g0, g1, g2, g3⟩ := f
  unfold decodeRow; rw [f1]; show decodeRowS w = _
  unfold decodeRowS; rw [f2]
  show (if bits w 0 8 = 0 then some (.or (bits w 18 5) (bits w 13 5) (bits w 8 5)) else none : Option Instr) = some (.or d a b)
  simp only [g0, g1, g2, g3]
  rfl
theorem xor (d : BitVec 5) (a : BitVec 5) (b : BitVec 5) : Statement (.xor d a b) := by
  intro _
  have hw : Instr.encodeWord (.xor d a b) = (0x8#9 ++ d ++ a ++ b ++ 0x0#8 : BitVec (9+5+5+5+8)) := rfl
  show decodeRow (Instr.encodeWord (.xor d a b)) = some (.xor d a b)
  generalize Instr.encodeWord (.xor d a b) = w at hw ⊢
  have f : bits w 29 3 = 0x0#3 ∧ bits w 23 6 = 0x8#6 ∧ bits w 0 8 = 0x0#8 ∧ bits w 18 5 = d ∧ bits w 13 5 = a ∧ bits w 8 5 = b := by
    subst hw
    refine ⟨?_, ?_, ?_, ?_, ?_, ?_⟩ <;> simp (disch := decide) only [bits, BitVec.extractLsb'_append_eq_of_le, BitVec.extractLsb'_append_eq_of_add_le,
      BitVec.extractLsb'_eq_self, Nat.reduceSub] <;> rfl
  obtain ⟨f1, f2, g0, g1, g2, g3⟩ := f
  unfold decodeRow; rw [f1]; show decodeRowS w = _
  unfold decodeRowS; rw [f2]
  show (if bits w 0 8 = 0 then some (.xor (bits w 18 5) (bits w 13 5) (bits w 8 5)) else none : Option Instr) = some (.xor d a b)
  simp only [g0, g1, g2, g3]
  rfl
theorem shl (d : BitVec 5) (a : BitVec 5) (b : BitVec 5) : Statement (.shl d a b) := by
  intro _
  have hw : Instr.encodeWord (.shl d a b) = (0x9#9 ++ d ++ a ++ b ++ 0x0#8 : BitVec (9+5+5+5+8)) := rfl
  show decodeRow (Instr.encodeWord (.shl d a b)) = some (.shl d a b)
  generalize Instr.encodeWord (.shl d a b) = w at hw ⊢
  have f : bits w 29 3 = 0x0#3 ∧ bits w 23 6 = 0x9#6 ∧ bits w 0 8 = 0x0#8 ∧ bits w 18 5 = d ∧ bits w 13 5 = a ∧ bits w 8 5 = b := by
    subst hw
    refine ⟨?_, ?_, ?_, ?_, ?_, ?_⟩ <;> simp (disch := decide) only [bits, BitVec.extractLsb'_append_eq_of_le, BitVec.extractLsb'_append_eq_of_add_le,
      BitVec.extractLsb'_eq_self, Nat.reduceSub] <;> rfl
  obtain ⟨f1, f2, g0, g1, g2, g3⟩ := f
  unfold decodeRow; rw [f1]; show decodeRowS w = _
  unfold decodeRowS; rw [f2]
  show (if bits w 0 8 = 0 then some (.shl (bits w 18 5) (bits w 13 5) (bits w 8 5)) else none : Option Instr) = some (.shl d a b)
  simp only [g0, g1, g2, g3]
  rfl
theorem shr (d : BitVec 5) (a : BitVec 5) (b : BitVec 5) : Statement (.shr d a b) := by
  intro _
  have hw : Instr.encodeWord (.shr d a b) = (0xa#9 ++ d ++ a ++ b ++ 0x0#8 : BitVec (9+5+5+5+8)) := rfl
  show decodeRow (Instr.encodeWord (.shr d a b)) = some (.shr d a b)
  generalize Instr.encodeWord (.shr d a b) = w at hw ⊢
  have f : bits w 29 3 = 0x0#3 ∧ bits w 23 6 = 0xa#6 ∧ bits w 0 8 = 0x0#8 ∧ bits w 18 5 = d ∧ bits w 13 5 = a ∧ bits w 8 5 = b := by
    subst hw
    refine ⟨?_, ?_, ?_, ?_, ?_, ?_⟩ <;> simp (disch := decide) only [bits, BitVec.extractLsb'_append_eq_of_le, BitVec.extractLsb'_append_eq_of_add_le,
      BitVec.extractLsb'_eq_self, Nat.reduceSub] <;> rfl
  obtain ⟨f1, f2, g0, g1, g2, g3⟩ := f
  unfold decodeRow; rw [f1]; show decodeRowS w = _
  unfold decodeRowS; rw [f2]
  show (if bits w 0 8 = 0 then some (.shr (bits w 18 5) (bits w 13 5) (bits w 8 5)) else none : Option Instr) = some (.shr d a b)
  simp only [g0, g1, g2, g3]
  rfl
theorem sra (d : BitVec 5) (a : BitVec 5) (b : BitVec 5) : Statement (.sra d a b) := by
  intro _
  have hw : Instr.encodeWord (.sra d a b) = (0xb#9 ++ d ++ a ++ b ++ 0x0#8 : BitVec (9+5+5+5+8)) := rfl
  show decodeRow (Instr.encodeWord (.sra d a b)) = some (.sra d a b)
  generalize Instr.encodeWord (.sra d a b) = w at hw ⊢
  have f : bits w 29 3 = 0x0#3 ∧ bits w 23 6 = 0xb#6 ∧ bits w 0 8 = 0x0#8 ∧ bits w 18 5 = d ∧ bits w 13 5 = a ∧ bits w 8 5 = b := by
    subst hw
    refine ⟨?_, ?_, ?_, ?_, ?_, ?_⟩ <;> simp (disch := decide) only [bits, BitVec.extractLsb'_append_eq_of_le, BitVec.extractLsb'_append_eq_of_add_le,
      BitVec.extractLsb'_eq_self, Nat.reduceSub] <;> rfl
  obtain ⟨f1, f2, g0, g1, g2, g3⟩ := f
  unfold decodeRow; rw [f1]; show decodeRowS w = _
  unfold decodeRowS; rw [f2]
  show (if bits w 0 8 = 0 then some (.sra (bits w 18 5) (bits w 13 5) (bits w 8 5)) else none : Option Instr) = some (.sra d a b)
  simp only [g0, g1, g2, g3]
  rfl
theorem slt (d : BitVec 5) (a : BitVec 5) (b : BitVec 5) : Statement (.slt d a b) := by
  intro _
  have hw : Instr.encodeWord (.slt d a b) = (0xc#9 ++ d ++ a ++ b ++ 0x0#8 : BitVec (9+5+5+5+8)) := rfl
  show decodeRow (Instr.encodeWord (.slt d a b)) = some (.slt d a b)
  generalize Instr.encodeWord (.slt d a b) = w at hw ⊢
  have f : bits w 29 3 = 0x0#3 ∧ bits w 23 6 = 0xc#6 ∧ bits w 0 8 = 0x0#8 ∧ bits w 18 5 = d ∧ bits w 13 5 = a ∧ bits w 8 5 = b := by
    subst hw
    refine ⟨?_, ?_, ?_, ?_, ?_, ?_⟩ <;> simp (disch := decide) only [bits, BitVec.extractLsb'_append_eq_of_le, BitVec.extractLsb'_append_eq_of_add_le,
      BitVec.extractLsb'_eq_self, Nat.reduceSub] <;> rfl
  obtain ⟨f1, f2, g0, g1, g2, g3⟩ := f
  unfold decodeRow; rw [f1]; show decodeRowS w = _
  unfold decodeRowS; rw [f2]
  show (if bits w 0 8 = 0 then some (.slt (bits w 18 5) (bits w 13 5) (bits w 8 5)) else if bits w 0 8 = 0x1 then some (.sltn
    (bits w 18 5) (bits w 13 5) (bits w 8 5)) else none : Option Instr) = some (.slt d a b)
  simp only [g0, g1, g2, g3]
  rfl
theorem sltn (d : BitVec 5) (a : BitVec 5) (b : BitVec 5) : Statement (.sltn d a b) := by
  intro _
  have hw : Instr.encodeWord (.sltn d a b) = (0xc#9 ++ d ++ a ++ b ++ 0x1#8 : BitVec (9+5+5+5+8)) := rfl
  show decodeRow (Instr.encodeWord (.sltn d a b)) = some (.sltn d a b)
  generalize Instr.encodeWord (.sltn d a b) = w at hw ⊢
  have f : bits w 29 3 = 0x0#3 ∧ bits w 23 6 = 0xc#6 ∧ bits w 0 8 = 0x1#8 ∧ bits w 18 5 = d ∧ bits w 13 5 = a ∧ bits w 8 5 = b := by
    subst hw
    refine ⟨?_, ?_, ?_, ?_, ?_, ?_⟩ <;> simp (disch := decide) only [bits, BitVec.extractLsb'_append_eq_of_le, BitVec.extractLsb'_append_eq_of_add_le,
      BitVec.extractLsb'_eq_self, Nat.reduceSub] <;> rfl
  obtain ⟨f1, f2, g0, g1, g2, g3⟩ := f
  unfold decodeRow; rw [f1]; show decodeRowS w = _
  unfold decodeRowS; rw [f2]
  show (if bits w 0 8 = 0 then some (.slt (bits w 18 5) (bits w 13 5) (bits w 8 5)) else if bits w 0 8 = 0x1 then some (.sltn
    (bits w 18 5) (bits w 13 5) (bits w 8 5)) else none : Option Instr) = some (.sltn d a b)
  simp only [g0, g1, g2, g3]
  rfl
theorem seq (d : BitVec 5) (a : BitVec 5) (b : BitVec 5) : Statement (.seq d a b) := by
  intro _
  have hw : Instr.encodeWord (.seq d a b) = (0xd#9 ++ d ++ a ++ b ++ 0x0#8 : BitVec (9+5+5+5+8)) := rfl
  show decodeRow (Instr.encodeWord (.seq d a b)) = some (.seq d a b)
  generalize Instr.encodeWord (.seq d a b) = w at hw ⊢
  have f : bits w 29 3 = 0x0#3 ∧ bits w 23 6 = 0xd#6 ∧ bits w 0 8 = 0x0#8 ∧ bits w 18 5 = d ∧ bits w 13 5 = a ∧ bits w 8 5 = b := by
    subst hw
    refine ⟨?_, ?_, ?_, ?_, ?_, ?_⟩ <;> simp (disch := decide) only [bits, BitVec.extractLsb'_append_eq_of_le, BitVec.extractLsb'_append_eq_of_add_le,
      BitVec.extractLsb'_eq_self, Nat.reduceSub] <;> rfl
  obtain ⟨f1, f2, g0, g1, g2, g3⟩ := f
  unfold decodeRow; rw [f1]; show decodeRowS w = _
  unfold decodeRowS; rw [f2]
  show (if bits w 0 8 = 0 then some (.seq (bits w 18 5) (bits w 13 5) (bits w 8 5)) else none : Option Instr) = some (.seq d a b)
  simp only [g0, g1, g2, g3]
  rfl
theorem min (d : BitVec 5) (a : BitVec 5) (b : BitVec 5) : Statement (.min d a b) := by
  intro _
  have hw : Instr.encodeWord (.min d a b) = (0xe#9 ++ d ++ a ++ b ++ 0x0#8 : BitVec (9+5+5+5+8)) := rfl
  show decodeRow (Instr.encodeWord (.min d a b)) = some (.min d a b)
  generalize Instr.encodeWord (.min d a b) = w at hw ⊢
  have f : bits w 29 3 = 0x0#3 ∧ bits w 23 6 = 0xe#6 ∧ bits w 0 8 = 0x0#8 ∧ bits w 18 5 = d ∧ bits w 13 5 = a ∧ bits w 8 5 = b := by
    subst hw
    refine ⟨?_, ?_, ?_, ?_, ?_, ?_⟩ <;> simp (disch := decide) only [bits, BitVec.extractLsb'_append_eq_of_le, BitVec.extractLsb'_append_eq_of_add_le,
      BitVec.extractLsb'_eq_self, Nat.reduceSub] <;> rfl
  obtain ⟨f1, f2, g0, g1, g2, g3⟩ := f
  unfold decodeRow; rw [f1]; show decodeRowS w = _
  unfold decodeRowS; rw [f2]
  show (if bits w 0 8 = 0 then some (.min (bits w 18 5) (bits w 13 5) (bits w 8 5)) else if bits w 0 8 = 0x1 then some (.minn
    (bits w 18 5) (bits w 13 5) (bits w 8 5)) else none : Option Instr) = some (.min d a b)
  simp only [g0, g1, g2, g3]
  rfl
theorem minn (d : BitVec 5) (a : BitVec 5) (b : BitVec 5) : Statement (.minn d a b) := by
  intro _
  have hw : Instr.encodeWord (.minn d a b) = (0xe#9 ++ d ++ a ++ b ++ 0x1#8 : BitVec (9+5+5+5+8)) := rfl
  show decodeRow (Instr.encodeWord (.minn d a b)) = some (.minn d a b)
  generalize Instr.encodeWord (.minn d a b) = w at hw ⊢
  have f : bits w 29 3 = 0x0#3 ∧ bits w 23 6 = 0xe#6 ∧ bits w 0 8 = 0x1#8 ∧ bits w 18 5 = d ∧ bits w 13 5 = a ∧ bits w 8 5 = b := by
    subst hw
    refine ⟨?_, ?_, ?_, ?_, ?_, ?_⟩ <;> simp (disch := decide) only [bits, BitVec.extractLsb'_append_eq_of_le, BitVec.extractLsb'_append_eq_of_add_le,
      BitVec.extractLsb'_eq_self, Nat.reduceSub] <;> rfl
  obtain ⟨f1, f2, g0, g1, g2, g3⟩ := f
  unfold decodeRow; rw [f1]; show decodeRowS w = _
  unfold decodeRowS; rw [f2]
  show (if bits w 0 8 = 0 then some (.min (bits w 18 5) (bits w 13 5) (bits w 8 5)) else if bits w 0 8 = 0x1 then some (.minn
    (bits w 18 5) (bits w 13 5) (bits w 8 5)) else none : Option Instr) = some (.minn d a b)
  simp only [g0, g1, g2, g3]
  rfl
theorem max (d : BitVec 5) (a : BitVec 5) (b : BitVec 5) : Statement (.max d a b) := by
  intro _
  have hw : Instr.encodeWord (.max d a b) = (0xf#9 ++ d ++ a ++ b ++ 0x0#8 : BitVec (9+5+5+5+8)) := rfl
  show decodeRow (Instr.encodeWord (.max d a b)) = some (.max d a b)
  generalize Instr.encodeWord (.max d a b) = w at hw ⊢
  have f : bits w 29 3 = 0x0#3 ∧ bits w 23 6 = 0xf#6 ∧ bits w 0 8 = 0x0#8 ∧ bits w 18 5 = d ∧ bits w 13 5 = a ∧ bits w 8 5 = b := by
    subst hw
    refine ⟨?_, ?_, ?_, ?_, ?_, ?_⟩ <;> simp (disch := decide) only [bits, BitVec.extractLsb'_append_eq_of_le, BitVec.extractLsb'_append_eq_of_add_le,
      BitVec.extractLsb'_eq_self, Nat.reduceSub] <;> rfl
  obtain ⟨f1, f2, g0, g1, g2, g3⟩ := f
  unfold decodeRow; rw [f1]; show decodeRowS w = _
  unfold decodeRowS; rw [f2]
  show (if bits w 0 8 = 0 then some (.max (bits w 18 5) (bits w 13 5) (bits w 8 5)) else if bits w 0 8 = 0x1 then some (.maxn
    (bits w 18 5) (bits w 13 5) (bits w 8 5)) else none : Option Instr) = some (.max d a b)
  simp only [g0, g1, g2, g3]
  rfl
theorem maxn (d : BitVec 5) (a : BitVec 5) (b : BitVec 5) : Statement (.maxn d a b) := by
  intro _
  have hw : Instr.encodeWord (.maxn d a b) = (0xf#9 ++ d ++ a ++ b ++ 0x1#8 : BitVec (9+5+5+5+8)) := rfl
  show decodeRow (Instr.encodeWord (.maxn d a b)) = some (.maxn d a b)
  generalize Instr.encodeWord (.maxn d a b) = w at hw ⊢
  have f : bits w 29 3 = 0x0#3 ∧ bits w 23 6 = 0xf#6 ∧ bits w 0 8 = 0x1#8 ∧ bits w 18 5 = d ∧ bits w 13 5 = a ∧ bits w 8 5 = b := by
    subst hw
    refine ⟨?_, ?_, ?_, ?_, ?_, ?_⟩ <;> simp (disch := decide) only [bits, BitVec.extractLsb'_append_eq_of_le, BitVec.extractLsb'_append_eq_of_add_le,
      BitVec.extractLsb'_eq_self, Nat.reduceSub] <;> rfl
  obtain ⟨f1, f2, g0, g1, g2, g3⟩ := f
  unfold decodeRow; rw [f1]; show decodeRowS w = _
  unfold decodeRowS; rw [f2]
  show (if bits w 0 8 = 0 then some (.max (bits w 18 5) (bits w 13 5) (bits w 8 5)) else if bits w 0 8 = 0x1 then some (.maxn
    (bits w 18 5) (bits w 13 5) (bits w 8 5)) else none : Option Instr) = some (.maxn d a b)
  simp only [g0, g1, g2, g3]
  rfl
theorem clz (d : BitVec 5) (a : BitVec 5) : Statement (.clz d a) := by
  intro _
  have hw : Instr.encodeWord (.clz d a) = (0x10#9 ++ d ++ a ++ 0x0#13 : BitVec (9+5+5+13)) := rfl
  show decodeRow (Instr.encodeWord (.clz d a)) = some (.clz d a)
  generalize Instr.encodeWord (.clz d a) = w at hw ⊢
  have f : bits w 29 3 = 0x0#3 ∧ bits w 23 6 = 0x10#6 ∧ bits w 0 13 = 0x0#13 ∧ bits w 18 5 = d ∧ bits w 13 5 = a := by
    subst hw
    refine ⟨?_, ?_, ?_, ?_, ?_⟩ <;> simp (disch := decide) only [bits, BitVec.extractLsb'_append_eq_of_le, BitVec.extractLsb'_append_eq_of_add_le,
      BitVec.extractLsb'_eq_self, Nat.reduceSub] <;> rfl
  obtain ⟨f1, f2, g0, g1, g2⟩ := f
  unfold decodeRow; rw [f1]; show decodeRowS w = _
  unfold decodeRowS; rw [f2]
  show (if bits w 0 13 = 0 then some (.clz (bits w 18 5) (bits w 13 5)) else none : Option Instr) = some (.clz d a)
  simp only [g0, g1, g2]
  rfl
theorem ctz (d : BitVec 5) (a : BitVec 5) : Statement (.ctz d a) := by
  intro _
  have hw : Instr.encodeWord (.ctz d a) = (0x11#9 ++ d ++ a ++ 0x0#13 : BitVec (9+5+5+13)) := rfl
  show decodeRow (Instr.encodeWord (.ctz d a)) = some (.ctz d a)
  generalize Instr.encodeWord (.ctz d a) = w at hw ⊢
  have f : bits w 29 3 = 0x0#3 ∧ bits w 23 6 = 0x11#6 ∧ bits w 0 13 = 0x0#13 ∧ bits w 18 5 = d ∧ bits w 13 5 = a := by
    subst hw
    refine ⟨?_, ?_, ?_, ?_, ?_⟩ <;> simp (disch := decide) only [bits, BitVec.extractLsb'_append_eq_of_le, BitVec.extractLsb'_append_eq_of_add_le,
      BitVec.extractLsb'_eq_self, Nat.reduceSub] <;> rfl
  obtain ⟨f1, f2, g0, g1, g2⟩ := f
  unfold decodeRow; rw [f1]; show decodeRowS w = _
  unfold decodeRowS; rw [f2]
  show (if bits w 0 13 = 0 then some (.ctz (bits w 18 5) (bits w 13 5)) else none : Option Instr) = some (.ctz d a)
  simp only [g0, g1, g2]
  rfl
theorem popc (d : BitVec 5) (a : BitVec 5) : Statement (.popc d a) := by
  intro _
  have hw : Instr.encodeWord (.popc d a) = (0x12#9 ++ d ++ a ++ 0x0#13 : BitVec (9+5+5+13)) := rfl
  show decodeRow (Instr.encodeWord (.popc d a)) = some (.popc d a)
  generalize Instr.encodeWord (.popc d a) = w at hw ⊢
  have f : bits w 29 3 = 0x0#3 ∧ bits w 23 6 = 0x12#6 ∧ bits w 0 13 = 0x0#13 ∧ bits w 18 5 = d ∧ bits w 13 5 = a := by
    subst hw
    refine ⟨?_, ?_, ?_, ?_, ?_⟩ <;> simp (disch := decide) only [bits, BitVec.extractLsb'_append_eq_of_le, BitVec.extractLsb'_append_eq_of_add_le,
      BitVec.extractLsb'_eq_self, Nat.reduceSub] <;> rfl
  obtain ⟨f1, f2, g0, g1, g2⟩ := f
  unfold decodeRow; rw [f1]; show decodeRowS w = _
  unfold decodeRowS; rw [f2]
  show (if bits w 0 13 = 0 then some (.popc (bits w 18 5) (bits w 13 5)) else none : Option Instr) = some (.popc d a)
  simp only [g0, g1, g2]
  rfl
theorem wfld (d : BitVec 5) (a : BitVec 5) (k : BitVec 3) : Statement (.wfld d a k) := by
  intro _
  have hw : Instr.encodeWord (.wfld d a k) = (0x13#9 ++ d ++ a ++ 0x0#10 ++ k : BitVec (9+5+5+10+3)) := rfl
  show decodeRow (Instr.encodeWord (.wfld d a k)) = some (.wfld d a k)
  generalize Instr.encodeWord (.wfld d a k) = w at hw ⊢
  have f : bits w 29 3 = 0x0#3 ∧ bits w 23 6 = 0x13#6 ∧ bits w 3 10 = 0x0#10 ∧ bits w 18 5 = d ∧ bits w 13 5 = a ∧ bits w 0 3 = k := by
    subst hw
    refine ⟨?_, ?_, ?_, ?_, ?_, ?_⟩ <;> simp (disch := decide) only [bits, BitVec.extractLsb'_append_eq_of_le, BitVec.extractLsb'_append_eq_of_add_le,
      BitVec.extractLsb'_eq_self, Nat.reduceSub] <;> rfl
  obtain ⟨f1, f2, g0, g1, g2, g3⟩ := f
  unfold decodeRow; rw [f1]; show decodeRowS w = _
  unfold decodeRowS; rw [f2]
  show (if bits w 3 10 = 0 then some (.wfld (bits w 18 5) (bits w 13 5) (bits w 0 3)) else none : Option Instr) = some (.wfld d a k)
  simp only [g0, g1, g2, g3]
  rfl
theorem addi (d : BitVec 5) (a : BitVec 5) (i : BitVec 13) (p3 : Option (BitVec 29)) : Statement (.addi d a i p3) := by
  intro _
  have hw : Instr.encodeWord (.addi d a i p3) = (0x14#9 ++ d ++ a ++ i : BitVec (9+5+5+13)) := rfl
  show decodeRow (Instr.encodeWord (.addi d a i p3)) = some (.addi d a i none)
  generalize Instr.encodeWord (.addi d a i p3) = w at hw ⊢
  have f : bits w 29 3 = 0x0#3 ∧ bits w 23 6 = 0x14#6 ∧ bits w 18 5 = d ∧ bits w 13 5 = a ∧ bits w 0 13 = i := by
    subst hw
    refine ⟨?_, ?_, ?_, ?_, ?_⟩ <;> simp (disch := decide) only [bits, BitVec.extractLsb'_append_eq_of_le, BitVec.extractLsb'_append_eq_of_add_le,
      BitVec.extractLsb'_eq_self, Nat.reduceSub] <;> rfl
  obtain ⟨f1, f2, g0, g1, g2⟩ := f
  unfold decodeRow; rw [f1]; show decodeRowS w = _
  unfold decodeRowS; rw [f2]
  show (some (.addi (bits w 18 5) (bits w 13 5) (bits w 0 13) none) : Option Instr) = some (.addi d a i none)
  simp only [g0, g1, g2]
theorem andi (d : BitVec 5) (a : BitVec 5) (i : BitVec 13) (p3 : Option (BitVec 29)) : Statement (.andi d a i p3) := by
  intro _
  have hw : Instr.encodeWord (.andi d a i p3) = (0x15#9 ++ d ++ a ++ i : BitVec (9+5+5+13)) := rfl
  show decodeRow (Instr.encodeWord (.andi d a i p3)) = some (.andi d a i none)
  generalize Instr.encodeWord (.andi d a i p3) = w at hw ⊢
  have f : bits w 29 3 = 0x0#3 ∧ bits w 23 6 = 0x15#6 ∧ bits w 18 5 = d ∧ bits w 13 5 = a ∧ bits w 0 13 = i := by
    subst hw
    refine ⟨?_, ?_, ?_, ?_, ?_⟩ <;> simp (disch := decide) only [bits, BitVec.extractLsb'_append_eq_of_le, BitVec.extractLsb'_append_eq_of_add_le,
      BitVec.extractLsb'_eq_self, Nat.reduceSub] <;> rfl
  obtain ⟨f1, f2, g0, g1, g2⟩ := f
  unfold decodeRow; rw [f1]; show decodeRowS w = _
  unfold decodeRowS; rw [f2]
  show (some (.andi (bits w 18 5) (bits w 13 5) (bits w 0 13) none) : Option Instr) = some (.andi d a i none)
  simp only [g0, g1, g2]
theorem ori (d : BitVec 5) (a : BitVec 5) (i : BitVec 13) (p3 : Option (BitVec 29)) : Statement (.ori d a i p3) := by
  intro _
  have hw : Instr.encodeWord (.ori d a i p3) = (0x16#9 ++ d ++ a ++ i : BitVec (9+5+5+13)) := rfl
  show decodeRow (Instr.encodeWord (.ori d a i p3)) = some (.ori d a i none)
  generalize Instr.encodeWord (.ori d a i p3) = w at hw ⊢
  have f : bits w 29 3 = 0x0#3 ∧ bits w 23 6 = 0x16#6 ∧ bits w 18 5 = d ∧ bits w 13 5 = a ∧ bits w 0 13 = i := by
    subst hw
    refine ⟨?_, ?_, ?_, ?_, ?_⟩ <;> simp (disch := decide) only [bits, BitVec.extractLsb'_append_eq_of_le, BitVec.extractLsb'_append_eq_of_add_le,
      BitVec.extractLsb'_eq_self, Nat.reduceSub] <;> rfl
  obtain ⟨f1, f2, g0, g1, g2⟩ := f
  unfold decodeRow; rw [f1]; show decodeRowS w = _
  unfold decodeRowS; rw [f2]
  show (some (.ori (bits w 18 5) (bits w 13 5) (bits w 0 13) none) : Option Instr) = some (.ori d a i none)
  simp only [g0, g1, g2]
theorem xori (d : BitVec 5) (a : BitVec 5) (i : BitVec 13) (p3 : Option (BitVec 29)) : Statement (.xori d a i p3) := by
  intro _
  have hw : Instr.encodeWord (.xori d a i p3) = (0x17#9 ++ d ++ a ++ i : BitVec (9+5+5+13)) := rfl
  show decodeRow (Instr.encodeWord (.xori d a i p3)) = some (.xori d a i none)
  generalize Instr.encodeWord (.xori d a i p3) = w at hw ⊢
  have f : bits w 29 3 = 0x0#3 ∧ bits w 23 6 = 0x17#6 ∧ bits w 18 5 = d ∧ bits w 13 5 = a ∧ bits w 0 13 = i := by
    subst hw
    refine ⟨?_, ?_, ?_, ?_, ?_⟩ <;> simp (disch := decide) only [bits, BitVec.extractLsb'_append_eq_of_le, BitVec.extractLsb'_append_eq_of_add_le,
      BitVec.extractLsb'_eq_self, Nat.reduceSub] <;> rfl
  obtain ⟨f1, f2, g0, g1, g2⟩ := f
  unfold decodeRow; rw [f1]; show decodeRowS w = _
  unfold decodeRowS; rw [f2]
  show (some (.xori (bits w 18 5) (bits w 13 5) (bits w 0 13) none) : Option Instr) = some (.xori d a i none)
  simp only [g0, g1, g2]
theorem shli (d : BitVec 5) (a : BitVec 5) (c : BitVec 6) : Statement (.shli d a c) := by
  intro _
  have hw : Instr.encodeWord (.shli d a c) = (0x18#9 ++ d ++ a ++ 0x0#7 ++ c : BitVec (9+5+5+7+6)) := rfl
  show decodeRow (Instr.encodeWord (.shli d a c)) = some (.shli d a c)
  generalize Instr.encodeWord (.shli d a c) = w at hw ⊢
  have f : bits w 29 3 = 0x0#3 ∧ bits w 23 6 = 0x18#6 ∧ bits w 6 7 = 0x0#7 ∧ bits w 18 5 = d ∧ bits w 13 5 = a ∧ bits w 0 6 = c := by
    subst hw
    refine ⟨?_, ?_, ?_, ?_, ?_, ?_⟩ <;> simp (disch := decide) only [bits, BitVec.extractLsb'_append_eq_of_le, BitVec.extractLsb'_append_eq_of_add_le,
      BitVec.extractLsb'_eq_self, Nat.reduceSub] <;> rfl
  obtain ⟨f1, f2, g0, g1, g2, g3⟩ := f
  unfold decodeRow; rw [f1]; show decodeRowS w = _
  unfold decodeRowS; rw [f2]
  show (if bits w 6 7 = 0 then some (.shli (bits w 18 5) (bits w 13 5) (bits w 0 6)) else none : Option Instr) = some (.shli d a c)
  simp only [g0, g1, g2, g3]
  rfl
theorem shri (d : BitVec 5) (a : BitVec 5) (c : BitVec 6) : Statement (.shri d a c) := by
  intro _
  have hw : Instr.encodeWord (.shri d a c) = (0x19#9 ++ d ++ a ++ 0x0#7 ++ c : BitVec (9+5+5+7+6)) := rfl
  show decodeRow (Instr.encodeWord (.shri d a c)) = some (.shri d a c)
  generalize Instr.encodeWord (.shri d a c) = w at hw ⊢
  have f : bits w 29 3 = 0x0#3 ∧ bits w 23 6 = 0x19#6 ∧ bits w 6 7 = 0x0#7 ∧ bits w 18 5 = d ∧ bits w 13 5 = a ∧ bits w 0 6 = c := by
    subst hw
    refine ⟨?_, ?_, ?_, ?_, ?_, ?_⟩ <;> simp (disch := decide) only [bits, BitVec.extractLsb'_append_eq_of_le, BitVec.extractLsb'_append_eq_of_add_le,
      BitVec.extractLsb'_eq_self, Nat.reduceSub] <;> rfl
  obtain ⟨f1, f2, g0, g1, g2, g3⟩ := f
  unfold decodeRow; rw [f1]; show decodeRowS w = _
  unfold decodeRowS; rw [f2]
  show (if bits w 6 7 = 0 then some (.shri (bits w 18 5) (bits w 13 5) (bits w 0 6)) else none : Option Instr) = some (.shri d a c)
  simp only [g0, g1, g2, g3]
  rfl
theorem srai (d : BitVec 5) (a : BitVec 5) (c : BitVec 6) : Statement (.srai d a c) := by
  intro _
  have hw : Instr.encodeWord (.srai d a c) = (0x1a#9 ++ d ++ a ++ 0x0#7 ++ c : BitVec (9+5+5+7+6)) := rfl
  show decodeRow (Instr.encodeWord (.srai d a c)) = some (.srai d a c)
  generalize Instr.encodeWord (.srai d a c) = w at hw ⊢
  have f : bits w 29 3 = 0x0#3 ∧ bits w 23 6 = 0x1a#6 ∧ bits w 6 7 = 0x0#7 ∧ bits w 18 5 = d ∧ bits w 13 5 = a ∧ bits w 0 6 = c := by
    subst hw
    refine ⟨?_, ?_, ?_, ?_, ?_, ?_⟩ <;> simp (disch := decide) only [bits, BitVec.extractLsb'_append_eq_of_le, BitVec.extractLsb'_append_eq_of_add_le,
      BitVec.extractLsb'_eq_self, Nat.reduceSub] <;> rfl
  obtain ⟨f1, f2, g0, g1, g2, g3⟩ := f
  unfold decodeRow; rw [f1]; show decodeRowS w = _
  unfold decodeRowS; rw [f2]
  show (if bits w 6 7 = 0 then some (.srai (bits w 18 5) (bits w 13 5) (bits w 0 6)) else none : Option Instr) = some (.srai d a c)
  simp only [g0, g1, g2, g3]
  rfl
theorem slti (d : BitVec 5) (a : BitVec 5) (i : BitVec 13) (p3 : Option (BitVec 29)) : Statement (.slti d a i p3) := by
  intro _
  have hw : Instr.encodeWord (.slti d a i p3) = (0x1b#9 ++ d ++ a ++ i : BitVec (9+5+5+13)) := rfl
  show decodeRow (Instr.encodeWord (.slti d a i p3)) = some (.slti d a i none)
  generalize Instr.encodeWord (.slti d a i p3) = w at hw ⊢
  have f : bits w 29 3 = 0x0#3 ∧ bits w 23 6 = 0x1b#6 ∧ bits w 18 5 = d ∧ bits w 13 5 = a ∧ bits w 0 13 = i := by
    subst hw
    refine ⟨?_, ?_, ?_, ?_, ?_⟩ <;> simp (disch := decide) only [bits, BitVec.extractLsb'_append_eq_of_le, BitVec.extractLsb'_append_eq_of_add_le,
      BitVec.extractLsb'_eq_self, Nat.reduceSub] <;> rfl
  obtain ⟨f1, f2, g0, g1, g2⟩ := f
  unfold decodeRow; rw [f1]; show decodeRowS w = _
  unfold decodeRowS; rw [f2]
  show (some (.slti (bits w 18 5) (bits w 13 5) (bits w 0 13) none) : Option Instr) = some (.slti d a i none)
  simp only [g0, g1, g2]
theorem movi (d : BitVec 5) (i : BitVec 18) (p2 : Option (BitVec 29)) : Statement (.movi d i p2) := by
  intro _
  have hw : Instr.encodeWord (.movi d i p2) = (0x1c#9 ++ d ++ i : BitVec (9+5+18)) := rfl
  show decodeRow (Instr.encodeWord (.movi d i p2)) = some (.movi d i none)
  generalize Instr.encodeWord (.movi d i p2) = w at hw ⊢
  have f : bits w 29 3 = 0x0#3 ∧ bits w 23 6 = 0x1c#6 ∧ bits w 18 5 = d ∧ bits w 0 18 = i := by
    subst hw
    refine ⟨?_, ?_, ?_, ?_⟩ <;> simp (disch := decide) only [bits, BitVec.extractLsb'_append_eq_of_le, BitVec.extractLsb'_append_eq_of_add_le,
      BitVec.extractLsb'_eq_self, Nat.reduceSub] <;> rfl
  obtain ⟨f1, f2, g0, g1⟩ := f
  unfold decodeRow; rw [f1]; show decodeRowS w = _
  unfold decodeRowS; rw [f2]
  show (some (.movi (bits w 18 5) (bits w 0 18) none) : Option Instr) = some (.movi d i none)
  simp only [g0, g1]
theorem movhi (d : BitVec 5) (i : BitVec 18) (p2 : Option (BitVec 29)) : Statement (.movhi d i p2) := by
  intro _
  have hw : Instr.encodeWord (.movhi d i p2) = (0x1d#9 ++ d ++ i : BitVec (9+5+18)) := rfl
  show decodeRow (Instr.encodeWord (.movhi d i p2)) = some (.movhi d i none)
  generalize Instr.encodeWord (.movhi d i p2) = w at hw ⊢
  have f : bits w 29 3 = 0x0#3 ∧ bits w 23 6 = 0x1d#6 ∧ bits w 18 5 = d ∧ bits w 0 18 = i := by
    subst hw
    refine ⟨?_, ?_, ?_, ?_⟩ <;> simp (disch := decide) only [bits, BitVec.extractLsb'_append_eq_of_le, BitVec.extractLsb'_append_eq_of_add_le,
      BitVec.extractLsb'_eq_self, Nat.reduceSub] <;> rfl
  obtain ⟨f1, f2, g0, g1⟩ := f
  unfold decodeRow; rw [f1]; show decodeRowS w = _
  unfold decodeRowS; rw [f2]
  show (some (.movhi (bits w 18 5) (bits w 0 18) none) : Option Instr) = some (.movhi d i none)
  simp only [g0, g1]
theorem sel (d : BitVec 5) (a : BitVec 5) (b : BitVec 5) (c : BitVec 5) : Statement (.sel d a b c) := by
  intro _
  have hw : Instr.encodeWord (.sel d a b c) = (0x1e#9 ++ d ++ a ++ b ++ c ++ 0x0#3 : BitVec (9+5+5+5+5+3)) := rfl
  show decodeRow (Instr.encodeWord (.sel d a b c)) = some (.sel d a b c)
  generalize Instr.encodeWord (.sel d a b c) = w at hw ⊢
  have f : bits w 29 3 = 0x0#3 ∧ bits w 23 6 = 0x1e#6 ∧ bits w 0 3 = 0x0#3 ∧ bits w 18 5 = d ∧ bits w 13 5 = a ∧ bits w 8 5 = b ∧
      bits w 3 5 = c := by
    subst hw
    refine ⟨?_, ?_, ?_, ?_, ?_, ?_, ?_⟩ <;> simp (disch := decide) only [bits, BitVec.extractLsb'_append_eq_of_le, BitVec.extractLsb'_append_eq_of_add_le,
      BitVec.extractLsb'_eq_self, Nat.reduceSub] <;> rfl
  obtain ⟨f1, f2, g0, g1, g2, g3, g4⟩ := f
  unfold decodeRow; rw [f1]; show decodeRowS w = _
  unfold decodeRowS; rw [f2]
  show (if bits w 0 3 = 0 then some (.sel (bits w 18 5) (bits w 13 5) (bits w 8 5) (bits w 3 5)) else none : Option Instr) = some (.sel d a b c)
  simp only [g0, g1, g2, g3, g4]
  rfl
theorem beq (a : BitVec 5) (b : BitVec 5) (o : BitVec 13) (p3 : Option (BitVec 29)) : Statement (.beq a b o p3) := by
  intro _
  have hw : Instr.encodeWord (.beq a b o p3) = (0x20#9 ++ a ++ b ++ o : BitVec (9+5+5+13)) := rfl
  show decodeRow (Instr.encodeWord (.beq a b o p3)) = some (.beq a b o none)
  generalize Instr.encodeWord (.beq a b o p3) = w at hw ⊢
  have f : bits w 29 3 = 0x0#3 ∧ bits w 23 6 = 0x20#6 ∧ bits w 18 5 = a ∧ bits w 13 5 = b ∧ bits w 0 13 = o := by
    subst hw
    refine ⟨?_, ?_, ?_, ?_, ?_⟩ <;> simp (disch := decide) only [bits, BitVec.extractLsb'_append_eq_of_le, BitVec.extractLsb'_append_eq_of_add_le,
      BitVec.extractLsb'_eq_self, Nat.reduceSub] <;> rfl
  obtain ⟨f1, f2, g0, g1, g2⟩ := f
  unfold decodeRow; rw [f1]; show decodeRowS w = _
  unfold decodeRowS; rw [f2]
  show (some (.beq (bits w 18 5) (bits w 13 5) (bits w 0 13) none) : Option Instr) = some (.beq a b o none)
  simp only [g0, g1, g2]
theorem bne (a : BitVec 5) (b : BitVec 5) (o : BitVec 13) (p3 : Option (BitVec 29)) : Statement (.bne a b o p3) := by
  intro _
  have hw : Instr.encodeWord (.bne a b o p3) = (0x21#9 ++ a ++ b ++ o : BitVec (9+5+5+13)) := rfl
  show decodeRow (Instr.encodeWord (.bne a b o p3)) = some (.bne a b o none)
  generalize Instr.encodeWord (.bne a b o p3) = w at hw ⊢
  have f : bits w 29 3 = 0x0#3 ∧ bits w 23 6 = 0x21#6 ∧ bits w 18 5 = a ∧ bits w 13 5 = b ∧ bits w 0 13 = o := by
    subst hw
    refine ⟨?_, ?_, ?_, ?_, ?_⟩ <;> simp (disch := decide) only [bits, BitVec.extractLsb'_append_eq_of_le, BitVec.extractLsb'_append_eq_of_add_le,
      BitVec.extractLsb'_eq_self, Nat.reduceSub] <;> rfl
  obtain ⟨f1, f2, g0, g1, g2⟩ := f
  unfold decodeRow; rw [f1]; show decodeRowS w = _
  unfold decodeRowS; rw [f2]
  show (some (.bne (bits w 18 5) (bits w 13 5) (bits w 0 13) none) : Option Instr) = some (.bne a b o none)
  simp only [g0, g1, g2]
theorem blt (a : BitVec 5) (b : BitVec 5) (o : BitVec 13) (p3 : Option (BitVec 29)) : Statement (.blt a b o p3) := by
  intro _
  have hw : Instr.encodeWord (.blt a b o p3) = (0x22#9 ++ a ++ b ++ o : BitVec (9+5+5+13)) := rfl
  show decodeRow (Instr.encodeWord (.blt a b o p3)) = some (.blt a b o none)
  generalize Instr.encodeWord (.blt a b o p3) = w at hw ⊢
  have f : bits w 29 3 = 0x0#3 ∧ bits w 23 6 = 0x22#6 ∧ bits w 18 5 = a ∧ bits w 13 5 = b ∧ bits w 0 13 = o := by
    subst hw
    refine ⟨?_, ?_, ?_, ?_, ?_⟩ <;> simp (disch := decide) only [bits, BitVec.extractLsb'_append_eq_of_le, BitVec.extractLsb'_append_eq_of_add_le,
      BitVec.extractLsb'_eq_self, Nat.reduceSub] <;> rfl
  obtain ⟨f1, f2, g0, g1, g2⟩ := f
  unfold decodeRow; rw [f1]; show decodeRowS w = _
  unfold decodeRowS; rw [f2]
  show (some (.blt (bits w 18 5) (bits w 13 5) (bits w 0 13) none) : Option Instr) = some (.blt a b o none)
  simp only [g0, g1, g2]
theorem bge (a : BitVec 5) (b : BitVec 5) (o : BitVec 13) (p3 : Option (BitVec 29)) : Statement (.bge a b o p3) := by
  intro _
  have hw : Instr.encodeWord (.bge a b o p3) = (0x23#9 ++ a ++ b ++ o : BitVec (9+5+5+13)) := rfl
  show decodeRow (Instr.encodeWord (.bge a b o p3)) = some (.bge a b o none)
  generalize Instr.encodeWord (.bge a b o p3) = w at hw ⊢
  have f : bits w 29 3 = 0x0#3 ∧ bits w 23 6 = 0x23#6 ∧ bits w 18 5 = a ∧ bits w 13 5 = b ∧ bits w 0 13 = o := by
    subst hw
    refine ⟨?_, ?_, ?_, ?_, ?_⟩ <;> simp (disch := decide) only [bits, BitVec.extractLsb'_append_eq_of_le, BitVec.extractLsb'_append_eq_of_add_le,
      BitVec.extractLsb'_eq_self, Nat.reduceSub] <;> rfl
  obtain ⟨f1, f2, g0, g1, g2⟩ := f
  unfold decodeRow; rw [f1]; show decodeRowS w = _
  unfold decodeRowS; rw [f2]
  show (some (.bge (bits w 18 5) (bits w 13 5) (bits w 0 13) none) : Option Instr) = some (.bge a b o none)
  simp only [g0, g1, g2]
theorem bltn (a : BitVec 5) (b : BitVec 5) (o : BitVec 13) (p3 : Option (BitVec 29)) : Statement (.bltn a b o p3) := by
  intro _
  have hw : Instr.encodeWord (.bltn a b o p3) = (0x24#9 ++ a ++ b ++ o : BitVec (9+5+5+13)) := rfl
  show decodeRow (Instr.encodeWord (.bltn a b o p3)) = some (.bltn a b o none)
  generalize Instr.encodeWord (.bltn a b o p3) = w at hw ⊢
  have f : bits w 29 3 = 0x0#3 ∧ bits w 23 6 = 0x24#6 ∧ bits w 18 5 = a ∧ bits w 13 5 = b ∧ bits w 0 13 = o := by
    subst hw
    refine ⟨?_, ?_, ?_, ?_, ?_⟩ <;> simp (disch := decide) only [bits, BitVec.extractLsb'_append_eq_of_le, BitVec.extractLsb'_append_eq_of_add_le,
      BitVec.extractLsb'_eq_self, Nat.reduceSub] <;> rfl
  obtain ⟨f1, f2, g0, g1, g2⟩ := f
  unfold decodeRow; rw [f1]; show decodeRowS w = _
  unfold decodeRowS; rw [f2]
  show (some (.bltn (bits w 18 5) (bits w 13 5) (bits w 0 13) none) : Option Instr) = some (.bltn a b o none)
  simp only [g0, g1, g2]
theorem bgen (a : BitVec 5) (b : BitVec 5) (o : BitVec 13) (p3 : Option (BitVec 29)) : Statement (.bgen a b o p3) := by
  intro _
  have hw : Instr.encodeWord (.bgen a b o p3) = (0x25#9 ++ a ++ b ++ o : BitVec (9+5+5+13)) := rfl
  show decodeRow (Instr.encodeWord (.bgen a b o p3)) = some (.bgen a b o none)
  generalize Instr.encodeWord (.bgen a b o p3) = w at hw ⊢
  have f : bits w 29 3 = 0x0#3 ∧ bits w 23 6 = 0x25#6 ∧ bits w 18 5 = a ∧ bits w 13 5 = b ∧ bits w 0 13 = o := by
    subst hw
    refine ⟨?_, ?_, ?_, ?_, ?_⟩ <;> simp (disch := decide) only [bits, BitVec.extractLsb'_append_eq_of_le, BitVec.extractLsb'_append_eq_of_add_le,
      BitVec.extractLsb'_eq_self, Nat.reduceSub] <;> rfl
  obtain ⟨f1, f2, g0, g1, g2⟩ := f
  unfold decodeRow; rw [f1]; show decodeRowS w = _
  unfold decodeRowS; rw [f2]
  show (some (.bgen (bits w 18 5) (bits w 13 5) (bits w 0 13) none) : Option Instr) = some (.bgen a b o none)
  simp only [g0, g1, g2]
theorem jmp (o : BitVec 23) (p1 : Option (BitVec 29)) : Statement (.jmp o p1) := by
  intro _
  have hw : Instr.encodeWord (.jmp o p1) = (0x28#9 ++ o : BitVec (9+23)) := rfl
  show decodeRow (Instr.encodeWord (.jmp o p1)) = some (.jmp o none)
  generalize Instr.encodeWord (.jmp o p1) = w at hw ⊢
  have f : bits w 29 3 = 0x0#3 ∧ bits w 23 6 = 0x28#6 ∧ bits w 0 23 = o := by
    subst hw
    refine ⟨?_, ?_, ?_⟩ <;> simp (disch := decide) only [bits, BitVec.extractLsb'_append_eq_of_le, BitVec.extractLsb'_append_eq_of_add_le,
      BitVec.extractLsb'_eq_self, Nat.reduceSub] <;> rfl
  obtain ⟨f1, f2, g0⟩ := f
  unfold decodeRow; rw [f1]; show decodeRowS w = _
  unfold decodeRowS; rw [f2]
  show (some (.jmp (bits w 0 23) none) : Option Instr) = some (.jmp o none)
  simp only [g0]
theorem call (o : BitVec 23) (p1 : Option (BitVec 29)) : Statement (.call o p1) := by
  intro _
  have hw : Instr.encodeWord (.call o p1) = (0x29#9 ++ o : BitVec (9+23)) := rfl
  show decodeRow (Instr.encodeWord (.call o p1)) = some (.call o none)
  generalize Instr.encodeWord (.call o p1) = w at hw ⊢
  have f : bits w 29 3 = 0x0#3 ∧ bits w 23 6 = 0x29#6 ∧ bits w 0 23 = o := by
    subst hw
    refine ⟨?_, ?_, ?_⟩ <;> simp (disch := decide) only [bits, BitVec.extractLsb'_append_eq_of_le, BitVec.extractLsb'_append_eq_of_add_le,
      BitVec.extractLsb'_eq_self, Nat.reduceSub] <;> rfl
  obtain ⟨f1, f2, g0⟩ := f
  unfold decodeRow; rw [f1]; show decodeRowS w = _
  unfold decodeRowS; rw [f2]
  show (some (.call (bits w 0 23) none) : Option Instr) = some (.call o none)
  simp only [g0]
theorem jr (a : BitVec 5) (i : BitVec 13) (p2 : Option (BitVec 29)) : Statement (.jr a i p2) := by
  intro _
  have hw : Instr.encodeWord (.jr a i p2) = (0x2a#9 ++ 0x0#5 ++ a ++ i : BitVec (9+5+5+13)) := rfl
  show decodeRow (Instr.encodeWord (.jr a i p2)) = some (.jr a i none)
  generalize Instr.encodeWord (.jr a i p2) = w at hw ⊢
  have f : bits w 29 3 = 0x0#3 ∧ bits w 23 6 = 0x2a#6 ∧ bits w 18 5 = 0x0#5 ∧ bits w 13 5 = a ∧ bits w 0 13 = i := by
    subst hw
    refine ⟨?_, ?_, ?_, ?_, ?_⟩ <;> simp (disch := decide) only [bits, BitVec.extractLsb'_append_eq_of_le, BitVec.extractLsb'_append_eq_of_add_le,
      BitVec.extractLsb'_eq_self, Nat.reduceSub] <;> rfl
  obtain ⟨f1, f2, g0, g1, g2⟩ := f
  unfold decodeRow; rw [f1]; show decodeRowS w = _
  unfold decodeRowS; rw [f2]
  show (if bits w 18 5 = 0 then some (.jr (bits w 13 5) (bits w 0 13) none) else none : Option Instr) = some (.jr a i none)
  simp only [g0, g1, g2]
  rfl
theorem callr (a : BitVec 5) (i : BitVec 13) (p2 : Option (BitVec 29)) : Statement (.callr a i p2) := by
  intro _
  have hw : Instr.encodeWord (.callr a i p2) = (0x2b#9 ++ 0x0#5 ++ a ++ i : BitVec (9+5+5+13)) := rfl
  show decodeRow (Instr.encodeWord (.callr a i p2)) = some (.callr a i none)
  generalize Instr.encodeWord (.callr a i p2) = w at hw ⊢
  have f : bits w 29 3 = 0x0#3 ∧ bits w 23 6 = 0x2b#6 ∧ bits w 18 5 = 0x0#5 ∧ bits w 13 5 = a ∧ bits w 0 13 = i := by
    subst hw
    refine ⟨?_, ?_, ?_, ?_, ?_⟩ <;> simp (disch := decide) only [bits, BitVec.extractLsb'_append_eq_of_le, BitVec.extractLsb'_append_eq_of_add_le,
      BitVec.extractLsb'_eq_self, Nat.reduceSub] <;> rfl
  obtain ⟨f1, f2, g0, g1, g2⟩ := f
  unfold decodeRow; rw [f1]; show decodeRowS w = _
  unfold decodeRowS; rw [f2]
  show (if bits w 18 5 = 0 then some (.callr (bits w 13 5) (bits w 0 13) none) else none : Option Instr) = some (.callr a i none)
  simp only [g0, g1, g2]
  rfl
theorem loop (a : BitVec 5) (l : BitVec 7) : Statement (.loop a l) := by
  intro _
  have hw : Instr.encodeWord (.loop a l) = (0x30#9 ++ 0x0#5 ++ a ++ 0x0#6 ++ l : BitVec (9+5+5+6+7)) := rfl
  show decodeRow (Instr.encodeWord (.loop a l)) = some (.loop a l)
  generalize Instr.encodeWord (.loop a l) = w at hw ⊢
  have f : bits w 29 3 = 0x0#3 ∧ bits w 23 6 = 0x30#6 ∧ bits w 18 5 = 0x0#5 ∧ bits w 7 6 = 0x0#6 ∧ bits w 13 5 = a ∧ bits w 0 7 =
      l := by
    subst hw
    refine ⟨?_, ?_, ?_, ?_, ?_, ?_⟩ <;> simp (disch := decide) only [bits, BitVec.extractLsb'_append_eq_of_le, BitVec.extractLsb'_append_eq_of_add_le,
      BitVec.extractLsb'_eq_self, Nat.reduceSub] <;> rfl
  obtain ⟨f1, f2, g0, g1, g2, g3⟩ := f
  unfold decodeRow; rw [f1]; show decodeRowS w = _
  unfold decodeRowS; rw [f2]
  show (if bits w 18 5 = 0 ∧ bits w 7 6 = 0 then some (.loop (bits w 13 5) (bits w 0 7)) else none : Option Instr) = some (.loop a l)
  simp only [g0, g1, g2, g3]
  rfl
theorem loopi (c : BitVec 16) (l : BitVec 7) : Statement (.loopi c l) := by
  intro _
  have hw : Instr.encodeWord (.loopi c l) = (0x31#9 ++ c ++ l : BitVec (9+16+7)) := rfl
  show decodeRow (Instr.encodeWord (.loopi c l)) = some (.loopi c l)
  generalize Instr.encodeWord (.loopi c l) = w at hw ⊢
  have f : bits w 29 3 = 0x0#3 ∧ bits w 23 6 = 0x31#6 ∧ bits w 7 16 = c ∧ bits w 0 7 = l := by
    subst hw
    refine ⟨?_, ?_, ?_, ?_⟩ <;> simp (disch := decide) only [bits, BitVec.extractLsb'_append_eq_of_le, BitVec.extractLsb'_append_eq_of_add_le,
      BitVec.extractLsb'_eq_self, Nat.reduceSub] <;> rfl
  obtain ⟨f1, f2, g0, g1⟩ := f
  unfold decodeRow; rw [f1]; show decodeRowS w = _
  unfold decodeRowS; rw [f2]
  show (some (.loopi (bits w 7 16) (bits w 0 7)) : Option Instr) = some (.loopi c l)
  simp only [g0, g1]
theorem loops (a : BitVec 5) (b : BitVec 5) (t : BitVec 2) (l : BitVec 5) : Statement (.loops a b t l) := by
  intro _
  have hw : Instr.encodeWord (.loops a b t l) = (0x32#9 ++ 0x0#5 ++ a ++ b ++ 0x0#1 ++ t ++ l : BitVec (9+5+5+5+1+2+5)) := rfl
  show decodeRow (Instr.encodeWord (.loops a b t l)) = some (.loops a b t l)
  generalize Instr.encodeWord (.loops a b t l) = w at hw ⊢
  have f : bits w 29 3 = 0x0#3 ∧ bits w 23 6 = 0x32#6 ∧ bits w 18 5 = 0x0#5 ∧ bits w 7 1 = 0x0#1 ∧ bits w 13 5 = a ∧ bits w 8 5 =
      b ∧ bits w 5 2 = t ∧ bits w 0 5 = l := by
    subst hw
    refine ⟨?_, ?_, ?_, ?_, ?_, ?_, ?_, ?_⟩ <;> simp (disch := decide) only [bits, BitVec.extractLsb'_append_eq_of_le, BitVec.extractLsb'_append_eq_of_add_le,
      BitVec.extractLsb'_eq_self, Nat.reduceSub] <;> rfl
  obtain ⟨f1, f2, g0, g1, g2, g3, g4, g5⟩ := f
  unfold decodeRow; rw [f1]; show decodeRowS w = _
  unfold decodeRowS; rw [f2]
  show (if bits w 18 5 = 0 ∧ bits w 7 1 = 0 then some (.loops (bits w 13 5) (bits w 8 5) (bits w 5 2) (bits w 0 5)) else none : Option Instr) = some (.loops a b t l)
  simp only [g0, g1, g2, g3, g4, g5]
  rfl
theorem lexit (a : BitVec 5) (y : BitVec 1) (x : BitVec 1) : Statement (.lexit a y x) := by
  intro _
  have hw : Instr.encodeWord (.lexit a y x) = (0x33#9 ++ 0x0#5 ++ a ++ 0x0#11 ++ y ++ x : BitVec (9+5+5+11+1+1)) := rfl
  show decodeRow (Instr.encodeWord (.lexit a y x)) = some (.lexit a y x)
  generalize Instr.encodeWord (.lexit a y x) = w at hw ⊢
  have f : bits w 29 3 = 0x0#3 ∧ bits w 23 6 = 0x33#6 ∧ bits w 18 5 = 0x0#5 ∧ bits w 2 11 = 0x0#11 ∧ bits w 13 5 = a ∧ bits w 1 1
      = y ∧ bits w 0 1 = x := by
    subst hw
    refine ⟨?_, ?_, ?_, ?_, ?_, ?_, ?_⟩ <;> simp (disch := decide) only [bits, BitVec.extractLsb'_append_eq_of_le, BitVec.extractLsb'_append_eq_of_add_le,
      BitVec.extractLsb'_eq_self, Nat.reduceSub] <;> rfl
  obtain ⟨f1, f2, g0, g1, g2, g3, g4⟩ := f
  unfold decodeRow; rw [f1]; show decodeRowS w = _
  unfold decodeRowS; rw [f2]
  show (if bits w 18 5 = 0 ∧ bits w 2 11 = 0 then some (.lexit (bits w 13 5) (bits w 1 1) (bits w 0 1)) else none : Option Instr) = some (.lexit a y x)
  simp only [g0, g1, g2, g3, g4]
  rfl
theorem lcnt (d : BitVec 5) (r : BitVec 1) (l : BitVec 2) : Statement (.lcnt d r l) := by
  intro _
  have hw : Instr.encodeWord (.lcnt d r l) = (0x34#9 ++ d ++ 0x0#15 ++ r ++ l : BitVec (9+5+15+1+2)) := rfl
  show decodeRow (Instr.encodeWord (.lcnt d r l)) = some (.lcnt d r l)
  generalize Instr.encodeWord (.lcnt d r l) = w at hw ⊢
  have f : bits w 29 3 = 0x0#3 ∧ bits w 23 6 = 0x34#6 ∧ bits w 3 15 = 0x0#15 ∧ bits w 18 5 = d ∧ bits w 2 1 = r ∧ bits w 0 2 = l := by
    subst hw
    refine ⟨?_, ?_, ?_, ?_, ?_, ?_⟩ <;> simp (disch := decide) only [bits, BitVec.extractLsb'_append_eq_of_le, BitVec.extractLsb'_append_eq_of_add_le,
      BitVec.extractLsb'_eq_self, Nat.reduceSub] <;> rfl
  obtain ⟨f1, f2, g0, g1, g2, g3⟩ := f
  unfold decodeRow; rw [f1]; show decodeRowS w = _
  unfold decodeRowS; rw [f2]
  show (if bits w 3 15 = 0 then some (.lcnt (bits w 18 5) (bits w 2 1) (bits w 0 2)) else none : Option Instr) = some (.lcnt d r l)
  simp only [g0, g1, g2, g3]
  rfl
theorem nop : Statement .nop := by
  intro _
  have hw : Instr.encodeWord .nop = (0x38#9 ++ 0x0#23 : BitVec (9+23)) := rfl
  show decodeRow (Instr.encodeWord .nop) = some .nop
  generalize Instr.encodeWord .nop = w at hw ⊢
  have f : bits w 29 3 = 0x0#3 ∧ bits w 23 6 = 0x38#6 ∧ bits w 0 23 = 0x0#23 := by
    subst hw
    refine ⟨?_, ?_, ?_⟩ <;> simp (disch := decide) only [bits, BitVec.extractLsb'_append_eq_of_le, BitVec.extractLsb'_append_eq_of_add_le,
      BitVec.extractLsb'_eq_self, Nat.reduceSub] <;> rfl
  obtain ⟨f1, f2, g0⟩ := f
  unfold decodeRow; rw [f1]; show decodeRowS w = _
  unfold decodeRowS; rw [f2]
  show (if bits w 0 23 = 0 then some (.nop) else none : Option Instr) = some .nop
  simp only [g0]
  rfl
theorem trap (i : BitVec 13) : Statement (.trap i) := by
  intro _
  have hw : Instr.encodeWord (.trap i) = (0x180#9 ++ 0x0#10 ++ i : BitVec (9+10+13)) := rfl
  show decodeRow (Instr.encodeWord (.trap i)) = some (.trap i)
  generalize Instr.encodeWord (.trap i) = w at hw ⊢
  have f : bits w 29 3 = 0x6#3 ∧ bits w 23 6 = 0x0#6 ∧ bits w 13 10 = 0x0#10 ∧ bits w 0 13 = i := by
    subst hw
    refine ⟨?_, ?_, ?_, ?_⟩ <;> simp (disch := decide) only [bits, BitVec.extractLsb'_append_eq_of_le, BitVec.extractLsb'_append_eq_of_add_le,
      BitVec.extractLsb'_eq_self, Nat.reduceSub] <;> rfl
  obtain ⟨f1, f2, g0, g1⟩ := f
  unfold decodeRow; rw [f1]; show decodeRowK w = _
  unfold decodeRowK; rw [f2]
  show (if bits w 13 10 = 0 then some (.trap (bits w 0 13)) else none : Option Instr) = some (.trap i)
  simp only [g0, g1]
  rfl
theorem rft : Statement .rft := by
  intro _
  have hw : Instr.encodeWord .rft = (0x181#9 ++ 0x0#23 : BitVec (9+23)) := rfl
  show decodeRow (Instr.encodeWord .rft) = some .rft
  generalize Instr.encodeWord .rft = w at hw ⊢
  have f : bits w 29 3 = 0x6#3 ∧ bits w 23 6 = 0x1#6 ∧ bits w 0 23 = 0x0#23 := by
    subst hw
    refine ⟨?_, ?_, ?_⟩ <;> simp (disch := decide) only [bits, BitVec.extractLsb'_append_eq_of_le, BitVec.extractLsb'_append_eq_of_add_le,
      BitVec.extractLsb'_eq_self, Nat.reduceSub] <;> rfl
  obtain ⟨f1, f2, g0⟩ := f
  unfold decodeRow; rw [f1]; show decodeRowK w = _
  unfold decodeRowK; rw [f2]
  show (if bits w 0 23 = 0 then some (.rft) else none : Option Instr) = some .rft
  simp only [g0]
  rfl
theorem brk (i : BitVec 13) : Statement (.brk i) := by
  intro _
  have hw : Instr.encodeWord (.brk i) = (0x182#9 ++ 0x0#10 ++ i : BitVec (9+10+13)) := rfl
  show decodeRow (Instr.encodeWord (.brk i)) = some (.brk i)
  generalize Instr.encodeWord (.brk i) = w at hw ⊢
  have f : bits w 29 3 = 0x6#3 ∧ bits w 23 6 = 0x2#6 ∧ bits w 13 10 = 0x0#10 ∧ bits w 0 13 = i := by
    subst hw
    refine ⟨?_, ?_, ?_, ?_⟩ <;> simp (disch := decide) only [bits, BitVec.extractLsb'_append_eq_of_le, BitVec.extractLsb'_append_eq_of_add_le,
      BitVec.extractLsb'_eq_self, Nat.reduceSub] <;> rfl
  obtain ⟨f1, f2, g0, g1⟩ := f
  unfold decodeRow; rw [f1]; show decodeRowK w = _
  unfold decodeRowK; rw [f2]
  show (if bits w 13 10 = 0 then some (.brk (bits w 0 13)) else none : Option Instr) = some (.brk i)
  simp only [g0, g1]
  rfl
theorem csrr (d : BitVec 5) (c : BitVec 12) : Statement (.csrr d c) := by
  intro _
  have hw : Instr.encodeWord (.csrr d c) = (0x183#9 ++ d ++ 0x0#6 ++ c : BitVec (9+5+6+12)) := rfl
  show decodeRow (Instr.encodeWord (.csrr d c)) = some (.csrr d c)
  generalize Instr.encodeWord (.csrr d c) = w at hw ⊢
  have f : bits w 29 3 = 0x6#3 ∧ bits w 23 6 = 0x3#6 ∧ bits w 12 6 = 0x0#6 ∧ bits w 18 5 = d ∧ bits w 0 12 = c := by
    subst hw
    refine ⟨?_, ?_, ?_, ?_, ?_⟩ <;> simp (disch := decide) only [bits, BitVec.extractLsb'_append_eq_of_le, BitVec.extractLsb'_append_eq_of_add_le,
      BitVec.extractLsb'_eq_self, Nat.reduceSub] <;> rfl
  obtain ⟨f1, f2, g0, g1, g2⟩ := f
  unfold decodeRow; rw [f1]; show decodeRowK w = _
  unfold decodeRowK; rw [f2]
  show (if bits w 12 6 = 0 then some (.csrr (bits w 18 5) (bits w 0 12)) else none : Option Instr) = some (.csrr d c)
  simp only [g0, g1, g2]
  rfl
theorem csrw (a : BitVec 5) (c : BitVec 12) : Statement (.csrw a c) := by
  intro _
  have hw : Instr.encodeWord (.csrw a c) = (0x184#9 ++ 0x0#5 ++ a ++ 0x0#1 ++ c : BitVec (9+5+5+1+12)) := rfl
  show decodeRow (Instr.encodeWord (.csrw a c)) = some (.csrw a c)
  generalize Instr.encodeWord (.csrw a c) = w at hw ⊢
  have f : bits w 29 3 = 0x6#3 ∧ bits w 23 6 = 0x4#6 ∧ bits w 18 5 = 0x0#5 ∧ bits w 12 1 = 0x0#1 ∧ bits w 13 5 = a ∧ bits w 0 12
      = c := by
    subst hw
    refine ⟨?_, ?_, ?_, ?_, ?_, ?_⟩ <;> simp (disch := decide) only [bits, BitVec.extractLsb'_append_eq_of_le, BitVec.extractLsb'_append_eq_of_add_le,
      BitVec.extractLsb'_eq_self, Nat.reduceSub] <;> rfl
  obtain ⟨f1, f2, g0, g1, g2, g3⟩ := f
  unfold decodeRow; rw [f1]; show decodeRowK w = _
  unfold decodeRowK; rw [f2]
  show (if bits w 18 5 = 0 ∧ bits w 12 1 = 0 then some (.csrw (bits w 13 5) (bits w 0 12)) else none : Option Instr) = some (.csrw a c)
  simp only [g0, g1, g2, g3]
  rfl
theorem csrx (d : BitVec 5) (a : BitVec 5) (c : BitVec 12) : Statement (.csrx d a c) := by
  intro _
  have hw : Instr.encodeWord (.csrx d a c) = (0x185#9 ++ d ++ a ++ 0x0#1 ++ c : BitVec (9+5+5+1+12)) := rfl
  show decodeRow (Instr.encodeWord (.csrx d a c)) = some (.csrx d a c)
  generalize Instr.encodeWord (.csrx d a c) = w at hw ⊢
  have f : bits w 29 3 = 0x6#3 ∧ bits w 23 6 = 0x5#6 ∧ bits w 12 1 = 0x0#1 ∧ bits w 18 5 = d ∧ bits w 13 5 = a ∧ bits w 0 12 = c := by
    subst hw
    refine ⟨?_, ?_, ?_, ?_, ?_, ?_⟩ <;> simp (disch := decide) only [bits, BitVec.extractLsb'_append_eq_of_le, BitVec.extractLsb'_append_eq_of_add_le,
      BitVec.extractLsb'_eq_self, Nat.reduceSub] <;> rfl
  obtain ⟨f1, f2, g0, g1, g2, g3⟩ := f
  unfold decodeRow; rw [f1]; show decodeRowK w = _
  unfold decodeRowK; rw [f2]
  show (if bits w 12 1 = 0 then some (.csrx (bits w 18 5) (bits w 13 5) (bits w 0 12)) else none : Option Instr) = some (.csrx d a c)
  simp only [g0, g1, g2, g3]
  rfl
theorem csrs (d : BitVec 5) (a : BitVec 5) (c : BitVec 12) : Statement (.csrs d a c) := by
  intro _
  have hw : Instr.encodeWord (.csrs d a c) = (0x186#9 ++ d ++ a ++ 0x0#1 ++ c : BitVec (9+5+5+1+12)) := rfl
  show decodeRow (Instr.encodeWord (.csrs d a c)) = some (.csrs d a c)
  generalize Instr.encodeWord (.csrs d a c) = w at hw ⊢
  have f : bits w 29 3 = 0x6#3 ∧ bits w 23 6 = 0x6#6 ∧ bits w 12 1 = 0x0#1 ∧ bits w 18 5 = d ∧ bits w 13 5 = a ∧ bits w 0 12 = c := by
    subst hw
    refine ⟨?_, ?_, ?_, ?_, ?_, ?_⟩ <;> simp (disch := decide) only [bits, BitVec.extractLsb'_append_eq_of_le, BitVec.extractLsb'_append_eq_of_add_le,
      BitVec.extractLsb'_eq_self, Nat.reduceSub] <;> rfl
  obtain ⟨f1, f2, g0, g1, g2, g3⟩ := f
  unfold decodeRow; rw [f1]; show decodeRowK w = _
  unfold decodeRowK; rw [f2]
  show (if bits w 12 1 = 0 then some (.csrs (bits w 18 5) (bits w 13 5) (bits w 0 12)) else none : Option Instr) = some (.csrs d a c)
  simp only [g0, g1, g2, g3]
  rfl
theorem csrc (d : BitVec 5) (a : BitVec 5) (c : BitVec 12) : Statement (.csrc d a c) := by
  intro _
  have hw : Instr.encodeWord (.csrc d a c) = (0x187#9 ++ d ++ a ++ 0x0#1 ++ c : BitVec (9+5+5+1+12)) := rfl
  show decodeRow (Instr.encodeWord (.csrc d a c)) = some (.csrc d a c)
  generalize Instr.encodeWord (.csrc d a c) = w at hw ⊢
  have f : bits w 29 3 = 0x6#3 ∧ bits w 23 6 = 0x7#6 ∧ bits w 12 1 = 0x0#1 ∧ bits w 18 5 = d ∧ bits w 13 5 = a ∧ bits w 0 12 = c := by
    subst hw
    refine ⟨?_, ?_, ?_, ?_, ?_, ?_⟩ <;> simp (disch := decide) only [bits, BitVec.extractLsb'_append_eq_of_le, BitVec.extractLsb'_append_eq_of_add_le,
      BitVec.extractLsb'_eq_self, Nat.reduceSub] <;> rfl
  obtain ⟨f1, f2, g0, g1, g2, g3⟩ := f
  unfold decodeRow; rw [f1]; show decodeRowK w = _
  unfold decodeRowK; rw [f2]
  show (if bits w 12 1 = 0 then some (.csrc (bits w 18 5) (bits w 13 5) (bits w 0 12)) else none : Option Instr) = some (.csrc d a c)
  simp only [g0, g1, g2, g3]
  rfl
theorem exit : Statement .exit := by
  intro _
  have hw : Instr.encodeWord .exit = (0x188#9 ++ 0x0#23 : BitVec (9+23)) := rfl
  show decodeRow (Instr.encodeWord .exit) = some .exit
  generalize Instr.encodeWord .exit = w at hw ⊢
  have f : bits w 29 3 = 0x6#3 ∧ bits w 23 6 = 0x8#6 ∧ bits w 0 23 = 0x0#23 := by
    subst hw
    refine ⟨?_, ?_, ?_⟩ <;> simp (disch := decide) only [bits, BitVec.extractLsb'_append_eq_of_le, BitVec.extractLsb'_append_eq_of_add_le,
      BitVec.extractLsb'_eq_self, Nat.reduceSub] <;> rfl
  obtain ⟨f1, f2, g0⟩ := f
  unfold decodeRow; rw [f1]; show decodeRowK w = _
  unfold decodeRowK; rw [f2]
  show (if bits w 0 23 = 0 then some (.exit) else none : Option Instr) = some .exit
  simp only [g0]
  rfl
theorem yield : Statement .yield := by
  intro _
  have hw : Instr.encodeWord .yield = (0x189#9 ++ 0x0#23 : BitVec (9+23)) := rfl
  show decodeRow (Instr.encodeWord .yield) = some .yield
  generalize Instr.encodeWord .yield = w at hw ⊢
  have f : bits w 29 3 = 0x6#3 ∧ bits w 23 6 = 0x9#6 ∧ bits w 0 23 = 0x0#23 := by
    subst hw
    refine ⟨?_, ?_, ?_⟩ <;> simp (disch := decide) only [bits, BitVec.extractLsb'_append_eq_of_le, BitVec.extractLsb'_append_eq_of_add_le,
      BitVec.extractLsb'_eq_self, Nat.reduceSub] <;> rfl
  obtain ⟨f1, f2, g0⟩ := f
  unfold decodeRow; rw [f1]; show decodeRowK w = _
  unfold decodeRowK; rw [f2]
  show (if bits w 0 23 = 0 then some (.yield) else none : Option Instr) = some .yield
  simp only [g0]
  rfl
theorem sleep (a : BitVec 5) (i : BitVec 13) : Statement (.sleep a i) := by
  intro _
  have hw : Instr.encodeWord (.sleep a i) = (0x18a#9 ++ 0x0#5 ++ a ++ i : BitVec (9+5+5+13)) := rfl
  show decodeRow (Instr.encodeWord (.sleep a i)) = some (.sleep a i)
  generalize Instr.encodeWord (.sleep a i) = w at hw ⊢
  have f : bits w 29 3 = 0x6#3 ∧ bits w 23 6 = 0xa#6 ∧ bits w 18 5 = 0x0#5 ∧ bits w 13 5 = a ∧ bits w 0 13 = i := by
    subst hw
    refine ⟨?_, ?_, ?_, ?_, ?_⟩ <;> simp (disch := decide) only [bits, BitVec.extractLsb'_append_eq_of_le, BitVec.extractLsb'_append_eq_of_add_le,
      BitVec.extractLsb'_eq_self, Nat.reduceSub] <;> rfl
  obtain ⟨f1, f2, g0, g1, g2⟩ := f
  unfold decodeRow; rw [f1]; show decodeRowK w = _
  unfold decodeRowK; rw [f2]
  show (if bits w 18 5 = 0 then some (.sleep (bits w 13 5) (bits w 0 13)) else none : Option Instr) = some (.sleep a i)
  simp only [g0, g1, g2]
  rfl
theorem prio (d : BitVec 5) (a : BitVec 5) (i : BitVec 13) : Statement (.prio d a i) := by
  intro _
  have hw : Instr.encodeWord (.prio d a i) = (0x18b#9 ++ d ++ a ++ i : BitVec (9+5+5+13)) := rfl
  show decodeRow (Instr.encodeWord (.prio d a i)) = some (.prio d a i)
  generalize Instr.encodeWord (.prio d a i) = w at hw ⊢
  have f : bits w 29 3 = 0x6#3 ∧ bits w 23 6 = 0xb#6 ∧ bits w 18 5 = d ∧ bits w 13 5 = a ∧ bits w 0 13 = i := by
    subst hw
    refine ⟨?_, ?_, ?_, ?_, ?_⟩ <;> simp (disch := decide) only [bits, BitVec.extractLsb'_append_eq_of_le, BitVec.extractLsb'_append_eq_of_add_le,
      BitVec.extractLsb'_eq_self, Nat.reduceSub] <;> rfl
  obtain ⟨f1, f2, g0, g1, g2⟩ := f
  unfold decodeRow; rw [f1]; show decodeRowK w = _
  unfold decodeRowK; rw [f2]
  show (some (.prio (bits w 18 5) (bits w 13 5) (bits w 0 13)) : Option Instr) = some (.prio d a i)
  simp only [g0, g1, g2]
theorem esync : Statement .esync := by
  intro _
  have hw : Instr.encodeWord .esync = (0x18c#9 ++ 0x0#23 : BitVec (9+23)) := rfl
  show decodeRow (Instr.encodeWord .esync) = some .esync
  generalize Instr.encodeWord .esync = w at hw ⊢
  have f : bits w 29 3 = 0x6#3 ∧ bits w 23 6 = 0xc#6 ∧ bits w 0 23 = 0x0#23 := by
    subst hw
    refine ⟨?_, ?_, ?_⟩ <;> simp (disch := decide) only [bits, BitVec.extractLsb'_append_eq_of_le, BitVec.extractLsb'_append_eq_of_add_le,
      BitVec.extractLsb'_eq_self, Nat.reduceSub] <;> rfl
  obtain ⟨f1, f2, g0⟩ := f
  unfold decodeRow; rw [f1]; show decodeRowK w = _
  unfold decodeRowK; rw [f2]
  show (if bits w 0 23 = 0 then some (.esync) else none : Option Instr) = some .esync
  simp only [g0]
  rfl
theorem spawn (d : BitVec 5) (a : BitVec 5) (b : BitVec 5) : Statement (.spawn d a b) := by
  intro _
  have hw : Instr.encodeWord (.spawn d a b) = (0x18d#9 ++ d ++ a ++ b ++ 0x0#8 : BitVec (9+5+5+5+8)) := rfl
  show decodeRow (Instr.encodeWord (.spawn d a b)) = some (.spawn d a b)
  generalize Instr.encodeWord (.spawn d a b) = w at hw ⊢
  have f : bits w 29 3 = 0x6#3 ∧ bits w 23 6 = 0xd#6 ∧ bits w 0 8 = 0x0#8 ∧ bits w 18 5 = d ∧ bits w 13 5 = a ∧ bits w 8 5 = b := by
    subst hw
    refine ⟨?_, ?_, ?_, ?_, ?_, ?_⟩ <;> simp (disch := decide) only [bits, BitVec.extractLsb'_append_eq_of_le, BitVec.extractLsb'_append_eq_of_add_le,
      BitVec.extractLsb'_eq_self, Nat.reduceSub] <;> rfl
  obtain ⟨f1, f2, g0, g1, g2, g3⟩ := f
  unfold decodeRow; rw [f1]; show decodeRowK w = _
  unfold decodeRowK; rw [f2]
  show (if bits w 0 8 = 0 then some (.spawn (bits w 18 5) (bits w 13 5) (bits w 8 5)) else none : Option Instr) = some (.spawn d a b)
  simp only [g0, g1, g2, g3]
  rfl
theorem flease (d : BitVec 5) (t : BitVec 1) (q : BitVec 2) (s : BitVec 2) : Statement (.flease d t q s) := by
  intro _
  have hw : Instr.encodeWord (.flease d t q s) = (0x18e#9 ++ d ++ 0x0#13 ++ t ++ q ++ s : BitVec (9+5+13+1+2+2)) := rfl
  show decodeRow (Instr.encodeWord (.flease d t q s)) = some (.flease d t q s)
  generalize Instr.encodeWord (.flease d t q s) = w at hw ⊢
  have f : bits w 29 3 = 0x6#3 ∧ bits w 23 6 = 0xe#6 ∧ bits w 5 13 = 0x0#13 ∧ bits w 18 5 = d ∧ bits w 4 1 = t ∧ bits w 2 2 = q ∧
      bits w 0 2 = s := by
    subst hw
    refine ⟨?_, ?_, ?_, ?_, ?_, ?_, ?_⟩ <;> simp (disch := decide) only [bits, BitVec.extractLsb'_append_eq_of_le, BitVec.extractLsb'_append_eq_of_add_le,
      BitVec.extractLsb'_eq_self, Nat.reduceSub] <;> rfl
  obtain ⟨f1, f2, g0, g1, g2, g3, g4⟩ := f
  unfold decodeRow; rw [f1]; show decodeRowK w = _
  unfold decodeRowK; rw [f2]
  show (if bits w 5 13 = 0 then some (.flease (bits w 18 5) (bits w 4 1) (bits w 2 2) (bits w 0 2)) else none : Option Instr) = some (.flease d t q s)
  simp only [g0, g1, g2, g3, g4]
  rfl
theorem fret (d : BitVec 5) : Statement (.fret d) := by
  intro _
  have hw : Instr.encodeWord (.fret d) = (0x18f#9 ++ d ++ 0x0#18 : BitVec (9+5+18)) := rfl
  show decodeRow (Instr.encodeWord (.fret d)) = some (.fret d)
  generalize Instr.encodeWord (.fret d) = w at hw ⊢
  have f : bits w 29 3 = 0x6#3 ∧ bits w 23 6 = 0xf#6 ∧ bits w 0 18 = 0x0#18 ∧ bits w 18 5 = d := by
    subst hw
    refine ⟨?_, ?_, ?_, ?_⟩ <;> simp (disch := decide) only [bits, BitVec.extractLsb'_append_eq_of_le, BitVec.extractLsb'_append_eq_of_add_le,
      BitVec.extractLsb'_eq_self, Nat.reduceSub] <;> rfl
  obtain ⟨f1, f2, g0, g1⟩ := f
  unfold decodeRow; rw [f1]; show decodeRowK w = _
  unfold decodeRowK; rw [f2]
  show (if bits w 0 18 = 0 then some (.fret (bits w 18 5)) else none : Option Instr) = some (.fret d)
  simp only [g0, g1]
  rfl
theorem draw (d : BitVec 5) (a : BitVec 5) (t : BitVec 1) : Statement (.draw d a t) := by
  intro _
  have hw : Instr.encodeWord (.draw d a t) = (0x190#9 ++ d ++ a ++ 0x0#12 ++ t : BitVec (9+5+5+12+1)) := rfl
  show decodeRow (Instr.encodeWord (.draw d a t)) = some (.draw d a t)
  generalize Instr.encodeWord (.draw d a t) = w at hw ⊢
  have f : bits w 29 3 = 0x6#3 ∧ bits w 23 6 = 0x10#6 ∧ bits w 1 12 = 0x0#12 ∧ bits w 18 5 = d ∧ bits w 13 5 = a ∧ bits w 0 1 = t := by
    subst hw
    refine ⟨?_, ?_, ?_, ?_, ?_, ?_⟩ <;> simp (disch := decide) only [bits, BitVec.extractLsb'_append_eq_of_le, BitVec.extractLsb'_append_eq_of_add_le,
      BitVec.extractLsb'_eq_self, Nat.reduceSub] <;> rfl
  obtain ⟨f1, f2, g0, g1, g2, g3⟩ := f
  unfold decodeRow; rw [f1]; show decodeRowK w = _
  unfold decodeRowK; rw [f2]
  show (if bits w 1 12 = 0 then some (.draw (bits w 18 5) (bits w 13 5) (bits w 0 1)) else none : Option Instr) = some (.draw d a t)
  simp only [g0, g1, g2, g3]
  rfl
theorem dret (d : BitVec 5) (a : BitVec 5) : Statement (.dret d a) := by
  intro _
  have hw : Instr.encodeWord (.dret d a) = (0x191#9 ++ d ++ a ++ 0x0#13 : BitVec (9+5+5+13)) := rfl
  show decodeRow (Instr.encodeWord (.dret d a)) = some (.dret d a)
  generalize Instr.encodeWord (.dret d a) = w at hw ⊢
  have f : bits w 29 3 = 0x6#3 ∧ bits w 23 6 = 0x11#6 ∧ bits w 0 13 = 0x0#13 ∧ bits w 18 5 = d ∧ bits w 13 5 = a := by
    subst hw
    refine ⟨?_, ?_, ?_, ?_, ?_⟩ <;> simp (disch := decide) only [bits, BitVec.extractLsb'_append_eq_of_le, BitVec.extractLsb'_append_eq_of_add_le,
      BitVec.extractLsb'_eq_self, Nat.reduceSub] <;> rfl
  obtain ⟨f1, f2, g0, g1, g2⟩ := f
  unfold decodeRow; rw [f1]; show decodeRowK w = _
  unfold decodeRowK; rw [f2]
  show (if bits w 0 13 = 0 then some (.dret (bits w 18 5) (bits w 13 5)) else none : Option Instr) = some (.dret d a)
  simp only [g0, g1, g2]
  rfl
theorem mark (a : BitVec 5) (i : BitVec 13) : Statement (.mark a i) := by
  intro _
  have hw : Instr.encodeWord (.mark a i) = (0x192#9 ++ 0x0#5 ++ a ++ i : BitVec (9+5+5+13)) := rfl
  show decodeRow (Instr.encodeWord (.mark a i)) = some (.mark a i)
  generalize Instr.encodeWord (.mark a i) = w at hw ⊢
  have f : bits w 29 3 = 0x6#3 ∧ bits w 23 6 = 0x12#6 ∧ bits w 18 5 = 0x0#5 ∧ bits w 13 5 = a ∧ bits w 0 13 = i := by
    subst hw
    refine ⟨?_, ?_, ?_, ?_, ?_⟩ <;> simp (disch := decide) only [bits, BitVec.extractLsb'_append_eq_of_le, BitVec.extractLsb'_append_eq_of_add_le,
      BitVec.extractLsb'_eq_self, Nat.reduceSub] <;> rfl
  obtain ⟨f1, f2, g0, g1, g2⟩ := f
  unfold decodeRow; rw [f1]; show decodeRowK w = _
  unfold decodeRowK; rw [f2]
  show (if bits w 18 5 = 0 then some (.mark (bits w 13 5) (bits w 0 13)) else none : Option Instr) = some (.mark a i)
  simp only [g0, g1, g2]
  rfl
theorem capr (d : BitVec 5) (a : BitVec 5) : Statement (.capr d a) := by
  intro _
  have hw : Instr.encodeWord (.capr d a) = (0x193#9 ++ d ++ a ++ 0x0#13 : BitVec (9+5+5+13)) := rfl
  show decodeRow (Instr.encodeWord (.capr d a)) = some (.capr d a)
  generalize Instr.encodeWord (.capr d a) = w at hw ⊢
  have f : bits w 29 3 = 0x6#3 ∧ bits w 23 6 = 0x13#6 ∧ bits w 0 13 = 0x0#13 ∧ bits w 18 5 = d ∧ bits w 13 5 = a := by
    subst hw
    refine ⟨?_, ?_, ?_, ?_, ?_⟩ <;> simp (disch := decide) only [bits, BitVec.extractLsb'_append_eq_of_le, BitVec.extractLsb'_append_eq_of_add_le,
      BitVec.extractLsb'_eq_self, Nat.reduceSub] <;> rfl
  obtain ⟨f1, f2, g0, g1, g2⟩ := f
  unfold decodeRow; rw [f1]; show decodeRowK w = _
  unfold decodeRowK; rw [f2]
  show (if bits w 0 13 = 0 then some (.capr (bits w 18 5) (bits w 13 5)) else none : Option Instr) = some (.capr d a)
  simp only [g0, g1, g2]
  rfl
theorem lext (d : BitVec 5) (a : BitVec 5) (b : BitVec 5) : Statement (.lext d a b) := by
  intro _
  have hw : Instr.encodeWord (.lext d a b) = (0x194#9 ++ d ++ a ++ b ++ 0x0#8 : BitVec (9+5+5+5+8)) := rfl
  show decodeRow (Instr.encodeWord (.lext d a b)) = some (.lext d a b)
  generalize Instr.encodeWord (.lext d a b) = w at hw ⊢
  have f : bits w 29 3 = 0x6#3 ∧ bits w 23 6 = 0x14#6 ∧ bits w 0 8 = 0x0#8 ∧ bits w 18 5 = d ∧ bits w 13 5 = a ∧ bits w 8 5 = b := by
    subst hw
    refine ⟨?_, ?_, ?_, ?_, ?_, ?_⟩ <;> simp (disch := decide) only [bits, BitVec.extractLsb'_append_eq_of_le, BitVec.extractLsb'_append_eq_of_add_le,
      BitVec.extractLsb'_eq_self, Nat.reduceSub] <;> rfl
  obtain ⟨f1, f2, g0, g1, g2, g3⟩ := f
  unfold decodeRow; rw [f1]; show decodeRowK w = _
  unfold decodeRowK; rw [f2]
  show (if bits w 0 8 = 0 then some (.lext (bits w 18 5) (bits w 13 5) (bits w 8 5)) else none : Option Instr) = some (.lext d a b)
  simp only [g0, g1, g2, g3]
  rfl
theorem fencei : Statement .fencei := by
  intro _
  have hw : Instr.encodeWord .fencei = (0x195#9 ++ 0x0#23 : BitVec (9+23)) := rfl
  show decodeRow (Instr.encodeWord .fencei) = some .fencei
  generalize Instr.encodeWord .fencei = w at hw ⊢
  have f : bits w 29 3 = 0x6#3 ∧ bits w 23 6 = 0x15#6 ∧ bits w 0 23 = 0x0#23 := by
    subst hw
    refine ⟨?_, ?_, ?_⟩ <;> simp (disch := decide) only [bits, BitVec.extractLsb'_append_eq_of_le, BitVec.extractLsb'_append_eq_of_add_le,
      BitVec.extractLsb'_eq_self, Nat.reduceSub] <;> rfl
  obtain ⟨f1, f2, g0⟩ := f
  unfold decodeRow; rw [f1]; show decodeRowK w = _
  unfold decodeRowK; rw [f2]
  show (if bits w 0 23 = 0 then some (.fencei) else none : Option Instr) = some .fencei
  simp only [g0]
  rfl
theorem halt : Statement .halt := by
  intro _
  have hw : Instr.encodeWord .halt = (0x196#9 ++ 0x0#23 : BitVec (9+23)) := rfl
  show decodeRow (Instr.encodeWord .halt) = some .halt
  generalize Instr.encodeWord .halt = w at hw ⊢
  have f : bits w 29 3 = 0x6#3 ∧ bits w 23 6 = 0x16#6 ∧ bits w 0 23 = 0x0#23 := by
    subst hw
    refine ⟨?_, ?_, ?_⟩ <;> simp (disch := decide) only [bits, BitVec.extractLsb'_append_eq_of_le, BitVec.extractLsb'_append_eq_of_add_le,
      BitVec.extractLsb'_eq_self, Nat.reduceSub] <;> rfl
  obtain ⟨f1, f2, g0⟩ := f
  unfold decodeRow; rw [f1]; show decodeRowK w = _
  unfold decodeRowK; rw [f2]
  show (if bits w 0 23 = 0 then some (.halt) else none : Option Instr) = some .halt
  simp only [g0]
  rfl
theorem limm (p : BitVec 29) : Statement (.limm p) := by
  intro _
  have hw : Instr.encodeWord (.limm p) = (0x7#3 ++ p : BitVec (3+29)) := rfl
  show decodeRow (Instr.encodeWord (.limm p)) = some (.limm p)
  generalize Instr.encodeWord (.limm p) = w at hw ⊢
  have f : bits w 29 3 = 0x7#3 ∧ bits w 0 29 = p := by
    subst hw
    refine ⟨?_, ?_⟩ <;> simp (disch := decide) only [bits, BitVec.extractLsb'_append_eq_of_le, BitVec.extractLsb'_append_eq_of_add_le,
      BitVec.extractLsb'_eq_self, Nat.reduceSub]
  obtain ⟨f1, g0⟩ := f
  unfold decodeRow; rw [f1]; show (some (.limm (bits w 0 29)) : Option Instr) = some (.limm p)
  rw [g0]
theorem vadd (d : BitVec 5) (a : BitVec 5) (b : BitVec 5) (t : BitVec 4) (m : BitVec 3) (x : BitVec 1) : Statement (.vadd d a b t m x) := by
  intro _
  have hw : Instr.encodeWord (.vadd d a b t m x) = (0x40#9 ++ d ++ a ++ b ++ t ++ m ++ x : BitVec (9+5+5+5+4+3+1)) := rfl
  show decodeRow (Instr.encodeWord (.vadd d a b t m x)) = some (.vadd d a b t m x)
  generalize Instr.encodeWord (.vadd d a b t m x) = w at hw ⊢
  have f : bits w 29 3 = 0x1#3 ∧ bits w 23 6 = 0x0#6 ∧ bits w 18 5 = d ∧ bits w 13 5 = a ∧ bits w 8 5 = b ∧ bits w 4 4 = t ∧ bits
      w 1 3 = m ∧ bits w 0 1 = x := by
    subst hw
    refine ⟨?_, ?_, ?_, ?_, ?_, ?_, ?_, ?_⟩ <;> simp (disch := decide) only [bits, BitVec.extractLsb'_append_eq_of_le, BitVec.extractLsb'_append_eq_of_add_le,
      BitVec.extractLsb'_eq_self, Nat.reduceSub] <;> rfl
  obtain ⟨f1, f2, g0, g1, g2, g3, g4, g5⟩ := f
  unfold decodeRow; rw [f1]; show decodeRowV w = _
  unfold decodeRowV; rw [f2]
  show (some (.vadd (bits w 18 5) (bits w 13 5) (bits w 8 5) (bits w 4 4) (bits w 1 3) (bits w 0 1)) : Option Instr) = some (.vadd d a b t m x)
  simp only [g0, g1, g2, g3, g4, g5]
theorem vsub (d : BitVec 5) (a : BitVec 5) (b : BitVec 5) (t : BitVec 4) (m : BitVec 3) (x : BitVec 1) : Statement (.vsub d a b t m x) := by
  intro _
  have hw : Instr.encodeWord (.vsub d a b t m x) = (0x41#9 ++ d ++ a ++ b ++ t ++ m ++ x : BitVec (9+5+5+5+4+3+1)) := rfl
  show decodeRow (Instr.encodeWord (.vsub d a b t m x)) = some (.vsub d a b t m x)
  generalize Instr.encodeWord (.vsub d a b t m x) = w at hw ⊢
  have f : bits w 29 3 = 0x1#3 ∧ bits w 23 6 = 0x1#6 ∧ bits w 18 5 = d ∧ bits w 13 5 = a ∧ bits w 8 5 = b ∧ bits w 4 4 = t ∧ bits
      w 1 3 = m ∧ bits w 0 1 = x := by
    subst hw
    refine ⟨?_, ?_, ?_, ?_, ?_, ?_, ?_, ?_⟩ <;> simp (disch := decide) only [bits, BitVec.extractLsb'_append_eq_of_le, BitVec.extractLsb'_append_eq_of_add_le,
      BitVec.extractLsb'_eq_self, Nat.reduceSub] <;> rfl
  obtain ⟨f1, f2, g0, g1, g2, g3, g4, g5⟩ := f
  unfold decodeRow; rw [f1]; show decodeRowV w = _
  unfold decodeRowV; rw [f2]
  show (some (.vsub (bits w 18 5) (bits w 13 5) (bits w 8 5) (bits w 4 4) (bits w 1 3) (bits w 0 1)) : Option Instr) = some (.vsub d a b t m x)
  simp only [g0, g1, g2, g3, g4, g5]
theorem vmul (d : BitVec 5) (a : BitVec 5) (b : BitVec 5) (t : BitVec 4) (m : BitVec 3) (x : BitVec 1) : Statement (.vmul d a b t m x) := by
  intro _
  have hw : Instr.encodeWord (.vmul d a b t m x) = (0x42#9 ++ d ++ a ++ b ++ t ++ m ++ x : BitVec (9+5+5+5+4+3+1)) := rfl
  show decodeRow (Instr.encodeWord (.vmul d a b t m x)) = some (.vmul d a b t m x)
  generalize Instr.encodeWord (.vmul d a b t m x) = w at hw ⊢
  have f : bits w 29 3 = 0x1#3 ∧ bits w 23 6 = 0x2#6 ∧ bits w 18 5 = d ∧ bits w 13 5 = a ∧ bits w 8 5 = b ∧ bits w 4 4 = t ∧ bits
      w 1 3 = m ∧ bits w 0 1 = x := by
    subst hw
    refine ⟨?_, ?_, ?_, ?_, ?_, ?_, ?_, ?_⟩ <;> simp (disch := decide) only [bits, BitVec.extractLsb'_append_eq_of_le, BitVec.extractLsb'_append_eq_of_add_le,
      BitVec.extractLsb'_eq_self, Nat.reduceSub] <;> rfl
  obtain ⟨f1, f2, g0, g1, g2, g3, g4, g5⟩ := f
  unfold decodeRow; rw [f1]; show decodeRowV w = _
  unfold decodeRowV; rw [f2]
  show (some (.vmul (bits w 18 5) (bits w 13 5) (bits w 8 5) (bits w 4 4) (bits w 1 3) (bits w 0 1)) : Option Instr) = some (.vmul d a b t m x)
  simp only [g0, g1, g2, g3, g4, g5]
theorem vmulh (d : BitVec 5) (a : BitVec 5) (b : BitVec 5) (t : BitVec 4) (m : BitVec 3) : Statement (.vmulh d a b t m) := by
  intro _
  have hw : Instr.encodeWord (.vmulh d a b t m) = (0x43#9 ++ d ++ a ++ b ++ t ++ m ++ 0x0#1 : BitVec (9+5+5+5+4+3+1)) := rfl
  show decodeRow (Instr.encodeWord (.vmulh d a b t m)) = some (.vmulh d a b t m)
  generalize Instr.encodeWord (.vmulh d a b t m) = w at hw ⊢
  have f : bits w 29 3 = 0x1#3 ∧ bits w 23 6 = 0x3#6 ∧ bits w 0 1 = 0x0#1 ∧ bits w 18 5 = d ∧ bits w 13 5 = a ∧ bits w 8 5 = b ∧
      bits w 4 4 = t ∧ bits w 1 3 = m := by
    subst hw
    refine ⟨?_, ?_, ?_, ?_, ?_, ?_, ?_, ?_⟩ <;> simp (disch := decide) only [bits, BitVec.extractLsb'_append_eq_of_le, BitVec.extractLsb'_append_eq_of_add_le,
      BitVec.extractLsb'_eq_self, Nat.reduceSub] <;> rfl
  obtain ⟨f1, f2, g0, g1, g2, g3, g4, g5⟩ := f
  unfold decodeRow; rw [f1]; show decodeRowV w = _
  unfold decodeRowV; rw [f2]
  show (if bits w 0 1 = 0 then some (.vmulh (bits w 18 5) (bits w 13 5) (bits w 8 5) (bits w 4 4) (bits w 1 3)) else none : Option Instr) = some (.vmulh d a b t m)
  simp only [g0, g1, g2, g3, g4, g5]
  rfl
theorem vfma (d : BitVec 5) (a : BitVec 5) (b : BitVec 5) (t : BitVec 4) (m : BitVec 3) : Statement (.vfma d a b t m) := by
  intro _
  have hw : Instr.encodeWord (.vfma d a b t m) = (0x44#9 ++ d ++ a ++ b ++ t ++ m ++ 0x0#1 : BitVec (9+5+5+5+4+3+1)) := rfl
  show decodeRow (Instr.encodeWord (.vfma d a b t m)) = some (.vfma d a b t m)
  generalize Instr.encodeWord (.vfma d a b t m) = w at hw ⊢
  have f : bits w 29 3 = 0x1#3 ∧ bits w 23 6 = 0x4#6 ∧ bits w 0 1 = 0x0#1 ∧ bits w 18 5 = d ∧ bits w 13 5 = a ∧ bits w 8 5 = b ∧
      bits w 4 4 = t ∧ bits w 1 3 = m := by
    subst hw
    refine ⟨?_, ?_, ?_, ?_, ?_, ?_, ?_, ?_⟩ <;> simp (disch := decide) only [bits, BitVec.extractLsb'_append_eq_of_le, BitVec.extractLsb'_append_eq_of_add_le,
      BitVec.extractLsb'_eq_self, Nat.reduceSub] <;> rfl
  obtain ⟨f1, f2, g0, g1, g2, g3, g4, g5⟩ := f
  unfold decodeRow; rw [f1]; show decodeRowV w = _
  unfold decodeRowV; rw [f2]
  show (if bits w 0 1 = 0 then some (.vfma (bits w 18 5) (bits w 13 5) (bits w 8 5) (bits w 4 4) (bits w 1 3)) else none : Option Instr) = some (.vfma d a b t m)
  simp only [g0, g1, g2, g3, g4, g5]
  rfl
theorem vfms (d : BitVec 5) (a : BitVec 5) (b : BitVec 5) (t : BitVec 4) (m : BitVec 3) : Statement (.vfms d a b t m) := by
  intro _
  have hw : Instr.encodeWord (.vfms d a b t m) = (0x45#9 ++ d ++ a ++ b ++ t ++ m ++ 0x0#1 : BitVec (9+5+5+5+4+3+1)) := rfl
  show decodeRow (Instr.encodeWord (.vfms d a b t m)) = some (.vfms d a b t m)
  generalize Instr.encodeWord (.vfms d a b t m) = w at hw ⊢
  have f : bits w 29 3 = 0x1#3 ∧ bits w 23 6 = 0x5#6 ∧ bits w 0 1 = 0x0#1 ∧ bits w 18 5 = d ∧ bits w 13 5 = a ∧ bits w 8 5 = b ∧
      bits w 4 4 = t ∧ bits w 1 3 = m := by
    subst hw
    refine ⟨?_, ?_, ?_, ?_, ?_, ?_, ?_, ?_⟩ <;> simp (disch := decide) only [bits, BitVec.extractLsb'_append_eq_of_le, BitVec.extractLsb'_append_eq_of_add_le,
      BitVec.extractLsb'_eq_self, Nat.reduceSub] <;> rfl
  obtain ⟨f1, f2, g0, g1, g2, g3, g4, g5⟩ := f
  unfold decodeRow; rw [f1]; show decodeRowV w = _
  unfold decodeRowV; rw [f2]
  show (if bits w 0 1 = 0 then some (.vfms (bits w 18 5) (bits w 13 5) (bits w 8 5) (bits w 4 4) (bits w 1 3)) else none : Option Instr) = some (.vfms d a b t m)
  simp only [g0, g1, g2, g3, g4, g5]
  rfl
theorem vfnm (d : BitVec 5) (a : BitVec 5) (b : BitVec 5) (t : BitVec 4) (m : BitVec 3) : Statement (.vfnm d a b t m) := by
  intro _
  have hw : Instr.encodeWord (.vfnm d a b t m) = (0x46#9 ++ d ++ a ++ b ++ t ++ m ++ 0x0#1 : BitVec (9+5+5+5+4+3+1)) := rfl
  show decodeRow (Instr.encodeWord (.vfnm d a b t m)) = some (.vfnm d a b t m)
  generalize Instr.encodeWord (.vfnm d a b t m) = w at hw ⊢
  have f : bits w 29 3 = 0x1#3 ∧ bits w 23 6 = 0x6#6 ∧ bits w 0 1 = 0x0#1 ∧ bits w 18 5 = d ∧ bits w 13 5 = a ∧ bits w 8 5 = b ∧
      bits w 4 4 = t ∧ bits w 1 3 = m := by
    subst hw
    refine ⟨?_, ?_, ?_, ?_, ?_, ?_, ?_, ?_⟩ <;> simp (disch := decide) only [bits, BitVec.extractLsb'_append_eq_of_le, BitVec.extractLsb'_append_eq_of_add_le,
      BitVec.extractLsb'_eq_self, Nat.reduceSub] <;> rfl
  obtain ⟨f1, f2, g0, g1, g2, g3, g4, g5⟩ := f
  unfold decodeRow; rw [f1]; show decodeRowV w = _
  unfold decodeRowV; rw [f2]
  show (if bits w 0 1 = 0 then some (.vfnm (bits w 18 5) (bits w 13 5) (bits w 8 5) (bits w 4 4) (bits w 1 3)) else none : Option Instr) = some (.vfnm d a b t m)
  simp only [g0, g1, g2, g3, g4, g5]
  rfl
theorem vmin (d : BitVec 5) (a : BitVec 5) (b : BitVec 5) (t : BitVec 4) (m : BitVec 3) : Statement (.vmin d a b t m) := by
  intro _
  have hw : Instr.encodeWord (.vmin d a b t m) = (0x47#9 ++ d ++ a ++ b ++ t ++ m ++ 0x0#1 : BitVec (9+5+5+5+4+3+1)) := rfl
  show decodeRow (Instr.encodeWord (.vmin d a b t m)) = some (.vmin d a b t m)
  generalize Instr.encodeWord (.vmin d a b t m) = w at hw ⊢
  have f : bits w 29 3 = 0x1#3 ∧ bits w 23 6 = 0x7#6 ∧ bits w 0 1 = 0x0#1 ∧ bits w 18 5 = d ∧ bits w 13 5 = a ∧ bits w 8 5 = b ∧
      bits w 4 4 = t ∧ bits w 1 3 = m := by
    subst hw
    refine ⟨?_, ?_, ?_, ?_, ?_, ?_, ?_, ?_⟩ <;> simp (disch := decide) only [bits, BitVec.extractLsb'_append_eq_of_le, BitVec.extractLsb'_append_eq_of_add_le,
      BitVec.extractLsb'_eq_self, Nat.reduceSub] <;> rfl
  obtain ⟨f1, f2, g0, g1, g2, g3, g4, g5⟩ := f
  unfold decodeRow; rw [f1]; show decodeRowV w = _
  unfold decodeRowV; rw [f2]
  show (if bits w 0 1 = 0 then some (.vmin (bits w 18 5) (bits w 13 5) (bits w 8 5) (bits w 4 4) (bits w 1 3)) else none : Option Instr) = some (.vmin d a b t m)
  simp only [g0, g1, g2, g3, g4, g5]
  rfl
theorem vmax (d : BitVec 5) (a : BitVec 5) (b : BitVec 5) (t : BitVec 4) (m : BitVec 3) : Statement (.vmax d a b t m) := by
  intro _
  have hw : Instr.encodeWord (.vmax d a b t m) = (0x48#9 ++ d ++ a ++ b ++ t ++ m ++ 0x0#1 : BitVec (9+5+5+5+4+3+1)) := rfl
  show decodeRow (Instr.encodeWord (.vmax d a b t m)) = some (.vmax d a b t m)
  generalize Instr.encodeWord (.vmax d a b t m) = w at hw ⊢
  have f : bits w 29 3 = 0x1#3 ∧ bits w 23 6 = 0x8#6 ∧ bits w 0 1 = 0x0#1 ∧ bits w 18 5 = d ∧ bits w 13 5 = a ∧ bits w 8 5 = b ∧
      bits w 4 4 = t ∧ bits w 1 3 = m := by
    subst hw
    refine ⟨?_, ?_, ?_, ?_, ?_, ?_, ?_, ?_⟩ <;> simp (disch := decide) only [bits, BitVec.extractLsb'_append_eq_of_le, BitVec.extractLsb'_append_eq_of_add_le,
      BitVec.extractLsb'_eq_self, Nat.reduceSub] <;> rfl
  obtain ⟨f1, f2, g0, g1, g2, g3, g4, g5⟩ := f
  unfold decodeRow; rw [f1]; show decodeRowV w = _
  unfold decodeRowV; rw [f2]
  show (if bits w 0 1 = 0 then some (.vmax (bits w 18 5) (bits w 13 5) (bits w 8 5) (bits w 4 4) (bits w 1 3)) else none : Option Instr) = some (.vmax d a b t m)
  simp only [g0, g1, g2, g3, g4, g5]
  rfl
theorem vabs (d : BitVec 5) (a : BitVec 5) (t : BitVec 4) (m : BitVec 3) (x : BitVec 1) : Statement (.vabs d a t m x) := by
  intro _
  have hw : Instr.encodeWord (.vabs d a t m x) = (0x49#9 ++ d ++ a ++ 0x0#5 ++ t ++ m ++ x : BitVec (9+5+5+5+4+3+1)) := rfl
  show decodeRow (Instr.encodeWord (.vabs d a t m x)) = some (.vabs d a t m x)
  generalize Instr.encodeWord (.vabs d a t m x) = w at hw ⊢
  have f : bits w 29 3 = 0x1#3 ∧ bits w 23 6 = 0x9#6 ∧ bits w 8 5 = 0x0#5 ∧ bits w 18 5 = d ∧ bits w 13 5 = a ∧ bits w 4 4 = t ∧
      bits w 1 3 = m ∧ bits w 0 1 = x := by
    subst hw
    refine ⟨?_, ?_, ?_, ?_, ?_, ?_, ?_, ?_⟩ <;> simp (disch := decide) only [bits, BitVec.extractLsb'_append_eq_of_le, BitVec.extractLsb'_append_eq_of_add_le,
      BitVec.extractLsb'_eq_self, Nat.reduceSub] <;> rfl
  obtain ⟨f1, f2, g0, g1, g2, g3, g4, g5⟩ := f
  unfold decodeRow; rw [f1]; show decodeRowV w = _
  unfold decodeRowV; rw [f2]
  show (if bits w 8 5 = 0 then some (.vabs (bits w 18 5) (bits w 13 5) (bits w 4 4) (bits w 1 3) (bits w 0 1)) else none : Option Instr) = some (.vabs d a t m x)
  simp only [g0, g1, g2, g3, g4, g5]
  rfl
theorem vneg (d : BitVec 5) (a : BitVec 5) (t : BitVec 4) (m : BitVec 3) (x : BitVec 1) : Statement (.vneg d a t m x) := by
  intro _
  have hw : Instr.encodeWord (.vneg d a t m x) = (0x4a#9 ++ d ++ a ++ 0x0#5 ++ t ++ m ++ x : BitVec (9+5+5+5+4+3+1)) := rfl
  show decodeRow (Instr.encodeWord (.vneg d a t m x)) = some (.vneg d a t m x)
  generalize Instr.encodeWord (.vneg d a t m x) = w at hw ⊢
  have f : bits w 29 3 = 0x1#3 ∧ bits w 23 6 = 0xa#6 ∧ bits w 8 5 = 0x0#5 ∧ bits w 18 5 = d ∧ bits w 13 5 = a ∧ bits w 4 4 = t ∧
      bits w 1 3 = m ∧ bits w 0 1 = x := by
    subst hw
    refine ⟨?_, ?_, ?_, ?_, ?_, ?_, ?_, ?_⟩ <;> simp (disch := decide) only [bits, BitVec.extractLsb'_append_eq_of_le, BitVec.extractLsb'_append_eq_of_add_le,
      BitVec.extractLsb'_eq_self, Nat.reduceSub] <;> rfl
  obtain ⟨f1, f2, g0, g1, g2, g3, g4, g5⟩ := f
  unfold decodeRow; rw [f1]; show decodeRowV w = _
  unfold decodeRowV; rw [f2]
  show (if bits w 8 5 = 0 then some (.vneg (bits w 18 5) (bits w 13 5) (bits w 4 4) (bits w 1 3) (bits w 0 1)) else none : Option Instr) = some (.vneg d a t m x)
  simp only [g0, g1, g2, g3, g4, g5]
  rfl
theorem vdiv (d : BitVec 5) (a : BitVec 5) (b : BitVec 5) (t : BitVec 4) (m : BitVec 3) : Statement (.vdiv d a b t m) := by
  intro _
  have hw : Instr.encodeWord (.vdiv d a b t m) = (0x4b#9 ++ d ++ a ++ b ++ t ++ m ++ 0x0#1 : BitVec (9+5+5+5+4+3+1)) := rfl
  show decodeRow (Instr.encodeWord (.vdiv d a b t m)) = some (.vdiv d a b t m)
  generalize Instr.encodeWord (.vdiv d a b t m) = w at hw ⊢
  have f : bits w 29 3 = 0x1#3 ∧ bits w 23 6 = 0xb#6 ∧ bits w 0 1 = 0x0#1 ∧ bits w 18 5 = d ∧ bits w 13 5 = a ∧ bits w 8 5 = b ∧
      bits w 4 4 = t ∧ bits w 1 3 = m := by
    subst hw
    refine ⟨?_, ?_, ?_, ?_, ?_, ?_, ?_, ?_⟩ <;> simp (disch := decide) only [bits, BitVec.extractLsb'_append_eq_of_le, BitVec.extractLsb'_append_eq_of_add_le,
      BitVec.extractLsb'_eq_self, Nat.reduceSub] <;> rfl
  obtain ⟨f1, f2, g0, g1, g2, g3, g4, g5⟩ := f
  unfold decodeRow; rw [f1]; show decodeRowV w = _
  unfold decodeRowV; rw [f2]
  show (if bits w 0 1 = 0 then some (.vdiv (bits w 18 5) (bits w 13 5) (bits w 8 5) (bits w 4 4) (bits w 1 3)) else none : Option Instr) = some (.vdiv d a b t m)
  simp only [g0, g1, g2, g3, g4, g5]
  rfl
theorem vsqrt (d : BitVec 5) (a : BitVec 5) (t : BitVec 4) (m : BitVec 3) : Statement (.vsqrt d a t m) := by
  intro _
  have hw : Instr.encodeWord (.vsqrt d a t m) = (0x4c#9 ++ d ++ a ++ 0x0#5 ++ t ++ m ++ 0x0#1 : BitVec (9+5+5+5+4+3+1)) := rfl
  show decodeRow (Instr.encodeWord (.vsqrt d a t m)) = some (.vsqrt d a t m)
  generalize Instr.encodeWord (.vsqrt d a t m) = w at hw ⊢
  have f : bits w 29 3 = 0x1#3 ∧ bits w 23 6 = 0xc#6 ∧ bits w 8 5 = 0x0#5 ∧ bits w 0 1 = 0x0#1 ∧ bits w 18 5 = d ∧ bits w 13 5 =
      a ∧ bits w 4 4 = t ∧ bits w 1 3 = m := by
    subst hw
    refine ⟨?_, ?_, ?_, ?_, ?_, ?_, ?_, ?_⟩ <;> simp (disch := decide) only [bits, BitVec.extractLsb'_append_eq_of_le, BitVec.extractLsb'_append_eq_of_add_le,
      BitVec.extractLsb'_eq_self, Nat.reduceSub] <;> rfl
  obtain ⟨f1, f2, g0, g1, g2, g3, g4, g5⟩ := f
  unfold decodeRow; rw [f1]; show decodeRowV w = _
  unfold decodeRowV; rw [f2]
  show (if bits w 8 5 = 0 ∧ bits w 0 1 = 0 then some (.vsqrt (bits w 18 5) (bits w 13 5) (bits w 4 4) (bits w 1 3)) else none : Option Instr) = some (.vsqrt d a t m)
  simp only [g0, g1, g2, g3, g4, g5]
  rfl
theorem vrcp (d : BitVec 5) (a : BitVec 5) (t : BitVec 4) (m : BitVec 3) (x : BitVec 1) : Statement (.vrcp d a t m x) := by
  intro _
  have hw : Instr.encodeWord (.vrcp d a t m x) = (0x4d#9 ++ d ++ a ++ 0x0#5 ++ t ++ m ++ x : BitVec (9+5+5+5+4+3+1)) := rfl
  show decodeRow (Instr.encodeWord (.vrcp d a t m x)) = some (.vrcp d a t m x)
  generalize Instr.encodeWord (.vrcp d a t m x) = w at hw ⊢
  have f : bits w 29 3 = 0x1#3 ∧ bits w 23 6 = 0xd#6 ∧ bits w 8 5 = 0x0#5 ∧ bits w 18 5 = d ∧ bits w 13 5 = a ∧ bits w 4 4 = t ∧
      bits w 1 3 = m ∧ bits w 0 1 = x := by
    subst hw
    refine ⟨?_, ?_, ?_, ?_, ?_, ?_, ?_, ?_⟩ <;> simp (disch := decide) only [bits, BitVec.extractLsb'_append_eq_of_le, BitVec.extractLsb'_append_eq_of_add_le,
      BitVec.extractLsb'_eq_self, Nat.reduceSub] <;> rfl
  obtain ⟨f1, f2, g0, g1, g2, g3, g4, g5⟩ := f
  unfold decodeRow; rw [f1]; show decodeRowV w = _
  unfold decodeRowV; rw [f2]
  show (if bits w 8 5 = 0 then some (.vrcp (bits w 18 5) (bits w 13 5) (bits w 4 4) (bits w 1 3) (bits w 0 1)) else none : Option Instr) = some (.vrcp d a t m x)
  simp only [g0, g1, g2, g3, g4, g5]
  rfl
theorem vrsq (d : BitVec 5) (a : BitVec 5) (t : BitVec 4) (m : BitVec 3) (x : BitVec 1) : Statement (.vrsq d a t m x) := by
  intro _
  have hw : Instr.encodeWord (.vrsq d a t m x) = (0x4e#9 ++ d ++ a ++ 0x0#5 ++ t ++ m ++ x : BitVec (9+5+5+5+4+3+1)) := rfl
  show decodeRow (Instr.encodeWord (.vrsq d a t m x)) = some (.vrsq d a t m x)
  generalize Instr.encodeWord (.vrsq d a t m x) = w at hw ⊢
  have f : bits w 29 3 = 0x1#3 ∧ bits w 23 6 = 0xe#6 ∧ bits w 8 5 = 0x0#5 ∧ bits w 18 5 = d ∧ bits w 13 5 = a ∧ bits w 4 4 = t ∧
      bits w 1 3 = m ∧ bits w 0 1 = x := by
    subst hw
    refine ⟨?_, ?_, ?_, ?_, ?_, ?_, ?_, ?_⟩ <;> simp (disch := decide) only [bits, BitVec.extractLsb'_append_eq_of_le, BitVec.extractLsb'_append_eq_of_add_le,
      BitVec.extractLsb'_eq_self, Nat.reduceSub] <;> rfl
  obtain ⟨f1, f2, g0, g1, g2, g3, g4, g5⟩ := f
  unfold decodeRow; rw [f1]; show decodeRowV w = _
  unfold decodeRowV; rw [f2]
  show (if bits w 8 5 = 0 then some (.vrsq (bits w 18 5) (bits w 13 5) (bits w 4 4) (bits w 1 3) (bits w 0 1)) else none : Option Instr) = some (.vrsq d a t m x)
  simp only [g0, g1, g2, g3, g4, g5]
  rfl
theorem vexp2 (d : BitVec 5) (a : BitVec 5) (t : BitVec 4) (m : BitVec 3) (x : BitVec 1) : Statement (.vexp2 d a t m x) := by
  intro _
  have hw : Instr.encodeWord (.vexp2 d a t m x) = (0x4f#9 ++ d ++ a ++ 0x0#5 ++ t ++ m ++ x : BitVec (9+5+5+5+4+3+1)) := rfl
  show decodeRow (Instr.encodeWord (.vexp2 d a t m x)) = some (.vexp2 d a t m x)
  generalize Instr.encodeWord (.vexp2 d a t m x) = w at hw ⊢
  have f : bits w 29 3 = 0x1#3 ∧ bits w 23 6 = 0xf#6 ∧ bits w 8 5 = 0x0#5 ∧ bits w 18 5 = d ∧ bits w 13 5 = a ∧ bits w 4 4 = t ∧
      bits w 1 3 = m ∧ bits w 0 1 = x := by
    subst hw
    refine ⟨?_, ?_, ?_, ?_, ?_, ?_, ?_, ?_⟩ <;> simp (disch := decide) only [bits, BitVec.extractLsb'_append_eq_of_le, BitVec.extractLsb'_append_eq_of_add_le,
      BitVec.extractLsb'_eq_self, Nat.reduceSub] <;> rfl
  obtain ⟨f1, f2, g0, g1, g2, g3, g4, g5⟩ := f
  unfold decodeRow; rw [f1]; show decodeRowV w = _
  unfold decodeRowV; rw [f2]
  show (if bits w 8 5 = 0 then some (.vexp2 (bits w 18 5) (bits w 13 5) (bits w 4 4) (bits w 1 3) (bits w 0 1)) else none : Option Instr) = some (.vexp2 d a t m x)
  simp only [g0, g1, g2, g3, g4, g5]
  rfl
theorem vlog2 (d : BitVec 5) (a : BitVec 5) (t : BitVec 4) (m : BitVec 3) (x : BitVec 1) : Statement (.vlog2 d a t m x) := by
  intro _
  have hw : Instr.encodeWord (.vlog2 d a t m x) = (0x50#9 ++ d ++ a ++ 0x0#5 ++ t ++ m ++ x : BitVec (9+5+5+5+4+3+1)) := rfl
  show decodeRow (Instr.encodeWord (.vlog2 d a t m x)) = some (.vlog2 d a t m x)
  generalize Instr.encodeWord (.vlog2 d a t m x) = w at hw ⊢
  have f : bits w 29 3 = 0x1#3 ∧ bits w 23 6 = 0x10#6 ∧ bits w 8 5 = 0x0#5 ∧ bits w 18 5 = d ∧ bits w 13 5 = a ∧ bits w 4 4 = t ∧
      bits w 1 3 = m ∧ bits w 0 1 = x := by
    subst hw
    refine ⟨?_, ?_, ?_, ?_, ?_, ?_, ?_, ?_⟩ <;> simp (disch := decide) only [bits, BitVec.extractLsb'_append_eq_of_le, BitVec.extractLsb'_append_eq_of_add_le,
      BitVec.extractLsb'_eq_self, Nat.reduceSub] <;> rfl
  obtain ⟨f1, f2, g0, g1, g2, g3, g4, g5⟩ := f
  unfold decodeRow; rw [f1]; show decodeRowV w = _
  unfold decodeRowV; rw [f2]
  show (if bits w 8 5 = 0 then some (.vlog2 (bits w 18 5) (bits w 13 5) (bits w 4 4) (bits w 1 3) (bits w 0 1)) else none : Option Instr) = some (.vlog2 d a t m x)
  simp only [g0, g1, g2, g3, g4, g5]
  rfl
theorem vand (d : BitVec 5) (a : BitVec 5) (b : BitVec 5) (t : BitVec 4) (m : BitVec 3) : Statement (.vand d a b t m) := by
  intro _
  have hw : Instr.encodeWord (.vand d a b t m) = (0x51#9 ++ d ++ a ++ b ++ t ++ m ++ 0x0#1 : BitVec (9+5+5+5+4+3+1)) := rfl
  show decodeRow (Instr.encodeWord (.vand d a b t m)) = some (.vand d a b t m)
  generalize Instr.encodeWord (.vand d a b t m) = w at hw ⊢
  have f : bits w 29 3 = 0x1#3 ∧ bits w 23 6 = 0x11#6 ∧ bits w 0 1 = 0x0#1 ∧ bits w 18 5 = d ∧ bits w 13 5 = a ∧ bits w 8 5 = b ∧
      bits w 4 4 = t ∧ bits w 1 3 = m := by
    subst hw
    refine ⟨?_, ?_, ?_, ?_, ?_, ?_, ?_, ?_⟩ <;> simp (disch := decide) only [bits, BitVec.extractLsb'_append_eq_of_le, BitVec.extractLsb'_append_eq_of_add_le,
      BitVec.extractLsb'_eq_self, Nat.reduceSub] <;> rfl
  obtain ⟨f1, f2, g0, g1, g2, g3, g4, g5⟩ := f
  unfold decodeRow; rw [f1]; show decodeRowV w = _
  unfold decodeRowV; rw [f2]
  show (if bits w 0 1 = 0 then some (.vand (bits w 18 5) (bits w 13 5) (bits w 8 5) (bits w 4 4) (bits w 1 3)) else none : Option Instr) = some (.vand d a b t m)
  simp only [g0, g1, g2, g3, g4, g5]
  rfl
theorem vor (d : BitVec 5) (a : BitVec 5) (b : BitVec 5) (t : BitVec 4) (m : BitVec 3) : Statement (.vor d a b t m) := by
  intro _
  have hw : Instr.encodeWord (.vor d a b t m) = (0x52#9 ++ d ++ a ++ b ++ t ++ m ++ 0x0#1 : BitVec (9+5+5+5+4+3+1)) := rfl
  show decodeRow (Instr.encodeWord (.vor d a b t m)) = some (.vor d a b t m)
  generalize Instr.encodeWord (.vor d a b t m) = w at hw ⊢
  have f : bits w 29 3 = 0x1#3 ∧ bits w 23 6 = 0x12#6 ∧ bits w 0 1 = 0x0#1 ∧ bits w 18 5 = d ∧ bits w 13 5 = a ∧ bits w 8 5 = b ∧
      bits w 4 4 = t ∧ bits w 1 3 = m := by
    subst hw
    refine ⟨?_, ?_, ?_, ?_, ?_, ?_, ?_, ?_⟩ <;> simp (disch := decide) only [bits, BitVec.extractLsb'_append_eq_of_le, BitVec.extractLsb'_append_eq_of_add_le,
      BitVec.extractLsb'_eq_self, Nat.reduceSub] <;> rfl
  obtain ⟨f1, f2, g0, g1, g2, g3, g4, g5⟩ := f
  unfold decodeRow; rw [f1]; show decodeRowV w = _
  unfold decodeRowV; rw [f2]
  show (if bits w 0 1 = 0 then some (.vor (bits w 18 5) (bits w 13 5) (bits w 8 5) (bits w 4 4) (bits w 1 3)) else none : Option Instr) = some (.vor d a b t m)
  simp only [g0, g1, g2, g3, g4, g5]
  rfl
theorem vxor (d : BitVec 5) (a : BitVec 5) (b : BitVec 5) (t : BitVec 4) (m : BitVec 3) : Statement (.vxor d a b t m) := by
  intro _
  have hw : Instr.encodeWord (.vxor d a b t m) = (0x53#9 ++ d ++ a ++ b ++ t ++ m ++ 0x0#1 : BitVec (9+5+5+5+4+3+1)) := rfl
  show decodeRow (Instr.encodeWord (.vxor d a b t m)) = some (.vxor d a b t m)
  generalize Instr.encodeWord (.vxor d a b t m) = w at hw ⊢
  have f : bits w 29 3 = 0x1#3 ∧ bits w 23 6 = 0x13#6 ∧ bits w 0 1 = 0x0#1 ∧ bits w 18 5 = d ∧ bits w 13 5 = a ∧ bits w 8 5 = b ∧
      bits w 4 4 = t ∧ bits w 1 3 = m := by
    subst hw
    refine ⟨?_, ?_, ?_, ?_, ?_, ?_, ?_, ?_⟩ <;> simp (disch := decide) only [bits, BitVec.extractLsb'_append_eq_of_le, BitVec.extractLsb'_append_eq_of_add_le,
      BitVec.extractLsb'_eq_self, Nat.reduceSub] <;> rfl
  obtain ⟨f1, f2, g0, g1, g2, g3, g4, g5⟩ := f
  unfold decodeRow; rw [f1]; show decodeRowV w = _
  unfold decodeRowV; rw [f2]
  show (if bits w 0 1 = 0 then some (.vxor (bits w 18 5) (bits w 13 5) (bits w 8 5) (bits w 4 4) (bits w 1 3)) else none : Option Instr) = some (.vxor d a b t m)
  simp only [g0, g1, g2, g3, g4, g5]
  rfl
theorem vnot (d : BitVec 5) (a : BitVec 5) (t : BitVec 4) (m : BitVec 3) : Statement (.vnot d a t m) := by
  intro _
  have hw : Instr.encodeWord (.vnot d a t m) = (0x54#9 ++ d ++ a ++ 0x0#5 ++ t ++ m ++ 0x0#1 : BitVec (9+5+5+5+4+3+1)) := rfl
  show decodeRow (Instr.encodeWord (.vnot d a t m)) = some (.vnot d a t m)
  generalize Instr.encodeWord (.vnot d a t m) = w at hw ⊢
  have f : bits w 29 3 = 0x1#3 ∧ bits w 23 6 = 0x14#6 ∧ bits w 8 5 = 0x0#5 ∧ bits w 0 1 = 0x0#1 ∧ bits w 18 5 = d ∧ bits w 13 5 =
      a ∧ bits w 4 4 = t ∧ bits w 1 3 = m := by
    subst hw
    refine ⟨?_, ?_, ?_, ?_, ?_, ?_, ?_, ?_⟩ <;> simp (disch := decide) only [bits, BitVec.extractLsb'_append_eq_of_le, BitVec.extractLsb'_append_eq_of_add_le,
      BitVec.extractLsb'_eq_self, Nat.reduceSub] <;> rfl
  obtain ⟨f1, f2, g0, g1, g2, g3, g4, g5⟩ := f
  unfold decodeRow; rw [f1]; show decodeRowV w = _
  unfold decodeRowV; rw [f2]
  show (if bits w 8 5 = 0 ∧ bits w 0 1 = 0 then some (.vnot (bits w 18 5) (bits w 13 5) (bits w 4 4) (bits w 1 3)) else none : Option Instr) = some (.vnot d a t m)
  simp only [g0, g1, g2, g3, g4, g5]
  rfl
theorem vshl (d : BitVec 5) (a : BitVec 5) (b : BitVec 5) (t : BitVec 4) (m : BitVec 3) : Statement (.vshl d a b t m) := by
  intro _
  have hw : Instr.encodeWord (.vshl d a b t m) = (0x55#9 ++ d ++ a ++ b ++ t ++ m ++ 0x0#1 : BitVec (9+5+5+5+4+3+1)) := rfl
  show decodeRow (Instr.encodeWord (.vshl d a b t m)) = some (.vshl d a b t m)
  generalize Instr.encodeWord (.vshl d a b t m) = w at hw ⊢
  have f : bits w 29 3 = 0x1#3 ∧ bits w 23 6 = 0x15#6 ∧ bits w 0 1 = 0x0#1 ∧ bits w 18 5 = d ∧ bits w 13 5 = a ∧ bits w 8 5 = b ∧
      bits w 4 4 = t ∧ bits w 1 3 = m := by
    subst hw
    refine ⟨?_, ?_, ?_, ?_, ?_, ?_, ?_, ?_⟩ <;> simp (disch := decide) only [bits, BitVec.extractLsb'_append_eq_of_le, BitVec.extractLsb'_append_eq_of_add_le,
      BitVec.extractLsb'_eq_self, Nat.reduceSub] <;> rfl
  obtain ⟨f1, f2, g0, g1, g2, g3, g4, g5⟩ := f
  unfold decodeRow; rw [f1]; show decodeRowV w = _
  unfold decodeRowV; rw [f2]
  show (if bits w 0 1 = 0 then some (.vshl (bits w 18 5) (bits w 13 5) (bits w 8 5) (bits w 4 4) (bits w 1 3)) else none : Option Instr) = some (.vshl d a b t m)
  simp only [g0, g1, g2, g3, g4, g5]
  rfl
theorem vshr (d : BitVec 5) (a : BitVec 5) (b : BitVec 5) (t : BitVec 4) (m : BitVec 3) : Statement (.vshr d a b t m) := by
  intro _
  have hw : Instr.encodeWord (.vshr d a b t m) = (0x56#9 ++ d ++ a ++ b ++ t ++ m ++ 0x0#1 : BitVec (9+5+5+5+4+3+1)) := rfl
  show decodeRow (Instr.encodeWord (.vshr d a b t m)) = some (.vshr d a b t m)
  generalize Instr.encodeWord (.vshr d a b t m) = w at hw ⊢
  have f : bits w 29 3 = 0x1#3 ∧ bits w 23 6 = 0x16#6 ∧ bits w 0 1 = 0x0#1 ∧ bits w 18 5 = d ∧ bits w 13 5 = a ∧ bits w 8 5 = b ∧
      bits w 4 4 = t ∧ bits w 1 3 = m := by
    subst hw
    refine ⟨?_, ?_, ?_, ?_, ?_, ?_, ?_, ?_⟩ <;> simp (disch := decide) only [bits, BitVec.extractLsb'_append_eq_of_le, BitVec.extractLsb'_append_eq_of_add_le,
      BitVec.extractLsb'_eq_self, Nat.reduceSub] <;> rfl
  obtain ⟨f1, f2, g0, g1, g2, g3, g4, g5⟩ := f
  unfold decodeRow; rw [f1]; show decodeRowV w = _
  unfold decodeRowV; rw [f2]
  show (if bits w 0 1 = 0 then some (.vshr (bits w 18 5) (bits w 13 5) (bits w 8 5) (bits w 4 4) (bits w 1 3)) else none : Option Instr) = some (.vshr d a b t m)
  simp only [g0, g1, g2, g3, g4, g5]
  rfl
theorem vsra (d : BitVec 5) (a : BitVec 5) (b : BitVec 5) (t : BitVec 4) (m : BitVec 3) : Statement (.vsra d a b t m) := by
  intro _
  have hw : Instr.encodeWord (.vsra d a b t m) = (0x57#9 ++ d ++ a ++ b ++ t ++ m ++ 0x0#1 : BitVec (9+5+5+5+4+3+1)) := rfl
  show decodeRow (Instr.encodeWord (.vsra d a b t m)) = some (.vsra d a b t m)
  generalize Instr.encodeWord (.vsra d a b t m) = w at hw ⊢
  have f : bits w 29 3 = 0x1#3 ∧ bits w 23 6 = 0x17#6 ∧ bits w 0 1 = 0x0#1 ∧ bits w 18 5 = d ∧ bits w 13 5 = a ∧ bits w 8 5 = b ∧
      bits w 4 4 = t ∧ bits w 1 3 = m := by
    subst hw
    refine ⟨?_, ?_, ?_, ?_, ?_, ?_, ?_, ?_⟩ <;> simp (disch := decide) only [bits, BitVec.extractLsb'_append_eq_of_le, BitVec.extractLsb'_append_eq_of_add_le,
      BitVec.extractLsb'_eq_self, Nat.reduceSub] <;> rfl
  obtain ⟨f1, f2, g0, g1, g2, g3, g4, g5⟩ := f
  unfold decodeRow; rw [f1]; show decodeRowV w = _
  unfold decodeRowV; rw [f2]
  show (if bits w 0 1 = 0 then some (.vsra (bits w 18 5) (bits w 13 5) (bits w 8 5) (bits w 4 4) (bits w 1 3)) else none : Option Instr) = some (.vsra d a b t m)
  simp only [g0, g1, g2, g3, g4, g5]
  rfl
theorem vcmpeq (d : BitVec 3) (a : BitVec 5) (b : BitVec 5) (t : BitVec 4) (m : BitVec 3) (x : BitVec 1) : Statement (.vcmpeq d a b t m x) := by
  intro _
  have hw : Instr.encodeWord (.vcmpeq d a b t m x) = (0x58#9 ++ 0x0#2 ++ d ++ a ++ b ++ t ++ m ++ x : BitVec (9+2+3+5+5+4+3+1)) := rfl
  show decodeRow (Instr.encodeWord (.vcmpeq d a b t m x)) = some (.vcmpeq d a b t m x)
  generalize Instr.encodeWord (.vcmpeq d a b t m x) = w at hw ⊢
  have f : bits w 29 3 = 0x1#3 ∧ bits w 23 6 = 0x18#6 ∧ bits w 21 2 = 0x0#2 ∧ bits w 18 3 = d ∧ bits w 13 5 = a ∧ bits w 8 5 = b
      ∧ bits w 4 4 = t ∧ bits w 1 3 = m ∧ bits w 0 1 = x := by
    subst hw
    refine ⟨?_, ?_, ?_, ?_, ?_, ?_, ?_, ?_, ?_⟩ <;> simp (disch := decide) only [bits, BitVec.extractLsb'_append_eq_of_le, BitVec.extractLsb'_append_eq_of_add_le,
      BitVec.extractLsb'_eq_self, Nat.reduceSub] <;> rfl
  obtain ⟨f1, f2, g0, g1, g2, g3, g4, g5, g6⟩ := f
  unfold decodeRow; rw [f1]; show decodeRowV w = _
  unfold decodeRowV; rw [f2]
  show (if bits w 21 2 = 0 then some (.vcmpeq (bits w 18 3) (bits w 13 5) (bits w 8 5) (bits w 4 4) (bits w 1 3) (bits w 0 1))
    else none : Option Instr) = some (.vcmpeq d a b t m x)
  simp only [g0, g1, g2, g3, g4, g5, g6]
  rfl
theorem vcmplt (d : BitVec 3) (a : BitVec 5) (b : BitVec 5) (t : BitVec 4) (m : BitVec 3) (x : BitVec 1) : Statement (.vcmplt d a b t m x) := by
  intro _
  have hw : Instr.encodeWord (.vcmplt d a b t m x) = (0x59#9 ++ 0x0#2 ++ d ++ a ++ b ++ t ++ m ++ x : BitVec (9+2+3+5+5+4+3+1)) := rfl
  show decodeRow (Instr.encodeWord (.vcmplt d a b t m x)) = some (.vcmplt d a b t m x)
  generalize Instr.encodeWord (.vcmplt d a b t m x) = w at hw ⊢
  have f : bits w 29 3 = 0x1#3 ∧ bits w 23 6 = 0x19#6 ∧ bits w 21 2 = 0x0#2 ∧ bits w 18 3 = d ∧ bits w 13 5 = a ∧ bits w 8 5 = b
      ∧ bits w 4 4 = t ∧ bits w 1 3 = m ∧ bits w 0 1 = x := by
    subst hw
    refine ⟨?_, ?_, ?_, ?_, ?_, ?_, ?_, ?_, ?_⟩ <;> simp (disch := decide) only [bits, BitVec.extractLsb'_append_eq_of_le, BitVec.extractLsb'_append_eq_of_add_le,
      BitVec.extractLsb'_eq_self, Nat.reduceSub] <;> rfl
  obtain ⟨f1, f2, g0, g1, g2, g3, g4, g5, g6⟩ := f
  unfold decodeRow; rw [f1]; show decodeRowV w = _
  unfold decodeRowV; rw [f2]
  show (if bits w 21 2 = 0 then some (.vcmplt (bits w 18 3) (bits w 13 5) (bits w 8 5) (bits w 4 4) (bits w 1 3) (bits w 0 1))
    else none : Option Instr) = some (.vcmplt d a b t m x)
  simp only [g0, g1, g2, g3, g4, g5, g6]
  rfl
theorem vcmple (d : BitVec 3) (a : BitVec 5) (b : BitVec 5) (t : BitVec 4) (m : BitVec 3) (x : BitVec 1) : Statement (.vcmple d a b t m x) := by
  intro _
  have hw : Instr.encodeWord (.vcmple d a b t m x) = (0x5a#9 ++ 0x0#2 ++ d ++ a ++ b ++ t ++ m ++ x : BitVec (9+2+3+5+5+4+3+1)) := rfl
  show decodeRow (Instr.encodeWord (.vcmple d a b t m x)) = some (.vcmple d a b t m x)
  generalize Instr.encodeWord (.vcmple d a b t m x) = w at hw ⊢
  have f : bits w 29 3 = 0x1#3 ∧ bits w 23 6 = 0x1a#6 ∧ bits w 21 2 = 0x0#2 ∧ bits w 18 3 = d ∧ bits w 13 5 = a ∧ bits w 8 5 = b
      ∧ bits w 4 4 = t ∧ bits w 1 3 = m ∧ bits w 0 1 = x := by
    subst hw
    refine ⟨?_, ?_, ?_, ?_, ?_, ?_, ?_, ?_, ?_⟩ <;> simp (disch := decide) only [bits, BitVec.extractLsb'_append_eq_of_le, BitVec.extractLsb'_append_eq_of_add_le,
      BitVec.extractLsb'_eq_self, Nat.reduceSub] <;> rfl
  obtain ⟨f1, f2, g0, g1, g2, g3, g4, g5, g6⟩ := f
  unfold decodeRow; rw [f1]; show decodeRowV w = _
  unfold decodeRowV; rw [f2]
  show (if bits w 21 2 = 0 then some (.vcmple (bits w 18 3) (bits w 13 5) (bits w 8 5) (bits w 4 4) (bits w 1 3) (bits w 0 1))
    else none : Option Instr) = some (.vcmple d a b t m x)
  simp only [g0, g1, g2, g3, g4, g5, g6]
  rfl
theorem vcmpun (d : BitVec 3) (a : BitVec 5) (b : BitVec 5) (t : BitVec 4) (m : BitVec 3) (x : BitVec 1) : Statement (.vcmpun d a b t m x) := by
  intro _
  have hw : Instr.encodeWord (.vcmpun d a b t m x) = (0x5b#9 ++ 0x0#2 ++ d ++ a ++ b ++ t ++ m ++ x : BitVec (9+2+3+5+5+4+3+1)) := rfl
  show decodeRow (Instr.encodeWord (.vcmpun d a b t m x)) = some (.vcmpun d a b t m x)
  generalize Instr.encodeWord (.vcmpun d a b t m x) = w at hw ⊢
  have f : bits w 29 3 = 0x1#3 ∧ bits w 23 6 = 0x1b#6 ∧ bits w 21 2 = 0x0#2 ∧ bits w 18 3 = d ∧ bits w 13 5 = a ∧ bits w 8 5 = b
      ∧ bits w 4 4 = t ∧ bits w 1 3 = m ∧ bits w 0 1 = x := by
    subst hw
    refine ⟨?_, ?_, ?_, ?_, ?_, ?_, ?_, ?_, ?_⟩ <;> simp (disch := decide) only [bits, BitVec.extractLsb'_append_eq_of_le, BitVec.extractLsb'_append_eq_of_add_le,
      BitVec.extractLsb'_eq_self, Nat.reduceSub] <;> rfl
  obtain ⟨f1, f2, g0, g1, g2, g3, g4, g5, g6⟩ := f
  unfold decodeRow; rw [f1]; show decodeRowV w = _
  unfold decodeRowV; rw [f2]
  show (if bits w 21 2 = 0 then some (.vcmpun (bits w 18 3) (bits w 13 5) (bits w 8 5) (bits w 4 4) (bits w 1 3) (bits w 0 1))
    else none : Option Instr) = some (.vcmpun d a b t m x)
  simp only [g0, g1, g2, g3, g4, g5, g6]
  rfl
theorem vsel (d : BitVec 5) (a : BitVec 5) (b : BitVec 5) (t : BitVec 4) (m : BitVec 3) : Statement (.vsel d a b t m) := by
  intro _
  have hw : Instr.encodeWord (.vsel d a b t m) = (0x5c#9 ++ d ++ a ++ b ++ t ++ m ++ 0x0#1 : BitVec (9+5+5+5+4+3+1)) := rfl
  show decodeRow (Instr.encodeWord (.vsel d a b t m)) = some (.vsel d a b t m)
  generalize Instr.encodeWord (.vsel d a b t m) = w at hw ⊢
  have f : bits w 29 3 = 0x1#3 ∧ bits w 23 6 = 0x1c#6 ∧ bits w 0 1 = 0x0#1 ∧ bits w 18 5 = d ∧ bits w 13 5 = a ∧ bits w 8 5 = b ∧
      bits w 4 4 = t ∧ bits w 1 3 = m := by
    subst hw
    refine ⟨?_, ?_, ?_, ?_, ?_, ?_, ?_, ?_⟩ <;> simp (disch := decide) only [bits, BitVec.extractLsb'_append_eq_of_le, BitVec.extractLsb'_append_eq_of_add_le,
      BitVec.extractLsb'_eq_self, Nat.reduceSub] <;> rfl
  obtain ⟨f1, f2, g0, g1, g2, g3, g4, g5⟩ := f
  unfold decodeRow; rw [f1]; show decodeRowV w = _
  unfold decodeRowV; rw [f2]
  show (if bits w 0 1 = 0 then some (.vsel (bits w 18 5) (bits w 13 5) (bits w 8 5) (bits w 4 4) (bits w 1 3)) else none : Option Instr) = some (.vsel d a b t m)
  simp only [g0, g1, g2, g3, g4, g5]
  rfl
theorem vcvt (d : BitVec 5) (a : BitVec 5) (s : BitVec 1) (c : BitVec 4) (t : BitVec 4) (m : BitVec 3) (r : BitVec 1) : Statement (.vcvt d a s c t m r) := by
  intro _
  have hw : Instr.encodeWord (.vcvt d a s c t m r) = (0x5d#9 ++ d ++ a ++ s ++ c ++ t ++ m ++ r : BitVec (9+5+5+1+4+4+3+1)) := rfl
  show decodeRow (Instr.encodeWord (.vcvt d a s c t m r)) = some (.vcvt d a s c t m r)
  generalize Instr.encodeWord (.vcvt d a s c t m r) = w at hw ⊢
  have f : bits w 29 3 = 0x1#3 ∧ bits w 23 6 = 0x1d#6 ∧ bits w 18 5 = d ∧ bits w 13 5 = a ∧ bits w 12 1 = s ∧ bits w 8 4 = c ∧
      bits w 4 4 = t ∧ bits w 1 3 = m ∧ bits w 0 1 = r := by
    subst hw
    refine ⟨?_, ?_, ?_, ?_, ?_, ?_, ?_, ?_, ?_⟩ <;> simp (disch := decide) only [bits, BitVec.extractLsb'_append_eq_of_le, BitVec.extractLsb'_append_eq_of_add_le,
      BitVec.extractLsb'_eq_self, Nat.reduceSub] <;> rfl
  obtain ⟨f1, f2, g0, g1, g2, g3, g4, g5, g6⟩ := f
  unfold decodeRow; rw [f1]; show decodeRowV w = _
  unfold decodeRowV; rw [f2]
  show (some (.vcvt (bits w 18 5) (bits w 13 5) (bits w 12 1) (bits w 8 4) (bits w 4 4) (bits w 1 3) (bits w 0 1)) : Option Instr) = some (.vcvt d a s c t m r)
  simp only [g0, g1, g2, g3, g4, g5, g6]
theorem vqblk (d : BitVec 5) (a : BitVec 5) (b : BitVec 5) (t : BitVec 4) : Statement (.vqblk d a b t) := by
  intro _
  have hw : Instr.encodeWord (.vqblk d a b t) = (0x5e#9 ++ d ++ a ++ b ++ t ++ 0x0#4 : BitVec (9+5+5+5+4+4)) := rfl
  show decodeRow (Instr.encodeWord (.vqblk d a b t)) = some (.vqblk d a b t)
  generalize Instr.encodeWord (.vqblk d a b t) = w at hw ⊢
  have f : bits w 29 3 = 0x1#3 ∧ bits w 23 6 = 0x1e#6 ∧ bits w 0 4 = 0x0#4 ∧ bits w 18 5 = d ∧ bits w 13 5 = a ∧ bits w 8 5 = b ∧
      bits w 4 4 = t := by
    subst hw
    refine ⟨?_, ?_, ?_, ?_, ?_, ?_, ?_⟩ <;> simp (disch := decide) only [bits, BitVec.extractLsb'_append_eq_of_le, BitVec.extractLsb'_append_eq_of_add_le,
      BitVec.extractLsb'_eq_self, Nat.reduceSub] <;> rfl
  obtain ⟨f1, f2, g0, g1, g2, g3, g4⟩ := f
  unfold decodeRow; rw [f1]; show decodeRowV w = _
  unfold decodeRowV; rw [f2]
  show (if bits w 0 4 = 0 then some (.vqblk (bits w 18 5) (bits w 13 5) (bits w 8 5) (bits w 4 4)) else none : Option Instr) = some (.vqblk d a b t)
  simp only [g0, g1, g2, g3, g4]
  rfl
theorem vdqblk (d : BitVec 5) (a : BitVec 5) (b : BitVec 5) (t : BitVec 4) (m : BitVec 3) : Statement (.vdqblk d a b t m) := by
  intro _
  have hw : Instr.encodeWord (.vdqblk d a b t m) = (0x5f#9 ++ d ++ a ++ b ++ t ++ m ++ 0x0#1 : BitVec (9+5+5+5+4+3+1)) := rfl
  show decodeRow (Instr.encodeWord (.vdqblk d a b t m)) = some (.vdqblk d a b t m)
  generalize Instr.encodeWord (.vdqblk d a b t m) = w at hw ⊢
  have f : bits w 29 3 = 0x1#3 ∧ bits w 23 6 = 0x1f#6 ∧ bits w 0 1 = 0x0#1 ∧ bits w 18 5 = d ∧ bits w 13 5 = a ∧ bits w 8 5 = b ∧
      bits w 4 4 = t ∧ bits w 1 3 = m := by
    subst hw
    refine ⟨?_, ?_, ?_, ?_, ?_, ?_, ?_, ?_⟩ <;> simp (disch := decide) only [bits, BitVec.extractLsb'_append_eq_of_le, BitVec.extractLsb'_append_eq_of_add_le,
      BitVec.extractLsb'_eq_self, Nat.reduceSub] <;> rfl
  obtain ⟨f1, f2, g0, g1, g2, g3, g4, g5⟩ := f
  unfold decodeRow; rw [f1]; show decodeRowV w = _
  unfold decodeRowV; rw [f2]
  show (if bits w 0 1 = 0 then some (.vdqblk (bits w 18 5) (bits w 13 5) (bits w 8 5) (bits w 4 4) (bits w 1 3)) else none : Option Instr) = some (.vdqblk d a b t m)
  simp only [g0, g1, g2, g3, g4, g5]
  rfl
theorem vred (d : BitVec 5) (a : BitVec 5) (p : BitVec 3) (t : BitVec 4) (m : BitVec 3) : Statement (.vred d a p t m) := by
  intro _
  have hw : Instr.encodeWord (.vred d a p t m) = (0x60#9 ++ d ++ a ++ 0x0#2 ++ p ++ t ++ m ++ 0x0#1 : BitVec (9+5+5+2+3+4+3+1)) := rfl
  show decodeRow (Instr.encodeWord (.vred d a p t m)) = some (.vred d a p t m)
  generalize Instr.encodeWord (.vred d a p t m) = w at hw ⊢
  have f : bits w 29 3 = 0x1#3 ∧ bits w 23 6 = 0x20#6 ∧ bits w 11 2 = 0x0#2 ∧ bits w 0 1 = 0x0#1 ∧ bits w 18 5 = d ∧ bits w 13 5
      = a ∧ bits w 8 3 = p ∧ bits w 4 4 = t ∧ bits w 1 3 = m := by
    subst hw
    refine ⟨?_, ?_, ?_, ?_, ?_, ?_, ?_, ?_, ?_⟩ <;> simp (disch := decide) only [bits, BitVec.extractLsb'_append_eq_of_le, BitVec.extractLsb'_append_eq_of_add_le,
      BitVec.extractLsb'_eq_self, Nat.reduceSub] <;> rfl
  obtain ⟨f1, f2, g0, g1, g2, g3, g4, g5, g6⟩ := f
  unfold decodeRow; rw [f1]; show decodeRowV w = _
  unfold decodeRowV; rw [f2]
  show (if bits w 11 2 = 0 ∧ bits w 0 1 = 0 then some (.vred (bits w 18 5) (bits w 13 5) (bits w 8 3) (bits w 4 4) (bits w 1 3))
    else none : Option Instr) = some (.vred d a p t m)
  simp only [g0, g1, g2, g3, g4, g5, g6]
  rfl
theorem vscan (d : BitVec 5) (a : BitVec 5) (p : BitVec 3) (t : BitVec 4) (m : BitVec 3) : Statement (.vscan d a p t m) := by
  intro _
  have hw : Instr.encodeWord (.vscan d a p t m) = (0x61#9 ++ d ++ a ++ 0x0#2 ++ p ++ t ++ m ++ 0x0#1 : BitVec (9+5+5+2+3+4+3+1)) := rfl
  show decodeRow (Instr.encodeWord (.vscan d a p t m)) = some (.vscan d a p t m)
  generalize Instr.encodeWord (.vscan d a p t m) = w at hw ⊢
  have f : bits w 29 3 = 0x1#3 ∧ bits w 23 6 = 0x21#6 ∧ bits w 11 2 = 0x0#2 ∧ bits w 0 1 = 0x0#1 ∧ bits w 18 5 = d ∧ bits w 13 5
      = a ∧ bits w 8 3 = p ∧ bits w 4 4 = t ∧ bits w 1 3 = m := by
    subst hw
    refine ⟨?_, ?_, ?_, ?_, ?_, ?_, ?_, ?_, ?_⟩ <;> simp (disch := decide) only [bits, BitVec.extractLsb'_append_eq_of_le, BitVec.extractLsb'_append_eq_of_add_le,
      BitVec.extractLsb'_eq_self, Nat.reduceSub] <;> rfl
  obtain ⟨f1, f2, g0, g1, g2, g3, g4, g5, g6⟩ := f
  unfold decodeRow; rw [f1]; show decodeRowV w = _
  unfold decodeRowV; rw [f2]
  show (if bits w 11 2 = 0 ∧ bits w 0 1 = 0 then some (.vscan (bits w 18 5) (bits w 13 5) (bits w 8 3) (bits w 4 4) (bits w 1
    3)) else none : Option Instr) = some (.vscan d a p t m)
  simp only [g0, g1, g2, g3, g4, g5, g6]
  rfl
theorem vperm (d : BitVec 5) (a : BitVec 5) (b : BitVec 5) (t : BitVec 4) (m : BitVec 3) (x : BitVec 1) : Statement (.vperm d a b t m x) := by
  intro _
  have hw : Instr.encodeWord (.vperm d a b t m x) = (0x62#9 ++ d ++ a ++ b ++ t ++ m ++ x : BitVec (9+5+5+5+4+3+1)) := rfl
  show decodeRow (Instr.encodeWord (.vperm d a b t m x)) = some (.vperm d a b t m x)
  generalize Instr.encodeWord (.vperm d a b t m x) = w at hw ⊢
  have f : bits w 29 3 = 0x1#3 ∧ bits w 23 6 = 0x22#6 ∧ bits w 18 5 = d ∧ bits w 13 5 = a ∧ bits w 8 5 = b ∧ bits w 4 4 = t ∧
      bits w 1 3 = m ∧ bits w 0 1 = x := by
    subst hw
    refine ⟨?_, ?_, ?_, ?_, ?_, ?_, ?_, ?_⟩ <;> simp (disch := decide) only [bits, BitVec.extractLsb'_append_eq_of_le, BitVec.extractLsb'_append_eq_of_add_le,
      BitVec.extractLsb'_eq_self, Nat.reduceSub] <;> rfl
  obtain ⟨f1, f2, g0, g1, g2, g3, g4, g5⟩ := f
  unfold decodeRow; rw [f1]; show decodeRowV w = _
  unfold decodeRowV; rw [f2]
  show (some (.vperm (bits w 18 5) (bits w 13 5) (bits w 8 5) (bits w 4 4) (bits w 1 3) (bits w 0 1)) : Option Instr) = some (.vperm d a b t m x)
  simp only [g0, g1, g2, g3, g4, g5]
theorem vrot (d : BitVec 5) (a : BitVec 5) (b : BitVec 5) (t : BitVec 4) (m : BitVec 3) : Statement (.vrot d a b t m) := by
  intro _
  have hw : Instr.encodeWord (.vrot d a b t m) = (0x63#9 ++ d ++ a ++ b ++ t ++ m ++ 0x0#1 : BitVec (9+5+5+5+4+3+1)) := rfl
  show decodeRow (Instr.encodeWord (.vrot d a b t m)) = some (.vrot d a b t m)
  generalize Instr.encodeWord (.vrot d a b t m) = w at hw ⊢
  have f : bits w 29 3 = 0x1#3 ∧ bits w 23 6 = 0x23#6 ∧ bits w 0 1 = 0x0#1 ∧ bits w 18 5 = d ∧ bits w 13 5 = a ∧ bits w 8 5 = b ∧
      bits w 4 4 = t ∧ bits w 1 3 = m := by
    subst hw
    refine ⟨?_, ?_, ?_, ?_, ?_, ?_, ?_, ?_⟩ <;> simp (disch := decide) only [bits, BitVec.extractLsb'_append_eq_of_le, BitVec.extractLsb'_append_eq_of_add_le,
      BitVec.extractLsb'_eq_self, Nat.reduceSub] <;> rfl
  obtain ⟨f1, f2, g0, g1, g2, g3, g4, g5⟩ := f
  unfold decodeRow; rw [f1]; show decodeRowV w = _
  unfold decodeRowV; rw [f2]
  show (if bits w 0 1 = 0 then some (.vrot (bits w 18 5) (bits w 13 5) (bits w 8 5) (bits w 4 4) (bits w 1 3)) else none : Option Instr) = some (.vrot d a b t m)
  simp only [g0, g1, g2, g3, g4, g5]
  rfl
theorem vzip (d : BitVec 5) (a : BitVec 5) (b : BitVec 5) (t : BitVec 4) (m : BitVec 3) (x : BitVec 1) : Statement (.vzip d a b t m x) := by
  intro _
  have hw : Instr.encodeWord (.vzip d a b t m x) = (0x64#9 ++ d ++ a ++ b ++ t ++ m ++ x : BitVec (9+5+5+5+4+3+1)) := rfl
  show decodeRow (Instr.encodeWord (.vzip d a b t m x)) = some (.vzip d a b t m x)
  generalize Instr.encodeWord (.vzip d a b t m x) = w at hw ⊢
  have f : bits w 29 3 = 0x1#3 ∧ bits w 23 6 = 0x24#6 ∧ bits w 18 5 = d ∧ bits w 13 5 = a ∧ bits w 8 5 = b ∧ bits w 4 4 = t ∧
      bits w 1 3 = m ∧ bits w 0 1 = x := by
    subst hw
    refine ⟨?_, ?_, ?_, ?_, ?_, ?_, ?_, ?_⟩ <;> simp (disch := decide) only [bits, BitVec.extractLsb'_append_eq_of_le, BitVec.extractLsb'_append_eq_of_add_le,
      BitVec.extractLsb'_eq_self, Nat.reduceSub] <;> rfl
  obtain ⟨f1, f2, g0, g1, g2, g3, g4, g5⟩ := f
  unfold decodeRow; rw [f1]; show decodeRowV w = _
  unfold decodeRowV; rw [f2]
  show (some (.vzip (bits w 18 5) (bits w 13 5) (bits w 8 5) (bits w 4 4) (bits w 1 3) (bits w 0 1)) : Option Instr) = some (.vzip d a b t m x)
  simp only [g0, g1, g2, g3, g4, g5]
theorem vunzip (d : BitVec 5) (a : BitVec 5) (b : BitVec 5) (t : BitVec 4) (m : BitVec 3) (x : BitVec 1) : Statement (.vunzip d a b t m x) := by
  intro _
  have hw : Instr.encodeWord (.vunzip d a b t m x) = (0x65#9 ++ d ++ a ++ b ++ t ++ m ++ x : BitVec (9+5+5+5+4+3+1)) := rfl
  show decodeRow (Instr.encodeWord (.vunzip d a b t m x)) = some (.vunzip d a b t m x)
  generalize Instr.encodeWord (.vunzip d a b t m x) = w at hw ⊢
  have f : bits w 29 3 = 0x1#3 ∧ bits w 23 6 = 0x25#6 ∧ bits w 18 5 = d ∧ bits w 13 5 = a ∧ bits w 8 5 = b ∧ bits w 4 4 = t ∧
      bits w 1 3 = m ∧ bits w 0 1 = x := by
    subst hw
    refine ⟨?_, ?_, ?_, ?_, ?_, ?_, ?_, ?_⟩ <;> simp (disch := decide) only [bits, BitVec.extractLsb'_append_eq_of_le, BitVec.extractLsb'_append_eq_of_add_le,
      BitVec.extractLsb'_eq_self, Nat.reduceSub] <;> rfl
  obtain ⟨f1, f2, g0, g1, g2, g3, g4, g5⟩ := f
  unfold decodeRow; rw [f1]; show decodeRowV w = _
  unfold decodeRowV; rw [f2]
  show (some (.vunzip (bits w 18 5) (bits w 13 5) (bits w 8 5) (bits w 4 4) (bits w 1 3) (bits w 0 1)) : Option Instr) = some (.vunzip d a b t m x)
  simp only [g0, g1, g2, g3, g4, g5]
theorem vbcst (d : BitVec 5) (a : BitVec 5) (b : BitVec 5) (t : BitVec 4) (m : BitVec 3) : Statement (.vbcst d a b t m) := by
  intro _
  have hw : Instr.encodeWord (.vbcst d a b t m) = (0x66#9 ++ d ++ a ++ b ++ t ++ m ++ 0x0#1 : BitVec (9+5+5+5+4+3+1)) := rfl
  show decodeRow (Instr.encodeWord (.vbcst d a b t m)) = some (.vbcst d a b t m)
  generalize Instr.encodeWord (.vbcst d a b t m) = w at hw ⊢
  have f : bits w 29 3 = 0x1#3 ∧ bits w 23 6 = 0x26#6 ∧ bits w 0 1 = 0x0#1 ∧ bits w 18 5 = d ∧ bits w 13 5 = a ∧ bits w 8 5 = b ∧
      bits w 4 4 = t ∧ bits w 1 3 = m := by
    subst hw
    refine ⟨?_, ?_, ?_, ?_, ?_, ?_, ?_, ?_⟩ <;> simp (disch := decide) only [bits, BitVec.extractLsb'_append_eq_of_le, BitVec.extractLsb'_append_eq_of_add_le,
      BitVec.extractLsb'_eq_self, Nat.reduceSub] <;> rfl
  obtain ⟨f1, f2, g0, g1, g2, g3, g4, g5⟩ := f
  unfold decodeRow; rw [f1]; show decodeRowV w = _
  unfold decodeRowV; rw [f2]
  show (if bits w 0 1 = 0 then some (.vbcst (bits w 18 5) (bits w 13 5) (bits w 8 5) (bits w 4 4) (bits w 1 3)) else none : Option Instr) = some (.vbcst d a b t m)
  simp only [g0, g1, g2, g3, g4, g5]
  rfl
theorem viota (d : BitVec 5) (t : BitVec 4) (m : BitVec 3) : Statement (.viota d t m) := by
  intro _
  have hw : Instr.encodeWord (.viota d t m) = (0x67#9 ++ d ++ 0x0#10 ++ t ++ m ++ 0x0#1 : BitVec (9+5+10+4+3+1)) := rfl
  show decodeRow (Instr.encodeWord (.viota d t m)) = some (.viota d t m)
  generalize Instr.encodeWord (.viota d t m) = w at hw ⊢
  have f : bits w 29 3 = 0x1#3 ∧ bits w 23 6 = 0x27#6 ∧ bits w 8 10 = 0x0#10 ∧ bits w 0 1 = 0x0#1 ∧ bits w 18 5 = d ∧ bits w 4 4
      = t ∧ bits w 1 3 = m := by
    subst hw
    refine ⟨?_, ?_, ?_, ?_, ?_, ?_, ?_⟩ <;> simp (disch := decide) only [bits, BitVec.extractLsb'_append_eq_of_le, BitVec.extractLsb'_append_eq_of_add_le,
      BitVec.extractLsb'_eq_self, Nat.reduceSub] <;> rfl
  obtain ⟨f1, f2, g0, g1, g2, g3, g4⟩ := f
  unfold decodeRow; rw [f1]; show decodeRowV w = _
  unfold decodeRowV; rw [f2]
  show (if bits w 8 10 = 0 ∧ bits w 0 1 = 0 then some (.viota (bits w 18 5) (bits w 4 4) (bits w 1 3)) else none : Option Instr) = some (.viota d t m)
  simp only [g0, g1, g2, g3, g4]
  rfl
theorem vmovi (d : BitVec 5) (i : BitVec 18) (p2 : Option (BitVec 29)) : Statement (.vmovi d i p2) := by
  intro _
  have hw : Instr.encodeWord (.vmovi d i p2) = (0x68#9 ++ d ++ i : BitVec (9+5+18)) := rfl
  show decodeRow (Instr.encodeWord (.vmovi d i p2)) = some (.vmovi d i none)
  generalize Instr.encodeWord (.vmovi d i p2) = w at hw ⊢
  have f : bits w 29 3 = 0x1#3 ∧ bits w 23 6 = 0x28#6 ∧ bits w 18 5 = d ∧ bits w 0 18 = i := by
    subst hw
    refine ⟨?_, ?_, ?_, ?_⟩ <;> simp (disch := decide) only [bits, BitVec.extractLsb'_append_eq_of_le, BitVec.extractLsb'_append_eq_of_add_le,
      BitVec.extractLsb'_eq_self, Nat.reduceSub] <;> rfl
  obtain ⟨f1, f2, g0, g1⟩ := f
  unfold decodeRow; rw [f1]; show decodeRowV w = _
  unfold decodeRowV; rw [f2]
  show (some (.vmovi (bits w 18 5) (bits w 0 18) none) : Option Instr) = some (.vmovi d i none)
  simp only [g0, g1]
theorem vdot4 (d : BitVec 5) (a : BitVec 5) (b : BitVec 5) (t : BitVec 4) (m : BitVec 3) (x : BitVec 1) : Statement (.vdot4 d a b t m x) := by
  intro _
  have hw : Instr.encodeWord (.vdot4 d a b t m x) = (0x69#9 ++ d ++ a ++ b ++ t ++ m ++ x : BitVec (9+5+5+5+4+3+1)) := rfl
  show decodeRow (Instr.encodeWord (.vdot4 d a b t m x)) = some (.vdot4 d a b t m x)
  generalize Instr.encodeWord (.vdot4 d a b t m x) = w at hw ⊢
  have f : bits w 29 3 = 0x1#3 ∧ bits w 23 6 = 0x29#6 ∧ bits w 18 5 = d ∧ bits w 13 5 = a ∧ bits w 8 5 = b ∧ bits w 4 4 = t ∧
      bits w 1 3 = m ∧ bits w 0 1 = x := by
    subst hw
    refine ⟨?_, ?_, ?_, ?_, ?_, ?_, ?_, ?_⟩ <;> simp (disch := decide) only [bits, BitVec.extractLsb'_append_eq_of_le, BitVec.extractLsb'_append_eq_of_add_le,
      BitVec.extractLsb'_eq_self, Nat.reduceSub] <;> rfl
  obtain ⟨f1, f2, g0, g1, g2, g3, g4, g5⟩ := f
  unfold decodeRow; rw [f1]; show decodeRowV w = _
  unfold decodeRowV; rw [f2]
  show (some (.vdot4 (bits w 18 5) (bits w 13 5) (bits w 8 5) (bits w 4 4) (bits w 1 3) (bits w 0 1)) : Option Instr) = some (.vdot4 d a b t m x)
  simp only [g0, g1, g2, g3, g4, g5]
theorem vdot2 (d : BitVec 5) (a : BitVec 5) (b : BitVec 5) (t : BitVec 4) (m : BitVec 3) (x : BitVec 1) : Statement (.vdot2 d a b t m x) := by
  intro _
  have hw : Instr.encodeWord (.vdot2 d a b t m x) = (0x6a#9 ++ d ++ a ++ b ++ t ++ m ++ x : BitVec (9+5+5+5+4+3+1)) := rfl
  show decodeRow (Instr.encodeWord (.vdot2 d a b t m x)) = some (.vdot2 d a b t m x)
  generalize Instr.encodeWord (.vdot2 d a b t m x) = w at hw ⊢
  have f : bits w 29 3 = 0x1#3 ∧ bits w 23 6 = 0x2a#6 ∧ bits w 18 5 = d ∧ bits w 13 5 = a ∧ bits w 8 5 = b ∧ bits w 4 4 = t ∧
      bits w 1 3 = m ∧ bits w 0 1 = x := by
    subst hw
    refine ⟨?_, ?_, ?_, ?_, ?_, ?_, ?_, ?_⟩ <;> simp (disch := decide) only [bits, BitVec.extractLsb'_append_eq_of_le, BitVec.extractLsb'_append_eq_of_add_le,
      BitVec.extractLsb'_eq_self, Nat.reduceSub] <;> rfl
  obtain ⟨f1, f2, g0, g1, g2, g3, g4, g5⟩ := f
  unfold decodeRow; rw [f1]; show decodeRowV w = _
  unfold decodeRowV; rw [f2]
  show (some (.vdot2 (bits w 18 5) (bits w 13 5) (bits w 8 5) (bits w 4 4) (bits w 1 3) (bits w 0 1)) : Option Instr) = some (.vdot2 d a b t m x)
  simp only [g0, g1, g2, g3, g4, g5]
theorem mlog (d : BitVec 3) (a : BitVec 3) (p : BitVec 2) (b : BitVec 3) (m : BitVec 3) (n : BitVec 1) : Statement (.mlog d a p b m n) := by
  intro _
  have hw : Instr.encodeWord (.mlog d a p b m n) = (0x6b#9 ++ 0x0#2 ++ d ++ 0x0#2 ++ a ++ p ++ b ++ 0x0#4 ++ m ++ n : BitVec (9+2+3+2+3+2+3+4+3+1)) := rfl
  show decodeRow (Instr.encodeWord (.mlog d a p b m n)) = some (.mlog d a p b m n)
  generalize Instr.encodeWord (.mlog d a p b m n) = w at hw ⊢
  have f : bits w 29 3 = 0x1#3 ∧ bits w 23 6 = 0x2b#6 ∧ bits w 21 2 = 0x0#2 ∧ bits w 16 2 = 0x0#2 ∧ bits w 4 4 = 0x0#4 ∧ bits w
      18 3 = d ∧ bits w 13 3 = a ∧ bits w 11 2 = p ∧ bits w 8 3 = b ∧ bits w 1 3 = m ∧ bits w 0 1 = n := by
    subst hw
    refine ⟨?_, ?_, ?_, ?_, ?_, ?_, ?_, ?_, ?_, ?_, ?_⟩ <;> simp (disch := decide) only [bits, BitVec.extractLsb'_append_eq_of_le, BitVec.extractLsb'_append_eq_of_add_le,
      BitVec.extractLsb'_eq_self, Nat.reduceSub] <;> rfl
  obtain ⟨f1, f2, g0, g1, g2, g3, g4, g5, g6, g7, g8⟩ := f
  unfold decodeRow; rw [f1]; show decodeRowV w = _
  unfold decodeRowV; rw [f2]
  show (if bits w 21 2 = 0 ∧ bits w 16 2 = 0 ∧ bits w 4 4 = 0 then some (.mlog (bits w 18 3) (bits w 13 3) (bits w 11 2) (bits w
    8 3) (bits w 1 3) (bits w 0 1)) else none : Option Instr) = some (.mlog d a p b m n)
  simp only [g0, g1, g2, g3, g4, g5, g6, g7, g8]
  rfl
theorem mpop (d : BitVec 5) (a : BitVec 3) (m : BitVec 3) : Statement (.mpop d a m) := by
  intro _
  have hw : Instr.encodeWord (.mpop d a m) = (0x6c#9 ++ d ++ 0x0#2 ++ a ++ 0x0#9 ++ m ++ 0x0#1 : BitVec (9+5+2+3+9+3+1)) := rfl
  show decodeRow (Instr.encodeWord (.mpop d a m)) = some (.mpop d a m)
  generalize Instr.encodeWord (.mpop d a m) = w at hw ⊢
  have f : bits w 29 3 = 0x1#3 ∧ bits w 23 6 = 0x2c#6 ∧ bits w 16 2 = 0x0#2 ∧ bits w 4 9 = 0x0#9 ∧ bits w 0 1 = 0x0#1 ∧ bits w 18
      5 = d ∧ bits w 13 3 = a ∧ bits w 1 3 = m := by
    subst hw
    refine ⟨?_, ?_, ?_, ?_, ?_, ?_, ?_, ?_⟩ <;> simp (disch := decide) only [bits, BitVec.extractLsb'_append_eq_of_le, BitVec.extractLsb'_append_eq_of_add_le,
      BitVec.extractLsb'_eq_self, Nat.reduceSub] <;> rfl
  obtain ⟨f1, f2, g0, g1, g2, g3, g4, g5⟩ := f
  unfold decodeRow; rw [f1]; show decodeRowV w = _
  unfold decodeRowV; rw [f2]
  show (if bits w 16 2 = 0 ∧ bits w 4 9 = 0 ∧ bits w 0 1 = 0 then some (.mpop (bits w 18 5) (bits w 13 3) (bits w 1 3)) else
    none : Option Instr) = some (.mpop d a m)
  simp only [g0, g1, g2, g3, g4, g5]
  rfl
theorem mfirst (d : BitVec 5) (a : BitVec 3) (m : BitVec 3) : Statement (.mfirst d a m) := by
  intro _
  have hw : Instr.encodeWord (.mfirst d a m) = (0x6d#9 ++ d ++ 0x0#2 ++ a ++ 0x0#9 ++ m ++ 0x0#1 : BitVec (9+5+2+3+9+3+1)) := rfl
  show decodeRow (Instr.encodeWord (.mfirst d a m)) = some (.mfirst d a m)
  generalize Instr.encodeWord (.mfirst d a m) = w at hw ⊢
  have f : bits w 29 3 = 0x1#3 ∧ bits w 23 6 = 0x2d#6 ∧ bits w 16 2 = 0x0#2 ∧ bits w 4 9 = 0x0#9 ∧ bits w 0 1 = 0x0#1 ∧ bits w 18
      5 = d ∧ bits w 13 3 = a ∧ bits w 1 3 = m := by
    subst hw
    refine ⟨?_, ?_, ?_, ?_, ?_, ?_, ?_, ?_⟩ <;> simp (disch := decide) only [bits, BitVec.extractLsb'_append_eq_of_le, BitVec.extractLsb'_append_eq_of_add_le,
      BitVec.extractLsb'_eq_self, Nat.reduceSub] <;> rfl
  obtain ⟨f1, f2, g0, g1, g2, g3, g4, g5⟩ := f
  unfold decodeRow; rw [f1]; show decodeRowV w = _
  unfold decodeRowV; rw [f2]
  show (if bits w 16 2 = 0 ∧ bits w 4 9 = 0 ∧ bits w 0 1 = 0 then some (.mfirst (bits w 18 5) (bits w 13 3) (bits w 1 3)) else
    none : Option Instr) = some (.mfirst d a m)
  simp only [g0, g1, g2, g3, g4, g5]
  rfl
theorem vtos (a : BitVec 5) (j : BitVec 5) : Statement (.vtos a j) := by
  intro _
  have hw : Instr.encodeWord (.vtos a j) = (0x6e#9 ++ 0x0#5 ++ a ++ j ++ 0x0#8 : BitVec (9+5+5+5+8)) := rfl
  show decodeRow (Instr.encodeWord (.vtos a j)) = some (.vtos a j)
  generalize Instr.encodeWord (.vtos a j) = w at hw ⊢
  have f : bits w 29 3 = 0x1#3 ∧ bits w 23 6 = 0x2e#6 ∧ bits w 18 5 = 0x0#5 ∧ bits w 0 8 = 0x0#8 ∧ bits w 13 5 = a ∧ bits w 8 5 =
      j := by
    subst hw
    refine ⟨?_, ?_, ?_, ?_, ?_, ?_⟩ <;> simp (disch := decide) only [bits, BitVec.extractLsb'_append_eq_of_le, BitVec.extractLsb'_append_eq_of_add_le,
      BitVec.extractLsb'_eq_self, Nat.reduceSub] <;> rfl
  obtain ⟨f1, f2, g0, g1, g2, g3⟩ := f
  unfold decodeRow; rw [f1]; show decodeRowV w = _
  unfold decodeRowV; rw [f2]
  show (if bits w 18 5 = 0 ∧ bits w 0 8 = 0 then some (.vtos (bits w 13 5) (bits w 8 5)) else none : Option Instr) = some (.vtos a j)
  simp only [g0, g1, g2, g3]
  rfl
theorem vtoa (a : BitVec 5) : Statement (.vtoa a) := by
  intro _
  have hw : Instr.encodeWord (.vtoa a) = (0x6f#9 ++ 0x0#5 ++ a ++ 0x0#13 : BitVec (9+5+5+13)) := rfl
  show decodeRow (Instr.encodeWord (.vtoa a)) = some (.vtoa a)
  generalize Instr.encodeWord (.vtoa a) = w at hw ⊢
  have f : bits w 29 3 = 0x1#3 ∧ bits w 23 6 = 0x2f#6 ∧ bits w 18 5 = 0x0#5 ∧ bits w 0 13 = 0x0#13 ∧ bits w 13 5 = a := by
    subst hw
    refine ⟨?_, ?_, ?_, ?_, ?_⟩ <;> simp (disch := decide) only [bits, BitVec.extractLsb'_append_eq_of_le, BitVec.extractLsb'_append_eq_of_add_le,
      BitVec.extractLsb'_eq_self, Nat.reduceSub] <;> rfl
  obtain ⟨f1, f2, g0, g1, g2⟩ := f
  unfold decodeRow; rw [f1]; show decodeRowV w = _
  unfold decodeRowV; rw [f2]
  show (if bits w 18 5 = 0 ∧ bits w 0 13 = 0 then some (.vtoa (bits w 13 5)) else none : Option Instr) = some (.vtoa a)
  simp only [g0, g1, g2]
  rfl
theorem vmov (d : BitVec 5) (a : BitVec 5) (t : BitVec 4) (m : BitVec 3) : Statement (.vmov d a t m) := by
  intro _
  have hw : Instr.encodeWord (.vmov d a t m) = (0x70#9 ++ d ++ a ++ 0x0#5 ++ t ++ m ++ 0x0#1 : BitVec (9+5+5+5+4+3+1)) := rfl
  show decodeRow (Instr.encodeWord (.vmov d a t m)) = some (.vmov d a t m)
  generalize Instr.encodeWord (.vmov d a t m) = w at hw ⊢
  have f : bits w 29 3 = 0x1#3 ∧ bits w 23 6 = 0x30#6 ∧ bits w 8 5 = 0x0#5 ∧ bits w 0 1 = 0x0#1 ∧ bits w 18 5 = d ∧ bits w 13 5 =
      a ∧ bits w 4 4 = t ∧ bits w 1 3 = m := by
    subst hw
    refine ⟨?_, ?_, ?_, ?_, ?_, ?_, ?_, ?_⟩ <;> simp (disch := decide) only [bits, BitVec.extractLsb'_append_eq_of_le, BitVec.extractLsb'_append_eq_of_add_le,
      BitVec.extractLsb'_eq_self, Nat.reduceSub] <;> rfl
  obtain ⟨f1, f2, g0, g1, g2, g3, g4, g5⟩ := f
  unfold decodeRow; rw [f1]; show decodeRowV w = _
  unfold decodeRowV; rw [f2]
  show (if bits w 8 5 = 0 ∧ bits w 0 1 = 0 then some (.vmov (bits w 18 5) (bits w 13 5) (bits w 4 4) (bits w 1 3)) else none : Option Instr) = some (.vmov d a t m)
  simp only [g0, g1, g2, g3, g4, g5]
  rfl
theorem vwait : Statement .vwait := by
  intro _
  have hw : Instr.encodeWord .vwait = (0x71#9 ++ 0x0#23 : BitVec (9+23)) := rfl
  show decodeRow (Instr.encodeWord .vwait) = some .vwait
  generalize Instr.encodeWord .vwait = w at hw ⊢
  have f : bits w 29 3 = 0x1#3 ∧ bits w 23 6 = 0x31#6 ∧ bits w 0 23 = 0x0#23 := by
    subst hw
    refine ⟨?_, ?_, ?_⟩ <;> simp (disch := decide) only [bits, BitVec.extractLsb'_append_eq_of_le, BitVec.extractLsb'_append_eq_of_add_le,
      BitVec.extractLsb'_eq_self, Nat.reduceSub] <;> rfl
  obtain ⟨f1, f2, g0⟩ := f
  unfold decodeRow; rw [f1]; show decodeRowV w = _
  unfold decodeRowV; rw [f2]
  show (if bits w 0 23 = 0 then some (.vwait) else none : Option Instr) = some .vwait
  simp only [g0]
  rfl
theorem vclass (d : BitVec 5) (a : BitVec 5) (t : BitVec 4) (m : BitVec 3) : Statement (.vclass d a t m) := by
  intro _
  have hw : Instr.encodeWord (.vclass d a t m) = (0x72#9 ++ d ++ a ++ 0x0#5 ++ t ++ m ++ 0x0#1 : BitVec (9+5+5+5+4+3+1)) := rfl
  show decodeRow (Instr.encodeWord (.vclass d a t m)) = some (.vclass d a t m)
  generalize Instr.encodeWord (.vclass d a t m) = w at hw ⊢
  have f : bits w 29 3 = 0x1#3 ∧ bits w 23 6 = 0x32#6 ∧ bits w 8 5 = 0x0#5 ∧ bits w 0 1 = 0x0#1 ∧ bits w 18 5 = d ∧ bits w 13 5 =
      a ∧ bits w 4 4 = t ∧ bits w 1 3 = m := by
    subst hw
    refine ⟨?_, ?_, ?_, ?_, ?_, ?_, ?_, ?_⟩ <;> simp (disch := decide) only [bits, BitVec.extractLsb'_append_eq_of_le, BitVec.extractLsb'_append_eq_of_add_le,
      BitVec.extractLsb'_eq_self, Nat.reduceSub] <;> rfl
  obtain ⟨f1, f2, g0, g1, g2, g3, g4, g5⟩ := f
  unfold decodeRow; rw [f1]; show decodeRowV w = _
  unfold decodeRowV; rw [f2]
  show (if bits w 8 5 = 0 ∧ bits w 0 1 = 0 then some (.vclass (bits w 18 5) (bits w 13 5) (bits w 4 4) (bits w 1 3)) else none : Option Instr) = some (.vclass d a t m)
  simp only [g0, g1, g2, g3, g4, g5]
  rfl
theorem vclz (d : BitVec 5) (a : BitVec 5) (t : BitVec 4) (m : BitVec 3) : Statement (.vclz d a t m) := by
  intro _
  have hw : Instr.encodeWord (.vclz d a t m) = (0x73#9 ++ d ++ a ++ 0x0#5 ++ t ++ m ++ 0x0#1 : BitVec (9+5+5+5+4+3+1)) := rfl
  show decodeRow (Instr.encodeWord (.vclz d a t m)) = some (.vclz d a t m)
  generalize Instr.encodeWord (.vclz d a t m) = w at hw ⊢
  have f : bits w 29 3 = 0x1#3 ∧ bits w 23 6 = 0x33#6 ∧ bits w 8 5 = 0x0#5 ∧ bits w 0 1 = 0x0#1 ∧ bits w 18 5 = d ∧ bits w 13 5 =
      a ∧ bits w 4 4 = t ∧ bits w 1 3 = m := by
    subst hw
    refine ⟨?_, ?_, ?_, ?_, ?_, ?_, ?_, ?_⟩ <;> simp (disch := decide) only [bits, BitVec.extractLsb'_append_eq_of_le, BitVec.extractLsb'_append_eq_of_add_le,
      BitVec.extractLsb'_eq_self, Nat.reduceSub] <;> rfl
  obtain ⟨f1, f2, g0, g1, g2, g3, g4, g5⟩ := f
  unfold decodeRow; rw [f1]; show decodeRowV w = _
  unfold decodeRowV; rw [f2]
  show (if bits w 8 5 = 0 ∧ bits w 0 1 = 0 then some (.vclz (bits w 18 5) (bits w 13 5) (bits w 4 4) (bits w 1 3)) else none : Option Instr) = some (.vclz d a t m)
  simp only [g0, g1, g2, g3, g4, g5]
  rfl
theorem vpopc (d : BitVec 5) (a : BitVec 5) (t : BitVec 4) (m : BitVec 3) : Statement (.vpopc d a t m) := by
  intro _
  have hw : Instr.encodeWord (.vpopc d a t m) = (0x74#9 ++ d ++ a ++ 0x0#5 ++ t ++ m ++ 0x0#1 : BitVec (9+5+5+5+4+3+1)) := rfl
  show decodeRow (Instr.encodeWord (.vpopc d a t m)) = some (.vpopc d a t m)
  generalize Instr.encodeWord (.vpopc d a t m) = w at hw ⊢
  have f : bits w 29 3 = 0x1#3 ∧ bits w 23 6 = 0x34#6 ∧ bits w 8 5 = 0x0#5 ∧ bits w 0 1 = 0x0#1 ∧ bits w 18 5 = d ∧ bits w 13 5 =
      a ∧ bits w 4 4 = t ∧ bits w 1 3 = m := by
    subst hw
    refine ⟨?_, ?_, ?_, ?_, ?_, ?_, ?_, ?_⟩ <;> simp (disch := decide) only [bits, BitVec.extractLsb'_append_eq_of_le, BitVec.extractLsb'_append_eq_of_add_le,
      BitVec.extractLsb'_eq_self, Nat.reduceSub] <;> rfl
  obtain ⟨f1, f2, g0, g1, g2, g3, g4, g5⟩ := f
  unfold decodeRow; rw [f1]; show decodeRowV w = _
  unfold decodeRowV; rw [f2]
  show (if bits w 8 5 = 0 ∧ bits w 0 1 = 0 then some (.vpopc (bits w 18 5) (bits w 13 5) (bits w 4 4) (bits w 1 3)) else none : Option Instr) = some (.vpopc d a t m)
  simp only [g0, g1, g2, g3, g4, g5]
  rfl
theorem aadd (d : BitVec 5) (a : BitVec 5) (b : BitVec 5) : Statement (.aadd d a b) := by
  intro _
  have hw : Instr.encodeWord (.aadd d a b) = (0x80#9 ++ d ++ a ++ b ++ 0x0#8 : BitVec (9+5+5+5+8)) := rfl
  show decodeRow (Instr.encodeWord (.aadd d a b)) = some (.aadd d a b)
  generalize Instr.encodeWord (.aadd d a b) = w at hw ⊢
  have f : bits w 29 3 = 0x2#3 ∧ bits w 23 6 = 0x0#6 ∧ bits w 0 8 = 0x0#8 ∧ bits w 18 5 = d ∧ bits w 13 5 = a ∧ bits w 8 5 = b := by
    subst hw
    refine ⟨?_, ?_, ?_, ?_, ?_, ?_⟩ <;> simp (disch := decide) only [bits, BitVec.extractLsb'_append_eq_of_le, BitVec.extractLsb'_append_eq_of_add_le,
      BitVec.extractLsb'_eq_self, Nat.reduceSub] <;> rfl
  obtain ⟨f1, f2, g0, g1, g2, g3⟩ := f
  unfold decodeRow; rw [f1]; show decodeRowA w = _
  unfold decodeRowA; rw [f2]
  show (if bits w 0 8 = 0 then some (.aadd (bits w 18 5) (bits w 13 5) (bits w 8 5)) else none : Option Instr) = some (.aadd d a b)
  simp only [g0, g1, g2, g3]
  rfl
theorem asub (d : BitVec 5) (a : BitVec 5) (b : BitVec 5) : Statement (.asub d a b) := by
  intro _
  have hw : Instr.encodeWord (.asub d a b) = (0x81#9 ++ d ++ a ++ b ++ 0x0#8 : BitVec (9+5+5+5+8)) := rfl
  show decodeRow (Instr.encodeWord (.asub d a b)) = some (.asub d a b)
  generalize Instr.encodeWord (.asub d a b) = w at hw ⊢
  have f : bits w 29 3 = 0x2#3 ∧ bits w 23 6 = 0x1#6 ∧ bits w 0 8 = 0x0#8 ∧ bits w 18 5 = d ∧ bits w 13 5 = a ∧ bits w 8 5 = b := by
    subst hw
    refine ⟨?_, ?_, ?_, ?_, ?_, ?_⟩ <;> simp (disch := decide) only [bits, BitVec.extractLsb'_append_eq_of_le, BitVec.extractLsb'_append_eq_of_add_le,
      BitVec.extractLsb'_eq_self, Nat.reduceSub] <;> rfl
  obtain ⟨f1, f2, g0, g1, g2, g3⟩ := f
  unfold decodeRow; rw [f1]; show decodeRowA w = _
  unfold decodeRowA; rw [f2]
  show (if bits w 0 8 = 0 then some (.asub (bits w 18 5) (bits w 13 5) (bits w 8 5)) else none : Option Instr) = some (.asub d a b)
  simp only [g0, g1, g2, g3]
  rfl
theorem amul (d : BitVec 5) (a : BitVec 5) (b : BitVec 5) : Statement (.amul d a b) := by
  intro _
  have hw : Instr.encodeWord (.amul d a b) = (0x82#9 ++ d ++ a ++ b ++ 0x0#8 : BitVec (9+5+5+5+8)) := rfl
  show decodeRow (Instr.encodeWord (.amul d a b)) = some (.amul d a b)
  generalize Instr.encodeWord (.amul d a b) = w at hw ⊢
  have f : bits w 29 3 = 0x2#3 ∧ bits w 23 6 = 0x2#6 ∧ bits w 0 8 = 0x0#8 ∧ bits w 18 5 = d ∧ bits w 13 5 = a ∧ bits w 8 5 = b := by
    subst hw
    refine ⟨?_, ?_, ?_, ?_, ?_, ?_⟩ <;> simp (disch := decide) only [bits, BitVec.extractLsb'_append_eq_of_le, BitVec.extractLsb'_append_eq_of_add_le,
      BitVec.extractLsb'_eq_self, Nat.reduceSub] <;> rfl
  obtain ⟨f1, f2, g0, g1, g2, g3⟩ := f
  unfold decodeRow; rw [f1]; show decodeRowA w = _
  unfold decodeRowA; rw [f2]
  show (if bits w 0 8 = 0 then some (.amul (bits w 18 5) (bits w 13 5) (bits w 8 5)) else none : Option Instr) = some (.amul d a b)
  simp only [g0, g1, g2, g3]
  rfl
theorem ashl (d : BitVec 5) (a : BitVec 5) (b : BitVec 5) : Statement (.ashl d a b) := by
  intro _
  have hw : Instr.encodeWord (.ashl d a b) = (0x83#9 ++ d ++ a ++ b ++ 0x0#8 : BitVec (9+5+5+5+8)) := rfl
  show decodeRow (Instr.encodeWord (.ashl d a b)) = some (.ashl d a b)
  generalize Instr.encodeWord (.ashl d a b) = w at hw ⊢
  have f : bits w 29 3 = 0x2#3 ∧ bits w 23 6 = 0x3#6 ∧ bits w 0 8 = 0x0#8 ∧ bits w 18 5 = d ∧ bits w 13 5 = a ∧ bits w 8 5 = b := by
    subst hw
    refine ⟨?_, ?_, ?_, ?_, ?_, ?_⟩ <;> simp (disch := decide) only [bits, BitVec.extractLsb'_append_eq_of_le, BitVec.extractLsb'_append_eq_of_add_le,
      BitVec.extractLsb'_eq_self, Nat.reduceSub] <;> rfl
  obtain ⟨f1, f2, g0, g1, g2, g3⟩ := f
  unfold decodeRow; rw [f1]; show decodeRowA w = _
  unfold decodeRowA; rw [f2]
  show (if bits w 0 8 = 0 then some (.ashl (bits w 18 5) (bits w 13 5) (bits w 8 5)) else none : Option Instr) = some (.ashl d a b)
  simp only [g0, g1, g2, g3]
  rfl
theorem ashr (d : BitVec 5) (a : BitVec 5) (b : BitVec 5) : Statement (.ashr d a b) := by
  intro _
  have hw : Instr.encodeWord (.ashr d a b) = (0x84#9 ++ d ++ a ++ b ++ 0x0#8 : BitVec (9+5+5+5+8)) := rfl
  show decodeRow (Instr.encodeWord (.ashr d a b)) = some (.ashr d a b)
  generalize Instr.encodeWord (.ashr d a b) = w at hw ⊢
  have f : bits w 29 3 = 0x2#3 ∧ bits w 23 6 = 0x4#6 ∧ bits w 0 8 = 0x0#8 ∧ bits w 18 5 = d ∧ bits w 13 5 = a ∧ bits w 8 5 = b := by
    subst hw
    refine ⟨?_, ?_, ?_, ?_, ?_, ?_⟩ <;> simp (disch := decide) only [bits, BitVec.extractLsb'_append_eq_of_le, BitVec.extractLsb'_append_eq_of_add_le,
      BitVec.extractLsb'_eq_self, Nat.reduceSub] <;> rfl
  obtain ⟨f1, f2, g0, g1, g2, g3⟩ := f
  unfold decodeRow; rw [f1]; show decodeRowA w = _
  unfold decodeRowA; rw [f2]
  show (if bits w 0 8 = 0 then some (.ashr (bits w 18 5) (bits w 13 5) (bits w 8 5)) else none : Option Instr) = some (.ashr d a b)
  simp only [g0, g1, g2, g3]
  rfl
theorem aand (d : BitVec 5) (a : BitVec 5) (b : BitVec 5) : Statement (.aand d a b) := by
  intro _
  have hw : Instr.encodeWord (.aand d a b) = (0x85#9 ++ d ++ a ++ b ++ 0x0#8 : BitVec (9+5+5+5+8)) := rfl
  show decodeRow (Instr.encodeWord (.aand d a b)) = some (.aand d a b)
  generalize Instr.encodeWord (.aand d a b) = w at hw ⊢
  have f : bits w 29 3 = 0x2#3 ∧ bits w 23 6 = 0x5#6 ∧ bits w 0 8 = 0x0#8 ∧ bits w 18 5 = d ∧ bits w 13 5 = a ∧ bits w 8 5 = b := by
    subst hw
    refine ⟨?_, ?_, ?_, ?_, ?_, ?_⟩ <;> simp (disch := decide) only [bits, BitVec.extractLsb'_append_eq_of_le, BitVec.extractLsb'_append_eq_of_add_le,
      BitVec.extractLsb'_eq_self, Nat.reduceSub] <;> rfl
  obtain ⟨f1, f2, g0, g1, g2, g3⟩ := f
  unfold decodeRow; rw [f1]; show decodeRowA w = _
  unfold decodeRowA; rw [f2]
  show (if bits w 0 8 = 0 then some (.aand (bits w 18 5) (bits w 13 5) (bits w 8 5)) else none : Option Instr) = some (.aand d a b)
  simp only [g0, g1, g2, g3]
  rfl
theorem aor (d : BitVec 5) (a : BitVec 5) (b : BitVec 5) : Statement (.aor d a b) := by
  intro _
  have hw : Instr.encodeWord (.aor d a b) = (0x86#9 ++ d ++ a ++ b ++ 0x0#8 : BitVec (9+5+5+5+8)) := rfl
  show decodeRow (Instr.encodeWord (.aor d a b)) = some (.aor d a b)
  generalize Instr.encodeWord (.aor d a b) = w at hw ⊢
  have f : bits w 29 3 = 0x2#3 ∧ bits w 23 6 = 0x6#6 ∧ bits w 0 8 = 0x0#8 ∧ bits w 18 5 = d ∧ bits w 13 5 = a ∧ bits w 8 5 = b := by
    subst hw
    refine ⟨?_, ?_, ?_, ?_, ?_, ?_⟩ <;> simp (disch := decide) only [bits, BitVec.extractLsb'_append_eq_of_le, BitVec.extractLsb'_append_eq_of_add_le,
      BitVec.extractLsb'_eq_self, Nat.reduceSub] <;> rfl
  obtain ⟨f1, f2, g0, g1, g2, g3⟩ := f
  unfold decodeRow; rw [f1]; show decodeRowA w = _
  unfold decodeRowA; rw [f2]
  show (if bits w 0 8 = 0 then some (.aor (bits w 18 5) (bits w 13 5) (bits w 8 5)) else none : Option Instr) = some (.aor d a b)
  simp only [g0, g1, g2, g3]
  rfl
theorem aaddi (d : BitVec 5) (a : BitVec 5) (i : BitVec 13) (p3 : Option (BitVec 29)) : Statement (.aaddi d a i p3) := by
  intro _
  have hw : Instr.encodeWord (.aaddi d a i p3) = (0x88#9 ++ d ++ a ++ i : BitVec (9+5+5+13)) := rfl
  show decodeRow (Instr.encodeWord (.aaddi d a i p3)) = some (.aaddi d a i none)
  generalize Instr.encodeWord (.aaddi d a i p3) = w at hw ⊢
  have f : bits w 29 3 = 0x2#3 ∧ bits w 23 6 = 0x8#6 ∧ bits w 18 5 = d ∧ bits w 13 5 = a ∧ bits w 0 13 = i := by
    subst hw
    refine ⟨?_, ?_, ?_, ?_, ?_⟩ <;> simp (disch := decide) only [bits, BitVec.extractLsb'_append_eq_of_le, BitVec.extractLsb'_append_eq_of_add_le,
      BitVec.extractLsb'_eq_self, Nat.reduceSub] <;> rfl
  obtain ⟨f1, f2, g0, g1, g2⟩ := f
  unfold decodeRow; rw [f1]; show decodeRowA w = _
  unfold decodeRowA; rw [f2]
  show (some (.aaddi (bits w 18 5) (bits w 13 5) (bits w 0 13) none) : Option Instr) = some (.aaddi d a i none)
  simp only [g0, g1, g2]
theorem amovi (d : BitVec 5) (i : BitVec 18) (p2 : Option (BitVec 29)) : Statement (.amovi d i p2) := by
  intro _
  have hw : Instr.encodeWord (.amovi d i p2) = (0x89#9 ++ d ++ i : BitVec (9+5+18)) := rfl
  show decodeRow (Instr.encodeWord (.amovi d i p2)) = some (.amovi d i none)
  generalize Instr.encodeWord (.amovi d i p2) = w at hw ⊢
  have f : bits w 29 3 = 0x2#3 ∧ bits w 23 6 = 0x9#6 ∧ bits w 18 5 = d ∧ bits w 0 18 = i := by
    subst hw
    refine ⟨?_, ?_, ?_, ?_⟩ <;> simp (disch := decide) only [bits, BitVec.extractLsb'_append_eq_of_le, BitVec.extractLsb'_append_eq_of_add_le,
      BitVec.extractLsb'_eq_self, Nat.reduceSub] <;> rfl
  obtain ⟨f1, f2, g0, g1⟩ := f
  unfold decodeRow; rw [f1]; show decodeRowA w = _
  unfold decodeRowA; rw [f2]
  show (some (.amovi (bits w 18 5) (bits w 0 18) none) : Option Instr) = some (.amovi d i none)
  simp only [g0, g1]
theorem amovhi (d : BitVec 5) (i : BitVec 18) (p2 : Option (BitVec 29)) : Statement (.amovhi d i p2) := by
  intro _
  have hw : Instr.encodeWord (.amovhi d i p2) = (0x8a#9 ++ d ++ i : BitVec (9+5+18)) := rfl
  show decodeRow (Instr.encodeWord (.amovhi d i p2)) = some (.amovhi d i none)
  generalize Instr.encodeWord (.amovhi d i p2) = w at hw ⊢
  have f : bits w 29 3 = 0x2#3 ∧ bits w 23 6 = 0xa#6 ∧ bits w 18 5 = d ∧ bits w 0 18 = i := by
    subst hw
    refine ⟨?_, ?_, ?_, ?_⟩ <;> simp (disch := decide) only [bits, BitVec.extractLsb'_append_eq_of_le, BitVec.extractLsb'_append_eq_of_add_le,
      BitVec.extractLsb'_eq_self, Nat.reduceSub] <;> rfl
  obtain ⟨f1, f2, g0, g1⟩ := f
  unfold decodeRow; rw [f1]; show decodeRowA w = _
  unfold decodeRowA; rw [f2]
  show (some (.amovhi (bits w 18 5) (bits w 0 18) none) : Option Instr) = some (.amovhi d i none)
  simp only [g0, g1]
theorem lds (d : BitVec 5) (a : BitVec 5) (i : BitVec 13) (p3 : Option (BitVec 29)) : Statement (.lds d a i p3) := by
  intro _
  have hw : Instr.encodeWord (.lds d a i p3) = (0x8c#9 ++ d ++ a ++ i : BitVec (9+5+5+13)) := rfl
  show decodeRow (Instr.encodeWord (.lds d a i p3)) = some (.lds d a i none)
  generalize Instr.encodeWord (.lds d a i p3) = w at hw ⊢
  have f : bits w 29 3 = 0x2#3 ∧ bits w 23 6 = 0xc#6 ∧ bits w 18 5 = d ∧ bits w 13 5 = a ∧ bits w 0 13 = i := by
    subst hw
    refine ⟨?_, ?_, ?_, ?_, ?_⟩ <;> simp (disch := decide) only [bits, BitVec.extractLsb'_append_eq_of_le, BitVec.extractLsb'_append_eq_of_add_le,
      BitVec.extractLsb'_eq_self, Nat.reduceSub] <;> rfl
  obtain ⟨f1, f2, g0, g1, g2⟩ := f
  unfold decodeRow; rw [f1]; show decodeRowA w = _
  unfold decodeRowA; rw [f2]
  show (some (.lds (bits w 18 5) (bits w 13 5) (bits w 0 13) none) : Option Instr) = some (.lds d a i none)
  simp only [g0, g1, g2]
theorem sts (d : BitVec 5) (a : BitVec 5) (i : BitVec 13) (p3 : Option (BitVec 29)) : Statement (.sts d a i p3) := by
  intro _
  have hw : Instr.encodeWord (.sts d a i p3) = (0x8d#9 ++ d ++ a ++ i : BitVec (9+5+5+13)) := rfl
  show decodeRow (Instr.encodeWord (.sts d a i p3)) = some (.sts d a i none)
  generalize Instr.encodeWord (.sts d a i p3) = w at hw ⊢
  have f : bits w 29 3 = 0x2#3 ∧ bits w 23 6 = 0xd#6 ∧ bits w 18 5 = d ∧ bits w 13 5 = a ∧ bits w 0 13 = i := by
    subst hw
    refine ⟨?_, ?_, ?_, ?_, ?_⟩ <;> simp (disch := decide) only [bits, BitVec.extractLsb'_append_eq_of_le, BitVec.extractLsb'_append_eq_of_add_le,
      BitVec.extractLsb'_eq_self, Nat.reduceSub] <;> rfl
  obtain ⟨f1, f2, g0, g1, g2⟩ := f
  unfold decodeRow; rw [f1]; show decodeRowA w = _
  unfold decodeRowA; rw [f2]
  show (some (.sts (bits w 18 5) (bits w 13 5) (bits w 0 13) none) : Option Instr) = some (.sts d a i none)
  simp only [g0, g1, g2]
theorem ldv (d : BitVec 5) (a : BitVec 5) (i : BitVec 13) (p3 : Option (BitVec 29)) : Statement (.ldv d a i p3) := by
  intro _
  have hw : Instr.encodeWord (.ldv d a i p3) = (0x8e#9 ++ d ++ a ++ i : BitVec (9+5+5+13)) := rfl
  show decodeRow (Instr.encodeWord (.ldv d a i p3)) = some (.ldv d a i none)
  generalize Instr.encodeWord (.ldv d a i p3) = w at hw ⊢
  have f : bits w 29 3 = 0x2#3 ∧ bits w 23 6 = 0xe#6 ∧ bits w 18 5 = d ∧ bits w 13 5 = a ∧ bits w 0 13 = i := by
    subst hw
    refine ⟨?_, ?_, ?_, ?_, ?_⟩ <;> simp (disch := decide) only [bits, BitVec.extractLsb'_append_eq_of_le, BitVec.extractLsb'_append_eq_of_add_le,
      BitVec.extractLsb'_eq_self, Nat.reduceSub] <;> rfl
  obtain ⟨f1, f2, g0, g1, g2⟩ := f
  unfold decodeRow; rw [f1]; show decodeRowA w = _
  unfold decodeRowA; rw [f2]
  show (some (.ldv (bits w 18 5) (bits w 13 5) (bits w 0 13) none) : Option Instr) = some (.ldv d a i none)
  simp only [g0, g1, g2]
theorem stv (a : BitVec 5) (i : BitVec 13) (p2 : Option (BitVec 29)) : Statement (.stv a i p2) := by
  intro _
  have hw : Instr.encodeWord (.stv a i p2) = (0x8f#9 ++ 0x1e#5 ++ a ++ i : BitVec (9+5+5+13)) := rfl
  show decodeRow (Instr.encodeWord (.stv a i p2)) = some (.stv a i none)
  generalize Instr.encodeWord (.stv a i p2) = w at hw ⊢
  have f : bits w 29 3 = 0x2#3 ∧ bits w 23 6 = 0xf#6 ∧ bits w 18 5 = 0x1e#5 ∧ bits w 13 5 = a ∧ bits w 0 13 = i := by
    subst hw
    refine ⟨?_, ?_, ?_, ?_, ?_⟩ <;> simp (disch := decide) only [bits, BitVec.extractLsb'_append_eq_of_le, BitVec.extractLsb'_append_eq_of_add_le,
      BitVec.extractLsb'_eq_self, Nat.reduceSub] <;> rfl
  obtain ⟨f1, f2, g0, g1, g2⟩ := f
  unfold decodeRow; rw [f1]; show decodeRowA w = _
  unfold decodeRowA; rw [f2]
  show (if bits w 18 5 = 0x1e then some (.stv (bits w 13 5) (bits w 0 13) none) else none : Option Instr) = some (.stv a i none)
  simp only [g0, g1, g2]
  rfl
theorem ldvs (d : BitVec 5) (a : BitVec 5) (b : BitVec 5) (wd_ : BitVec 1) : Statement (.ldvs d a b wd_) := by
  intro _
  have hw : Instr.encodeWord (.ldvs d a b wd_) = (0x90#9 ++ d ++ a ++ b ++ 0x0#7 ++ wd_ : BitVec (9+5+5+5+7+1)) := rfl
  show decodeRow (Instr.encodeWord (.ldvs d a b wd_)) = some (.ldvs d a b wd_)
  generalize Instr.encodeWord (.ldvs d a b wd_) = w at hw ⊢
  have f : bits w 29 3 = 0x2#3 ∧ bits w 23 6 = 0x10#6 ∧ bits w 1 7 = 0x0#7 ∧ bits w 18 5 = d ∧ bits w 13 5 = a ∧ bits w 8 5 = b ∧
      bits w 0 1 = wd_ := by
    subst hw
    refine ⟨?_, ?_, ?_, ?_, ?_, ?_, ?_⟩ <;> simp (disch := decide) only [bits, BitVec.extractLsb'_append_eq_of_le, BitVec.extractLsb'_append_eq_of_add_le,
      BitVec.extractLsb'_eq_self, Nat.reduceSub] <;> rfl
  obtain ⟨f1, f2, g0, g1, g2, g3, g4⟩ := f
  unfold decodeRow; rw [f1]; show decodeRowA w = _
  unfold decodeRowA; rw [f2]
  show (if bits w 1 7 = 0 then some (.ldvs (bits w 18 5) (bits w 13 5) (bits w 8 5) (bits w 0 1)) else none : Option Instr) = some (.ldvs d a b wd_)
  simp only [g0, g1, g2, g3, g4]
  rfl
theorem stvs (a : BitVec 5) (b : BitVec 5) (wd_ : BitVec 1) : Statement (.stvs a b wd_) := by
  intro _
  have hw : Instr.encodeWord (.stvs a b wd_) = (0x91#9 ++ 0x1e#5 ++ a ++ b ++ 0x0#7 ++ wd_ : BitVec (9+5+5+5+7+1)) := rfl
  show decodeRow (Instr.encodeWord (.stvs a b wd_)) = some (.stvs a b wd_)
  generalize Instr.encodeWord (.stvs a b wd_) = w at hw ⊢
  have f : bits w 29 3 = 0x2#3 ∧ bits w 23 6 = 0x11#6 ∧ bits w 18 5 = 0x1e#5 ∧ bits w 1 7 = 0x0#7 ∧ bits w 13 5 = a ∧ bits w 8 5
      = b ∧ bits w 0 1 = wd_ := by
    subst hw
    refine ⟨?_, ?_, ?_, ?_, ?_, ?_, ?_⟩ <;> simp (disch := decide) only [bits, BitVec.extractLsb'_append_eq_of_le, BitVec.extractLsb'_append_eq_of_add_le,
      BitVec.extractLsb'_eq_self, Nat.reduceSub] <;> rfl
  obtain ⟨f1, f2, g0, g1, g2, g3, g4⟩ := f
  unfold decodeRow; rw [f1]; show decodeRowA w = _
  unfold decodeRowA; rw [f2]
  show (if bits w 18 5 = 0x1e ∧ bits w 1 7 = 0 then some (.stvs (bits w 13 5) (bits w 8 5) (bits w 0 1)) else none : Option Instr) = some (.stvs a b wd_)
  simp only [g0, g1, g2, g3, g4]
  rfl
theorem ldg (d : BitVec 5) (a : BitVec 5) (wd_ : BitVec 1) : Statement (.ldg d a wd_) := by
  intro _
  have hw : Instr.encodeWord (.ldg d a wd_) = (0x92#9 ++ d ++ a ++ 0xe80#12 ++ wd_ : BitVec (9+5+5+12+1)) := rfl
  show decodeRow (Instr.encodeWord (.ldg d a wd_)) = some (.ldg d a wd_)
  generalize Instr.encodeWord (.ldg d a wd_) = w at hw ⊢
  have f : bits w 29 3 = 0x2#3 ∧ bits w 23 6 = 0x12#6 ∧ bits w 1 12 = 0xe80#12 ∧ bits w 18 5 = d ∧ bits w 13 5 = a ∧ bits w 0 1 =
      wd_ := by
    subst hw
    refine ⟨?_, ?_, ?_, ?_, ?_, ?_⟩ <;> simp (disch := decide) only [bits, BitVec.extractLsb'_append_eq_of_le, BitVec.extractLsb'_append_eq_of_add_le,
      BitVec.extractLsb'_eq_self, Nat.reduceSub] <;> rfl
  obtain ⟨f1, f2, g0, g1, g2, g3⟩ := f
  unfold decodeRow; rw [f1]; show decodeRowA w = _
  unfold decodeRowA; rw [f2]
  show (if bits w 1 12 = 0xe80 then some (.ldg (bits w 18 5) (bits w 13 5) (bits w 0 1)) else none : Option Instr) = some (.ldg d a wd_)
  simp only [g0, g1, g2, g3]
  rfl
theorem stg (a : BitVec 5) (wd_ : BitVec 1) : Statement (.stg a wd_) := by
  intro _
  have hw : Instr.encodeWord (.stg a wd_) = (0x93#9 ++ 0x1e#5 ++ a ++ 0xe80#12 ++ wd_ : BitVec (9+5+5+12+1)) := rfl
  show decodeRow (Instr.encodeWord (.stg a wd_)) = some (.stg a wd_)
  generalize Instr.encodeWord (.stg a wd_) = w at hw ⊢
  have f : bits w 29 3 = 0x2#3 ∧ bits w 23 6 = 0x13#6 ∧ bits w 18 5 = 0x1e#5 ∧ bits w 1 12 = 0xe80#12 ∧ bits w 13 5 = a ∧ bits w
      0 1 = wd_ := by
    subst hw
    refine ⟨?_, ?_, ?_, ?_, ?_, ?_⟩ <;> simp (disch := decide) only [bits, BitVec.extractLsb'_append_eq_of_le, BitVec.extractLsb'_append_eq_of_add_le,
      BitVec.extractLsb'_eq_self, Nat.reduceSub] <;> rfl
  obtain ⟨f1, f2, g0, g1, g2, g3⟩ := f
  unfold decodeRow; rw [f1]; show decodeRowA w = _
  unfold decodeRowA; rw [f2]
  show (if bits w 18 5 = 0x1e ∧ bits w 1 12 = 0xe80 then some (.stg (bits w 13 5) (bits w 0 1)) else none : Option Instr) = some (.stg a wd_)
  simp only [g0, g1, g2, g3]
  rfl
theorem ldt (d : BitVec 5) (a : BitVec 5) (i : BitVec 13) (p3 : Option (BitVec 29)) : Statement (.ldt d a i p3) := by
  intro _
  have hw : Instr.encodeWord (.ldt d a i p3) = (0x94#9 ++ d ++ a ++ i : BitVec (9+5+5+13)) := rfl
  show decodeRow (Instr.encodeWord (.ldt d a i p3)) = some (.ldt d a i none)
  generalize Instr.encodeWord (.ldt d a i p3) = w at hw ⊢
  have f : bits w 29 3 = 0x2#3 ∧ bits w 23 6 = 0x14#6 ∧ bits w 18 5 = d ∧ bits w 13 5 = a ∧ bits w 0 13 = i := by
    subst hw
    refine ⟨?_, ?_, ?_, ?_, ?_⟩ <;> simp (disch := decide) only [bits, BitVec.extractLsb'_append_eq_of_le, BitVec.extractLsb'_append_eq_of_add_le,
      BitVec.extractLsb'_eq_self, Nat.reduceSub] <;> rfl
  obtain ⟨f1, f2, g0, g1, g2⟩ := f
  unfold decodeRow; rw [f1]; show decodeRowA w = _
  unfold decodeRowA; rw [f2]
  show (some (.ldt (bits w 18 5) (bits w 13 5) (bits w 0 13) none) : Option Instr) = some (.ldt d a i none)
  simp only [g0, g1, g2]
theorem stt (a : BitVec 5) (i : BitVec 13) (p2 : Option (BitVec 29)) : Statement (.stt a i p2) := by
  intro _
  have hw : Instr.encodeWord (.stt a i p2) = (0x95#9 ++ 0x1e#5 ++ a ++ i : BitVec (9+5+5+13)) := rfl
  show decodeRow (Instr.encodeWord (.stt a i p2)) = some (.stt a i none)
  generalize Instr.encodeWord (.stt a i p2) = w at hw ⊢
  have f : bits w 29 3 = 0x2#3 ∧ bits w 23 6 = 0x15#6 ∧ bits w 18 5 = 0x1e#5 ∧ bits w 13 5 = a ∧ bits w 0 13 = i := by
    subst hw
    refine ⟨?_, ?_, ?_, ?_, ?_⟩ <;> simp (disch := decide) only [bits, BitVec.extractLsb'_append_eq_of_le, BitVec.extractLsb'_append_eq_of_add_le,
      BitVec.extractLsb'_eq_self, Nat.reduceSub] <;> rfl
  obtain ⟨f1, f2, g0, g1, g2⟩ := f
  unfold decodeRow; rw [f1]; show decodeRowA w = _
  unfold decodeRowA; rw [f2]
  show (if bits w 18 5 = 0x1e then some (.stt (bits w 13 5) (bits w 0 13) none) else none : Option Instr) = some (.stt a i none)
  simp only [g0, g1, g2]
  rfl
theorem kset (d : BitVec 3) (a : BitVec 5) (p : BitVec 2) : Statement (.kset d a p) := by
  intro _
  have hw : Instr.encodeWord (.kset d a p) = (0x98#9 ++ 0x0#2 ++ d ++ a ++ 0x0#11 ++ p : BitVec (9+2+3+5+11+2)) := rfl
  show decodeRow (Instr.encodeWord (.kset d a p)) = some (.kset d a p)
  generalize Instr.encodeWord (.kset d a p) = w at hw ⊢
  have f : bits w 29 3 = 0x2#3 ∧ bits w 23 6 = 0x18#6 ∧ bits w 21 2 = 0x0#2 ∧ bits w 2 11 = 0x0#11 ∧ bits w 18 3 = d ∧ bits w 13
      5 = a ∧ bits w 0 2 = p := by
    subst hw
    refine ⟨?_, ?_, ?_, ?_, ?_, ?_, ?_⟩ <;> simp (disch := decide) only [bits, BitVec.extractLsb'_append_eq_of_le, BitVec.extractLsb'_append_eq_of_add_le,
      BitVec.extractLsb'_eq_self, Nat.reduceSub] <;> rfl
  obtain ⟨f1, f2, g0, g1, g2, g3, g4⟩ := f
  unfold decodeRow; rw [f1]; show decodeRowA w = _
  unfold decodeRowA; rw [f2]
  show (if bits w 21 2 = 0 ∧ bits w 2 11 = 0 then some (.kset (bits w 18 3) (bits w 13 5) (bits w 0 2)) else none : Option Instr) = some (.kset d a p)
  simp only [g0, g1, g2, g3, g4]
  rfl
theorem kadd (d : BitVec 3) (a : BitVec 3) (b : BitVec 3) : Statement (.kadd d a b) := by
  intro _
  have hw : Instr.encodeWord (.kadd d a b) = (0x99#9 ++ 0x0#2 ++ d ++ 0x0#2 ++ a ++ 0x0#2 ++ b ++ 0x0#8 : BitVec (9+2+3+2+3+2+3+8)) := rfl
  show decodeRow (Instr.encodeWord (.kadd d a b)) = some (.kadd d a b)
  generalize Instr.encodeWord (.kadd d a b) = w at hw ⊢
  have f : bits w 29 3 = 0x2#3 ∧ bits w 23 6 = 0x19#6 ∧ bits w 21 2 = 0x0#2 ∧ bits w 16 2 = 0x0#2 ∧ bits w 11 2 = 0x0#2 ∧ bits w
      0 8 = 0x0#8 ∧ bits w 18 3 = d ∧ bits w 13 3 = a ∧ bits w 8 3 = b := by
    subst hw
    refine ⟨?_, ?_, ?_, ?_, ?_, ?_, ?_, ?_, ?_⟩ <;> simp (disch := decide) only [bits, BitVec.extractLsb'_append_eq_of_le, BitVec.extractLsb'_append_eq_of_add_le,
      BitVec.extractLsb'_eq_self, Nat.reduceSub] <;> rfl
  obtain ⟨f1, f2, g0, g1, g2, g3, g4, g5, g6⟩ := f
  unfold decodeRow; rw [f1]; show decodeRowA w = _
  unfold decodeRowA; rw [f2]
  show (if bits w 21 2 = 0 ∧ bits w 16 2 = 0 ∧ bits w 11 2 = 0 ∧ bits w 0 8 = 0 then some (.kadd (bits w 18 3) (bits w 13 3)
    (bits w 8 3)) else none : Option Instr) = some (.kadd d a b)
  simp only [g0, g1, g2, g3, g4, g5, g6]
  rfl
theorem kaddi (d : BitVec 3) (a : BitVec 3) (e : BitVec 10) (j : BitVec 3) (p4 : Option (BitVec 29)) : Statement (.kaddi d a e j p4) := by
  intro _
  have hw : Instr.encodeWord (.kaddi d a e j p4) = (0x9a#9 ++ 0x0#2 ++ d ++ 0x0#2 ++ a ++ e ++ j : BitVec (9+2+3+2+3+10+3)) := rfl
  show decodeRow (Instr.encodeWord (.kaddi d a e j p4)) = some (.kaddi d a e j none)
  generalize Instr.encodeWord (.kaddi d a e j p4) = w at hw ⊢
  have f : bits w 29 3 = 0x2#3 ∧ bits w 23 6 = 0x1a#6 ∧ bits w 21 2 = 0x0#2 ∧ bits w 16 2 = 0x0#2 ∧ bits w 18 3 = d ∧ bits w 13 3
      = a ∧ bits w 3 10 = e ∧ bits w 0 3 = j := by
    subst hw
    refine ⟨?_, ?_, ?_, ?_, ?_, ?_, ?_, ?_⟩ <;> simp (disch := decide) only [bits, BitVec.extractLsb'_append_eq_of_le, BitVec.extractLsb'_append_eq_of_add_le,
      BitVec.extractLsb'_eq_self, Nat.reduceSub] <;> rfl
  obtain ⟨f1, f2, g0, g1, g2, g3, g4, g5⟩ := f
  unfold decodeRow; rw [f1]; show decodeRowA w = _
  unfold decodeRowA; rw [f2]
  show (if bits w 21 2 = 0 ∧ bits w 16 2 = 0 then some (.kaddi (bits w 18 3) (bits w 13 3) (bits w 3 10) (bits w 0 3) none) else
    none : Option Instr) = some (.kaddi d a e j none)
  simp only [g0, g1, g2, g3, g4, g5]
  rfl
theorem kclr (d : BitVec 3) : Statement (.kclr d) := by
  intro _
  have hw : Instr.encodeWord (.kclr d) = (0x9b#9 ++ 0x0#2 ++ d ++ 0x0#18 : BitVec (9+2+3+18)) := rfl
  show decodeRow (Instr.encodeWord (.kclr d)) = some (.kclr d)
  generalize Instr.encodeWord (.kclr d) = w at hw ⊢
  have f : bits w 29 3 = 0x2#3 ∧ bits w 23 6 = 0x1b#6 ∧ bits w 21 2 = 0x0#2 ∧ bits w 0 18 = 0x0#18 ∧ bits w 18 3 = d := by
    subst hw
    refine ⟨?_, ?_, ?_, ?_, ?_⟩ <;> simp (disch := decide) only [bits, BitVec.extractLsb'_append_eq_of_le, BitVec.extractLsb'_append_eq_of_add_le,
      BitVec.extractLsb'_eq_self, Nat.reduceSub] <;> rfl
  obtain ⟨f1, f2, g0, g1, g2⟩ := f
  unfold decodeRow; rw [f1]; show decodeRowA w = _
  unfold decodeRowA; rw [f2]
  show (if bits w 21 2 = 0 ∧ bits w 0 18 = 0 then some (.kclr (bits w 18 3)) else none : Option Instr) = some (.kclr d)
  simp only [g0, g1, g2]
  rfl
theorem tld (d : BitVec 5) (a : BitVec 5) (k : BitVec 3) (x : BitVec 1) (n : BitVec 2) : Statement (.tld d a k x n) := by
  intro _
  have hw : Instr.encodeWord (.tld d a k x n) = (0x9c#9 ++ d ++ a ++ 0x0#2 ++ k ++ 0x0#5 ++ x ++ n : BitVec (9+5+5+2+3+5+1+2)) := rfl
  show decodeRow (Instr.encodeWord (.tld d a k x n)) = some (.tld d a k x n)
  generalize Instr.encodeWord (.tld d a k x n) = w at hw ⊢
  have f : bits w 29 3 = 0x2#3 ∧ bits w 23 6 = 0x1c#6 ∧ bits w 11 2 = 0x0#2 ∧ bits w 3 5 = 0x0#5 ∧ bits w 18 5 = d ∧ bits w 13 5
      = a ∧ bits w 8 3 = k ∧ bits w 2 1 = x ∧ bits w 0 2 = n := by
    subst hw
    refine ⟨?_, ?_, ?_, ?_, ?_, ?_, ?_, ?_, ?_⟩ <;> simp (disch := decide) only [bits, BitVec.extractLsb'_append_eq_of_le, BitVec.extractLsb'_append_eq_of_add_le,
      BitVec.extractLsb'_eq_self, Nat.reduceSub] <;> rfl
  obtain ⟨f1, f2, g0, g1, g2, g3, g4, g5, g6⟩ := f
  unfold decodeRow; rw [f1]; show decodeRowA w = _
  unfold decodeRowA; rw [f2]
  show (if bits w 11 2 = 0 ∧ bits w 3 5 = 0 then some (.tld (bits w 18 5) (bits w 13 5) (bits w 8 3) (bits w 2 1) (bits w 0 2))
    else none : Option Instr) = some (.tld d a k x n)
  simp only [g0, g1, g2, g3, g4, g5, g6]
  rfl
theorem tst (d : BitVec 5) (a : BitVec 5) (k : BitVec 3) (s : BitVec 3) (n : BitVec 2) : Statement (.tst d a k s n) := by
  intro _
  have hw : Instr.encodeWord (.tst d a k s n) = (0x9d#9 ++ d ++ a ++ 0x0#2 ++ k ++ s ++ 0x0#3 ++ n : BitVec (9+5+5+2+3+3+3+2)) := rfl
  show decodeRow (Instr.encodeWord (.tst d a k s n)) = some (.tst d a k s n)
  generalize Instr.encodeWord (.tst d a k s n) = w at hw ⊢
  have f : bits w 29 3 = 0x2#3 ∧ bits w 23 6 = 0x1d#6 ∧ bits w 11 2 = 0x0#2 ∧ bits w 2 3 = 0x0#3 ∧ bits w 18 5 = d ∧ bits w 13 5
      = a ∧ bits w 8 3 = k ∧ bits w 5 3 = s ∧ bits w 0 2 = n := by
    subst hw
    refine ⟨?_, ?_, ?_, ?_, ?_, ?_, ?_, ?_, ?_⟩ <;> simp (disch := decide) only [bits, BitVec.extractLsb'_append_eq_of_le, BitVec.extractLsb'_append_eq_of_add_le,
      BitVec.extractLsb'_eq_self, Nat.reduceSub] <;> rfl
  obtain ⟨f1, f2, g0, g1, g2, g3, g4, g5, g6⟩ := f
  unfold decodeRow; rw [f1]; show decodeRowA w = _
  unfold decodeRowA; rw [f2]
  show (if bits w 11 2 = 0 ∧ bits w 2 3 = 0 then some (.tst (bits w 18 5) (bits w 13 5) (bits w 8 3) (bits w 5 3) (bits w 0 2))
    else none : Option Instr) = some (.tst d a k s n)
  simp only [g0, g1, g2, g3, g4, g5, g6]
  rfl
theorem tldv (d : BitVec 5) (a : BitVec 5) (k : BitVec 3) : Statement (.tldv d a k) := by
  intro _
  have hw : Instr.encodeWord (.tldv d a k) = (0x9e#9 ++ d ++ a ++ 0x0#2 ++ k ++ 0x0#8 : BitVec (9+5+5+2+3+8)) := rfl
  show decodeRow (Instr.encodeWord (.tldv d a k)) = some (.tldv d a k)
  generalize Instr.encodeWord (.tldv d a k) = w at hw ⊢
  have f : bits w 29 3 = 0x2#3 ∧ bits w 23 6 = 0x1e#6 ∧ bits w 11 2 = 0x0#2 ∧ bits w 0 8 = 0x0#8 ∧ bits w 18 5 = d ∧ bits w 13 5
      = a ∧ bits w 8 3 = k := by
    subst hw
    refine ⟨?_, ?_, ?_, ?_, ?_, ?_, ?_⟩ <;> simp (disch := decide) only [bits, BitVec.extractLsb'_append_eq_of_le, BitVec.extractLsb'_append_eq_of_add_le,
      BitVec.extractLsb'_eq_self, Nat.reduceSub] <;> rfl
  obtain ⟨f1, f2, g0, g1, g2, g3, g4⟩ := f
  unfold decodeRow; rw [f1]; show decodeRowA w = _
  unfold decodeRowA; rw [f2]
  show (if bits w 11 2 = 0 ∧ bits w 0 8 = 0 then some (.tldv (bits w 18 5) (bits w 13 5) (bits w 8 3)) else none : Option Instr) = some (.tldv d a k)
  simp only [g0, g1, g2, g3, g4]
  rfl
theorem tstv (a : BitVec 5) (k : BitVec 3) (s : BitVec 3) : Statement (.tstv a k s) := by
  intro _
  have hw : Instr.encodeWord (.tstv a k s) = (0x9f#9 ++ 0x1e#5 ++ a ++ 0x0#2 ++ k ++ s ++ 0x0#5 : BitVec (9+5+5+2+3+3+5)) := rfl
  show decodeRow (Instr.encodeWord (.tstv a k s)) = some (.tstv a k s)
  generalize Instr.encodeWord (.tstv a k s) = w at hw ⊢
  have f : bits w 29 3 = 0x2#3 ∧ bits w 23 6 = 0x1f#6 ∧ bits w 18 5 = 0x1e#5 ∧ bits w 11 2 = 0x0#2 ∧ bits w 0 5 = 0x0#5 ∧ bits w
      13 5 = a ∧ bits w 8 3 = k ∧ bits w 5 3 = s := by
    subst hw
    refine ⟨?_, ?_, ?_, ?_, ?_, ?_, ?_, ?_⟩ <;> simp (disch := decide) only [bits, BitVec.extractLsb'_append_eq_of_le, BitVec.extractLsb'_append_eq_of_add_le,
      BitVec.extractLsb'_eq_self, Nat.reduceSub] <;> rfl
  obtain ⟨f1, f2, g0, g1, g2, g3, g4, g5⟩ := f
  unfold decodeRow; rw [f1]; show decodeRowA w = _
  unfold decodeRowA; rw [f2]
  show (if bits w 18 5 = 0x1e ∧ bits w 11 2 = 0 ∧ bits w 0 5 = 0 then some (.tstv (bits w 13 5) (bits w 8 3) (bits w 5 3)) else
    none : Option Instr) = some (.tstv a k s)
  simp only [g0, g1, g2, g3, g4, g5]
  rfl
theorem tldg (d : BitVec 5) (a : BitVec 5) (k : BitVec 3) (j : BitVec 3) : Statement (.tldg d a k j) := by
  intro _
  have hw : Instr.encodeWord (.tldg d a k j) = (0xa0#9 ++ d ++ a ++ 0x0#2 ++ k ++ 0x0#5 ++ j : BitVec (9+5+5+2+3+5+3)) := rfl
  show decodeRow (Instr.encodeWord (.tldg d a k j)) = some (.tldg d a k j)
  generalize Instr.encodeWord (.tldg d a k j) = w at hw ⊢
  have f : bits w 29 3 = 0x2#3 ∧ bits w 23 6 = 0x20#6 ∧ bits w 11 2 = 0x0#2 ∧ bits w 3 5 = 0x0#5 ∧ bits w 18 5 = d ∧ bits w 13 5
      = a ∧ bits w 8 3 = k ∧ bits w 0 3 = j := by
    subst hw
    refine ⟨?_, ?_, ?_, ?_, ?_, ?_, ?_, ?_⟩ <;> simp (disch := decide) only [bits, BitVec.extractLsb'_append_eq_of_le, BitVec.extractLsb'_append_eq_of_add_le,
      BitVec.extractLsb'_eq_self, Nat.reduceSub] <;> rfl
  obtain ⟨f1, f2, g0, g1, g2, g3, g4, g5⟩ := f
  unfold decodeRow; rw [f1]; show decodeRowA w = _
  unfold decodeRowA; rw [f2]
  show (if bits w 11 2 = 0 ∧ bits w 3 5 = 0 then some (.tldg (bits w 18 5) (bits w 13 5) (bits w 8 3) (bits w 0 3)) else none : Option Instr) = some (.tldg d a k j)
  simp only [g0, g1, g2, g3, g4, g5]
  rfl
theorem tstg (a : BitVec 5) (k : BitVec 3) (s : BitVec 3) (j : BitVec 3) : Statement (.tstg a k s j) := by
  intro _
  have hw : Instr.encodeWord (.tstg a k s j) = (0xa1#9 ++ 0x1e#5 ++ a ++ 0x0#2 ++ k ++ s ++ 0x0#2 ++ j : BitVec (9+5+5+2+3+3+2+3)) := rfl
  show decodeRow (Instr.encodeWord (.tstg a k s j)) = some (.tstg a k s j)
  generalize Instr.encodeWord (.tstg a k s j) = w at hw ⊢
  have f : bits w 29 3 = 0x2#3 ∧ bits w 23 6 = 0x21#6 ∧ bits w 18 5 = 0x1e#5 ∧ bits w 11 2 = 0x0#2 ∧ bits w 3 2 = 0x0#2 ∧ bits w
      13 5 = a ∧ bits w 8 3 = k ∧ bits w 5 3 = s ∧ bits w 0 3 = j := by
    subst hw
    refine ⟨?_, ?_, ?_, ?_, ?_, ?_, ?_, ?_, ?_⟩ <;> simp (disch := decide) only [bits, BitVec.extractLsb'_append_eq_of_le, BitVec.extractLsb'_append_eq_of_add_le,
      BitVec.extractLsb'_eq_self, Nat.reduceSub] <;> rfl
  obtain ⟨f1, f2, g0, g1, g2, g3, g4, g5, g6⟩ := f
  unfold decodeRow; rw [f1]; show decodeRowA w = _
  unfold decodeRowA; rw [f2]
  show (if bits w 18 5 = 0x1e ∧ bits w 11 2 = 0 ∧ bits w 3 2 = 0 then some (.tstg (bits w 13 5) (bits w 8 3) (bits w 5 3) (bits
    w 0 3)) else none : Option Instr) = some (.tstg a k s j)
  simp only [g0, g1, g2, g3, g4, g5, g6]
  rfl
theorem tpf (a : BitVec 5) (k : BitVec 3) (p : BitVec 1) : Statement (.tpf a k p) := by
  intro _
  have hw : Instr.encodeWord (.tpf a k p) = (0xa2#9 ++ 0x0#5 ++ a ++ 0x0#2 ++ k ++ 0x0#7 ++ p : BitVec (9+5+5+2+3+7+1)) := rfl
  show decodeRow (Instr.encodeWord (.tpf a k p)) = some (.tpf a k p)
  generalize Instr.encodeWord (.tpf a k p) = w at hw ⊢
  have f : bits w 29 3 = 0x2#3 ∧ bits w 23 6 = 0x22#6 ∧ bits w 18 5 = 0x0#5 ∧ bits w 11 2 = 0x0#2 ∧ bits w 1 7 = 0x0#7 ∧ bits w
      13 5 = a ∧ bits w 8 3 = k ∧ bits w 0 1 = p := by
    subst hw
    refine ⟨?_, ?_, ?_, ?_, ?_, ?_, ?_, ?_⟩ <;> simp (disch := decide) only [bits, BitVec.extractLsb'_append_eq_of_le, BitVec.extractLsb'_append_eq_of_add_le,
      BitVec.extractLsb'_eq_self, Nat.reduceSub] <;> rfl
  obtain ⟨f1, f2, g0, g1, g2, g3, g4, g5⟩ := f
  unfold decodeRow; rw [f1]; show decodeRowA w = _
  unfold decodeRowA; rw [f2]
  show (if bits w 18 5 = 0 ∧ bits w 11 2 = 0 ∧ bits w 1 7 = 0 then some (.tpf (bits w 13 5) (bits w 8 3) (bits w 0 1)) else none : Option Instr) = some (.tpf a k p)
  simp only [g0, g1, g2, g3, g4, g5]
  rfl
theorem ttreg (a : BitVec 5) (t : BitVec 8) : Statement (.ttreg a t) := by
  intro _
  have hw : Instr.encodeWord (.ttreg a t) = (0xa8#9 ++ 0x0#5 ++ a ++ 0x0#5 ++ t : BitVec (9+5+5+5+8)) := rfl
  show decodeRow (Instr.encodeWord (.ttreg a t)) = some (.ttreg a t)
  generalize Instr.encodeWord (.ttreg a t) = w at hw ⊢
  have f : bits w 29 3 = 0x2#3 ∧ bits w 23 6 = 0x28#6 ∧ bits w 18 5 = 0x0#5 ∧ bits w 8 5 = 0x0#5 ∧ bits w 13 5 = a ∧ bits w 0 8 =
      t := by
    subst hw
    refine ⟨?_, ?_, ?_, ?_, ?_, ?_⟩ <;> simp (disch := decide) only [bits, BitVec.extractLsb'_append_eq_of_le, BitVec.extractLsb'_append_eq_of_add_le,
      BitVec.extractLsb'_eq_self, Nat.reduceSub] <;> rfl
  obtain ⟨f1, f2, g0, g1, g2, g3⟩ := f
  unfold decodeRow; rw [f1]; show decodeRowA w = _
  unfold decodeRowA; rw [f2]
  show (if bits w 18 5 = 0 ∧ bits w 8 5 = 0 then some (.ttreg (bits w 13 5) (bits w 0 8)) else none : Option Instr) = some (.ttreg a t)
  simp only [g0, g1, g2, g3]
  rfl
theorem ttrel (t : BitVec 8) : Statement (.ttrel t) := by
  intro _
  have hw : Instr.encodeWord (.ttrel t) = (0xa9#9 ++ 0x0#15 ++ t : BitVec (9+15+8)) := rfl
  show decodeRow (Instr.encodeWord (.ttrel t)) = some (.ttrel t)
  generalize Instr.encodeWord (.ttrel t) = w at hw ⊢
  have f : bits w 29 3 = 0x2#3 ∧ bits w 23 6 = 0x29#6 ∧ bits w 8 15 = 0x0#15 ∧ bits w 0 8 = t := by
    subst hw
    refine ⟨?_, ?_, ?_, ?_⟩ <;> simp (disch := decide) only [bits, BitVec.extractLsb'_append_eq_of_le, BitVec.extractLsb'_append_eq_of_add_le,
      BitVec.extractLsb'_eq_self, Nat.reduceSub] <;> rfl
  obtain ⟨f1, f2, g0, g1⟩ := f
  unfold decodeRow; rw [f1]; show decodeRowA w = _
  unfold decodeRowA; rw [f2]
  show (if bits w 8 15 = 0 then some (.ttrel (bits w 0 8)) else none : Option Instr) = some (.ttrel t)
  simp only [g0, g1]
  rfl
theorem ttstat (d : BitVec 5) (t : BitVec 8) : Statement (.ttstat d t) := by
  intro _
  have hw : Instr.encodeWord (.ttstat d t) = (0xaa#9 ++ d ++ 0x0#10 ++ t : BitVec (9+5+10+8)) := rfl
  show decodeRow (Instr.encodeWord (.ttstat d t)) = some (.ttstat d t)
  generalize Instr.encodeWord (.ttstat d t) = w at hw ⊢
  have f : bits w 29 3 = 0x2#3 ∧ bits w 23 6 = 0x2a#6 ∧ bits w 8 10 = 0x0#10 ∧ bits w 18 5 = d ∧ bits w 0 8 = t := by
    subst hw
    refine ⟨?_, ?_, ?_, ?_, ?_⟩ <;> simp (disch := decide) only [bits, BitVec.extractLsb'_append_eq_of_le, BitVec.extractLsb'_append_eq_of_add_le,
      BitVec.extractLsb'_eq_self, Nat.reduceSub] <;> rfl
  obtain ⟨f1, f2, g0, g1, g2⟩ := f
  unfold decodeRow; rw [f1]; show decodeRowA w = _
  unfold decodeRowA; rw [f2]
  show (if bits w 8 10 = 0 then some (.ttstat (bits w 18 5) (bits w 0 8)) else none : Option Instr) = some (.ttstat d t)
  simp only [g0, g1, g2]
  rfl
theorem binit (d : BitVec 5) (a : BitVec 5) (i : BitVec 10) : Statement (.binit d a i) := by
  intro _
  have hw : Instr.encodeWord (.binit d a i) = (0x140#9 ++ d ++ a ++ 0x0#3 ++ i : BitVec (9+5+5+3+10)) := rfl
  show decodeRow (Instr.encodeWord (.binit d a i)) = some (.binit d a i)
  generalize Instr.encodeWord (.binit d a i) = w at hw ⊢
  have f : bits w 29 3 = 0x5#3 ∧ bits w 23 6 = 0x0#6 ∧ bits w 10 3 = 0x0#3 ∧ bits w 18 5 = d ∧ bits w 13 5 = a ∧ bits w 0 10 = i := by
    subst hw
    refine ⟨?_, ?_, ?_, ?_, ?_, ?_⟩ <;> simp (disch := decide) only [bits, BitVec.extractLsb'_append_eq_of_le, BitVec.extractLsb'_append_eq_of_add_le,
      BitVec.extractLsb'_eq_self, Nat.reduceSub] <;> rfl
  obtain ⟨f1, f2, g0, g1, g2, g3⟩ := f
  unfold decodeRow; rw [f1]; show decodeRowY w = _
  unfold decodeRowY; rw [f2]
  show (if bits w 10 3 = 0 then some (.binit (bits w 18 5) (bits w 13 5) (bits w 0 10)) else none : Option Instr) = some (.binit d a i)
  simp only [g0, g1, g2, g3]
  rfl
theorem breg (a : BitVec 5) (i : BitVec 10) : Statement (.breg a i) := by
  intro _
  have hw : Instr.encodeWord (.breg a i) = (0x141#9 ++ 0x0#5 ++ a ++ 0x0#3 ++ i : BitVec (9+5+5+3+10)) := rfl
  show decodeRow (Instr.encodeWord (.breg a i)) = some (.breg a i)
  generalize Instr.encodeWord (.breg a i) = w at hw ⊢
  have f : bits w 29 3 = 0x5#3 ∧ bits w 23 6 = 0x1#6 ∧ bits w 18 5 = 0x0#5 ∧ bits w 10 3 = 0x0#3 ∧ bits w 13 5 = a ∧ bits w 0 10
      = i := by
    subst hw
    refine ⟨?_, ?_, ?_, ?_, ?_, ?_⟩ <;> simp (disch := decide) only [bits, BitVec.extractLsb'_append_eq_of_le, BitVec.extractLsb'_append_eq_of_add_le,
      BitVec.extractLsb'_eq_self, Nat.reduceSub] <;> rfl
  obtain ⟨f1, f2, g0, g1, g2, g3⟩ := f
  unfold decodeRow; rw [f1]; show decodeRowY w = _
  unfold decodeRowY; rw [f2]
  show (if bits w 18 5 = 0 ∧ bits w 10 3 = 0 then some (.breg (bits w 13 5) (bits w 0 10)) else none : Option Instr) = some (.breg a i)
  simp only [g0, g1, g2, g3]
  rfl
theorem barv (d : BitVec 5) (a : BitVec 5) (s : BitVec 3) (i : BitVec 10) : Statement (.barv d a s i) := by
  intro _
  have hw : Instr.encodeWord (.barv d a s i) = (0x142#9 ++ d ++ a ++ s ++ i : BitVec (9+5+5+3+10)) := rfl
  show decodeRow (Instr.encodeWord (.barv d a s i)) = some (.barv d a s i)
  generalize Instr.encodeWord (.barv d a s i) = w at hw ⊢
  have f : bits w 29 3 = 0x5#3 ∧ bits w 23 6 = 0x2#6 ∧ bits w 18 5 = d ∧ bits w 13 5 = a ∧ bits w 10 3 = s ∧ bits w 0 10 = i := by
    subst hw
    refine ⟨?_, ?_, ?_, ?_, ?_, ?_⟩ <;> simp (disch := decide) only [bits, BitVec.extractLsb'_append_eq_of_le, BitVec.extractLsb'_append_eq_of_add_le,
      BitVec.extractLsb'_eq_self, Nat.reduceSub] <;> rfl
  obtain ⟨f1, f2, g0, g1, g2, g3⟩ := f
  unfold decodeRow; rw [f1]; show decodeRowY w = _
  unfold decodeRowY; rw [f2]
  show (some (.barv (bits w 18 5) (bits w 13 5) (bits w 10 3) (bits w 0 10)) : Option Instr) = some (.barv d a s i)
  simp only [g0, g1, g2, g3]
theorem bard (d : BitVec 5) (a : BitVec 5) (s : BitVec 3) (i : BitVec 10) : Statement (.bard d a s i) := by
  intro _
  have hw : Instr.encodeWord (.bard d a s i) = (0x143#9 ++ d ++ a ++ s ++ i : BitVec (9+5+5+3+10)) := rfl
  show decodeRow (Instr.encodeWord (.bard d a s i)) = some (.bard d a s i)
  generalize Instr.encodeWord (.bard d a s i) = w at hw ⊢
  have f : bits w 29 3 = 0x5#3 ∧ bits w 23 6 = 0x3#6 ∧ bits w 18 5 = d ∧ bits w 13 5 = a ∧ bits w 10 3 = s ∧ bits w 0 10 = i := by
    subst hw
    refine ⟨?_, ?_, ?_, ?_, ?_, ?_⟩ <;> simp (disch := decide) only [bits, BitVec.extractLsb'_append_eq_of_le, BitVec.extractLsb'_append_eq_of_add_le,
      BitVec.extractLsb'_eq_self, Nat.reduceSub] <;> rfl
  obtain ⟨f1, f2, g0, g1, g2, g3⟩ := f
  unfold decodeRow; rw [f1]; show decodeRowY w = _
  unfold decodeRowY; rw [f2]
  show (some (.bard (bits w 18 5) (bits w 13 5) (bits w 10 3) (bits w 0 10)) : Option Instr) = some (.bard d a s i)
  simp only [g0, g1, g2, g3]
theorem bexp (d : BitVec 5) (a : BitVec 5) (b : BitVec 5) (s : BitVec 3) (v : BitVec 1) : Statement (.bexp d a b s v) := by
  intro _
  have hw : Instr.encodeWord (.bexp d a b s v) = (0x144#9 ++ d ++ a ++ b ++ s ++ v ++ 0x0#4 : BitVec (9+5+5+5+3+1+4)) := rfl
  show decodeRow (Instr.encodeWord (.bexp d a b s v)) = some (.bexp d a b s v)
  generalize Instr.encodeWord (.bexp d a b s v) = w at hw ⊢
  have f : bits w 29 3 = 0x5#3 ∧ bits w 23 6 = 0x4#6 ∧ bits w 0 4 = 0x0#4 ∧ bits w 18 5 = d ∧ bits w 13 5 = a ∧ bits w 8 5 = b ∧
      bits w 5 3 = s ∧ bits w 4 1 = v := by
    subst hw
    refine ⟨?_, ?_, ?_, ?_, ?_, ?_, ?_, ?_⟩ <;> simp (disch := decide) only [bits, BitVec.extractLsb'_append_eq_of_le, BitVec.extractLsb'_append_eq_of_add_le,
      BitVec.extractLsb'_eq_self, Nat.reduceSub] <;> rfl
  obtain ⟨f1, f2, g0, g1, g2, g3, g4, g5⟩ := f
  unfold decodeRow; rw [f1]; show decodeRowY w = _
  unfold decodeRowY; rw [f2]
  show (if bits w 0 4 = 0 then some (.bexp (bits w 18 5) (bits w 13 5) (bits w 8 5) (bits w 5 3) (bits w 4 1)) else none : Option Instr) = some (.bexp d a b s v)
  simp only [g0, g1, g2, g3, g4, g5]
  rfl
theorem bwait (d : BitVec 5) (a : BitVec 5) (s : BitVec 3) (i : BitVec 10) : Statement (.bwait d a s i) := by
  intro _
  have hw : Instr.encodeWord (.bwait d a s i) = (0x145#9 ++ d ++ a ++ s ++ i : BitVec (9+5+5+3+10)) := rfl
  show decodeRow (Instr.encodeWord (.bwait d a s i)) = some (.bwait d a s i)
  generalize Instr.encodeWord (.bwait d a s i) = w at hw ⊢
  have f : bits w 29 3 = 0x5#3 ∧ bits w 23 6 = 0x5#6 ∧ bits w 18 5 = d ∧ bits w 13 5 = a ∧ bits w 10 3 = s ∧ bits w 0 10 = i := by
    subst hw
    refine ⟨?_, ?_, ?_, ?_, ?_, ?_⟩ <;> simp (disch := decide) only [bits, BitVec.extractLsb'_append_eq_of_le, BitVec.extractLsb'_append_eq_of_add_le,
      BitVec.extractLsb'_eq_self, Nat.reduceSub] <;> rfl
  obtain ⟨f1, f2, g0, g1, g2, g3⟩ := f
  unfold decodeRow; rw [f1]; show decodeRowY w = _
  unfold decodeRowY; rw [f2]
  show (some (.bwait (bits w 18 5) (bits w 13 5) (bits w 10 3) (bits w 0 10)) : Option Instr) = some (.bwait d a s i)
  simp only [g0, g1, g2, g3]
theorem btest (d : BitVec 5) (a : BitVec 5) (s : BitVec 3) (i : BitVec 10) : Statement (.btest d a s i) := by
  intro _
  have hw : Instr.encodeWord (.btest d a s i) = (0x146#9 ++ d ++ a ++ s ++ i : BitVec (9+5+5+3+10)) := rfl
  show decodeRow (Instr.encodeWord (.btest d a s i)) = some (.btest d a s i)
  generalize Instr.encodeWord (.btest d a s i) = w at hw ⊢
  have f : bits w 29 3 = 0x5#3 ∧ bits w 23 6 = 0x6#6 ∧ bits w 18 5 = d ∧ bits w 13 5 = a ∧ bits w 10 3 = s ∧ bits w 0 10 = i := by
    subst hw
    refine ⟨?_, ?_, ?_, ?_, ?_, ?_⟩ <;> simp (disch := decide) only [bits, BitVec.extractLsb'_append_eq_of_le, BitVec.extractLsb'_append_eq_of_add_le,
      BitVec.extractLsb'_eq_self, Nat.reduceSub] <;> rfl
  obtain ⟨f1, f2, g0, g1, g2, g3⟩ := f
  unfold decodeRow; rw [f1]; show decodeRowY w = _
  unfold decodeRowY; rw [f2]
  show (some (.btest (bits w 18 5) (bits w 13 5) (bits w 10 3) (bits w 0 10)) : Option Instr) = some (.btest d a s i)
  simp only [g0, g1, g2, g3]
theorem ldf (d : BitVec 5) (a : BitVec 5) (s : BitVec 3) (o : BitVec 10) : Statement (.ldf d a s o) := by
  intro _
  have hw : Instr.encodeWord (.ldf d a s o) = (0x147#9 ++ d ++ a ++ s ++ o : BitVec (9+5+5+3+10)) := rfl
  show decodeRow (Instr.encodeWord (.ldf d a s o)) = some (.ldf d a s o)
  generalize Instr.encodeWord (.ldf d a s o) = w at hw ⊢
  have f : bits w 29 3 = 0x5#3 ∧ bits w 23 6 = 0x7#6 ∧ bits w 18 5 = d ∧ bits w 13 5 = a ∧ bits w 10 3 = s ∧ bits w 0 10 = o := by
    subst hw
    refine ⟨?_, ?_, ?_, ?_, ?_, ?_⟩ <;> simp (disch := decide) only [bits, BitVec.extractLsb'_append_eq_of_le, BitVec.extractLsb'_append_eq_of_add_le,
      BitVec.extractLsb'_eq_self, Nat.reduceSub] <;> rfl
  obtain ⟨f1, f2, g0, g1, g2, g3⟩ := f
  unfold decodeRow; rw [f1]; show decodeRowY w = _
  unfold decodeRowY; rw [f2]
  show (some (.ldf (bits w 18 5) (bits w 13 5) (bits w 10 3) (bits w 0 10)) : Option Instr) = some (.ldf d a s o)
  simp only [g0, g1, g2, g3]
theorem ldfe (d : BitVec 5) (a : BitVec 5) (s : BitVec 3) (o : BitVec 10) : Statement (.ldfe d a s o) := by
  intro _
  have hw : Instr.encodeWord (.ldfe d a s o) = (0x148#9 ++ d ++ a ++ s ++ o : BitVec (9+5+5+3+10)) := rfl
  show decodeRow (Instr.encodeWord (.ldfe d a s o)) = some (.ldfe d a s o)
  generalize Instr.encodeWord (.ldfe d a s o) = w at hw ⊢
  have f : bits w 29 3 = 0x5#3 ∧ bits w 23 6 = 0x8#6 ∧ bits w 18 5 = d ∧ bits w 13 5 = a ∧ bits w 10 3 = s ∧ bits w 0 10 = o := by
    subst hw
    refine ⟨?_, ?_, ?_, ?_, ?_, ?_⟩ <;> simp (disch := decide) only [bits, BitVec.extractLsb'_append_eq_of_le, BitVec.extractLsb'_append_eq_of_add_le,
      BitVec.extractLsb'_eq_self, Nat.reduceSub] <;> rfl
  obtain ⟨f1, f2, g0, g1, g2, g3⟩ := f
  unfold decodeRow; rw [f1]; show decodeRowY w = _
  unfold decodeRowY; rw [f2]
  show (some (.ldfe (bits w 18 5) (bits w 13 5) (bits w 10 3) (bits w 0 10)) : Option Instr) = some (.ldfe d a s o)
  simp only [g0, g1, g2, g3]
theorem stef (d : BitVec 5) (a : BitVec 5) (s : BitVec 3) (o : BitVec 10) : Statement (.stef d a s o) := by
  intro _
  have hw : Instr.encodeWord (.stef d a s o) = (0x149#9 ++ d ++ a ++ s ++ o : BitVec (9+5+5+3+10)) := rfl
  show decodeRow (Instr.encodeWord (.stef d a s o)) = some (.stef d a s o)
  generalize Instr.encodeWord (.stef d a s o) = w at hw ⊢
  have f : bits w 29 3 = 0x5#3 ∧ bits w 23 6 = 0x9#6 ∧ bits w 18 5 = d ∧ bits w 13 5 = a ∧ bits w 10 3 = s ∧ bits w 0 10 = o := by
    subst hw
    refine ⟨?_, ?_, ?_, ?_, ?_, ?_⟩ <;> simp (disch := decide) only [bits, BitVec.extractLsb'_append_eq_of_le, BitVec.extractLsb'_append_eq_of_add_le,
      BitVec.extractLsb'_eq_self, Nat.reduceSub] <;> rfl
  obtain ⟨f1, f2, g0, g1, g2, g3⟩ := f
  unfold decodeRow; rw [f1]; show decodeRowY w = _
  unfold decodeRowY; rw [f2]
  show (some (.stef (bits w 18 5) (bits w 13 5) (bits w 10 3) (bits w 0 10)) : Option Instr) = some (.stef d a s o)
  simp only [g0, g1, g2, g3]
theorem stf (d : BitVec 5) (a : BitVec 5) (s : BitVec 3) (o : BitVec 10) : Statement (.stf d a s o) := by
  intro _
  have hw : Instr.encodeWord (.stf d a s o) = (0x14a#9 ++ d ++ a ++ s ++ o : BitVec (9+5+5+3+10)) := rfl
  show decodeRow (Instr.encodeWord (.stf d a s o)) = some (.stf d a s o)
  generalize Instr.encodeWord (.stf d a s o) = w at hw ⊢
  have f : bits w 29 3 = 0x5#3 ∧ bits w 23 6 = 0xa#6 ∧ bits w 18 5 = d ∧ bits w 13 5 = a ∧ bits w 10 3 = s ∧ bits w 0 10 = o := by
    subst hw
    refine ⟨?_, ?_, ?_, ?_, ?_, ?_⟩ <;> simp (disch := decide) only [bits, BitVec.extractLsb'_append_eq_of_le, BitVec.extractLsb'_append_eq_of_add_le,
      BitVec.extractLsb'_eq_self, Nat.reduceSub] <;> rfl
  obtain ⟨f1, f2, g0, g1, g2, g3⟩ := f
  unfold decodeRow; rw [f1]; show decodeRowY w = _
  unfold decodeRowY; rw [f2]
  show (some (.stf (bits w 18 5) (bits w 13 5) (bits w 10 3) (bits w 0 10)) : Option Instr) = some (.stf d a s o)
  simp only [g0, g1, g2, g3]
theorem feset (f : BitVec 1) (a : BitVec 5) (o : BitVec 10) : Statement (.feset f a o) := by
  intro _
  have hw : Instr.encodeWord (.feset f a o) = (0x14b#9 ++ 0x0#4 ++ f ++ a ++ 0x0#3 ++ o : BitVec (9+4+1+5+3+10)) := rfl
  show decodeRow (Instr.encodeWord (.feset f a o)) = some (.feset f a o)
  generalize Instr.encodeWord (.feset f a o) = w at hw ⊢
  have f : bits w 29 3 = 0x5#3 ∧ bits w 23 6 = 0xb#6 ∧ bits w 19 4 = 0x0#4 ∧ bits w 10 3 = 0x0#3 ∧ bits w 18 1 = f ∧ bits w 13 5
      = a ∧ bits w 0 10 = o := by
    subst hw
    refine ⟨?_, ?_, ?_, ?_, ?_, ?_, ?_⟩ <;> simp (disch := decide) only [bits, BitVec.extractLsb'_append_eq_of_le, BitVec.extractLsb'_append_eq_of_add_le,
      BitVec.extractLsb'_eq_self, Nat.reduceSub] <;> rfl
  obtain ⟨f1, f2, g0, g1, g2, g3, g4⟩ := f
  unfold decodeRow; rw [f1]; show decodeRowY w = _
  unfold decodeRowY; rw [f2]
  show (if bits w 19 4 = 0 ∧ bits w 10 3 = 0 then some (.feset (bits w 18 1) (bits w 13 5) (bits w 0 10)) else none : Option Instr) = some (.feset f a o)
  simp only [g0, g1, g2, g3, g4]
  rfl
theorem tready (t : BitVec 8) : Statement (.tready t) := by
  intro _
  have hw : Instr.encodeWord (.tready t) = (0x14c#9 ++ 0x0#15 ++ t : BitVec (9+15+8)) := rfl
  show decodeRow (Instr.encodeWord (.tready t)) = some (.tready t)
  generalize Instr.encodeWord (.tready t) = w at hw ⊢
  have f : bits w 29 3 = 0x5#3 ∧ bits w 23 6 = 0xc#6 ∧ bits w 8 15 = 0x0#15 ∧ bits w 0 8 = t := by
    subst hw
    refine ⟨?_, ?_, ?_, ?_⟩ <;> simp (disch := decide) only [bits, BitVec.extractLsb'_append_eq_of_le, BitVec.extractLsb'_append_eq_of_add_le,
      BitVec.extractLsb'_eq_self, Nat.reduceSub] <;> rfl
  obtain ⟨f1, f2, g0, g1⟩ := f
  unfold decodeRow; rw [f1]; show decodeRowY w = _
  unfold decodeRowY; rw [f2]
  show (if bits w 8 15 = 0 then some (.tready (bits w 0 8)) else none : Option Instr) = some (.tready t)
  simp only [g0, g1]
  rfl
theorem tempty (t : BitVec 8) : Statement (.tempty t) := by
  intro _
  have hw : Instr.encodeWord (.tempty t) = (0x14d#9 ++ 0x0#15 ++ t : BitVec (9+15+8)) := rfl
  show decodeRow (Instr.encodeWord (.tempty t)) = some (.tempty t)
  generalize Instr.encodeWord (.tempty t) = w at hw ⊢
  have f : bits w 29 3 = 0x5#3 ∧ bits w 23 6 = 0xd#6 ∧ bits w 8 15 = 0x0#15 ∧ bits w 0 8 = t := by
    subst hw
    refine ⟨?_, ?_, ?_, ?_⟩ <;> simp (disch := decide) only [bits, BitVec.extractLsb'_append_eq_of_le, BitVec.extractLsb'_append_eq_of_add_le,
      BitVec.extractLsb'_eq_self, Nat.reduceSub] <;> rfl
  obtain ⟨f1, f2, g0, g1⟩ := f
  unfold decodeRow; rw [f1]; show decodeRowY w = _
  unfold decodeRowY; rw [f2]
  show (if bits w 8 15 = 0 then some (.tempty (bits w 0 8)) else none : Option Instr) = some (.tempty t)
  simp only [g0, g1]
  rfl
theorem twait (s : BitVec 2) (t : BitVec 8) : Statement (.twait s t) := by
  intro _
  have hw : Instr.encodeWord (.twait s t) = (0x14e#9 ++ 0x0#13 ++ s ++ t : BitVec (9+13+2+8)) := rfl
  show decodeRow (Instr.encodeWord (.twait s t)) = some (.twait s t)
  generalize Instr.encodeWord (.twait s t) = w at hw ⊢
  have f : bits w 29 3 = 0x5#3 ∧ bits w 23 6 = 0xe#6 ∧ bits w 10 13 = 0x0#13 ∧ bits w 8 2 = s ∧ bits w 0 8 = t := by
    subst hw
    refine ⟨?_, ?_, ?_, ?_, ?_⟩ <;> simp (disch := decide) only [bits, BitVec.extractLsb'_append_eq_of_le, BitVec.extractLsb'_append_eq_of_add_le,
      BitVec.extractLsb'_eq_self, Nat.reduceSub] <;> rfl
  obtain ⟨f1, f2, g0, g1, g2⟩ := f
  unfold decodeRow; rw [f1]; show decodeRowY w = _
  unfold decodeRowY; rw [f2]
  show (if bits w 10 13 = 0 then some (.twait (bits w 8 2) (bits w 0 8)) else none : Option Instr) = some (.twait s t)
  simp only [g0, g1, g2]
  rfl
theorem ldaq (d : BitVec 5) (a : BitVec 5) (k : BitVec 3) (s : BitVec 3) (wd_ : BitVec 1) : Statement (.ldaq d a k s wd_) := by
  intro _
  have hw : Instr.encodeWord (.ldaq d a k s wd_) = (0x150#9 ++ d ++ a ++ 0x0#2 ++ k ++ s ++ wd_ ++ 0x0#4 : BitVec (9+5+5+2+3+3+1+4)) := rfl
  show decodeRow (Instr.encodeWord (.ldaq d a k s wd_)) = some (.ldaq d a k s wd_)
  generalize Instr.encodeWord (.ldaq d a k s wd_) = w at hw ⊢
  have f : bits w 29 3 = 0x5#3 ∧ bits w 23 6 = 0x10#6 ∧ bits w 11 2 = 0x0#2 ∧ bits w 0 4 = 0x0#4 ∧ bits w 18 5 = d ∧ bits w 13 5
      = a ∧ bits w 8 3 = k ∧ bits w 5 3 = s ∧ bits w 4 1 = wd_ := by
    subst hw
    refine ⟨?_, ?_, ?_, ?_, ?_, ?_, ?_, ?_, ?_⟩ <;> simp (disch := decide) only [bits, BitVec.extractLsb'_append_eq_of_le, BitVec.extractLsb'_append_eq_of_add_le,
      BitVec.extractLsb'_eq_self, Nat.reduceSub] <;> rfl
  obtain ⟨f1, f2, g0, g1, g2, g3, g4, g5, g6⟩ := f
  unfold decodeRow; rw [f1]; show decodeRowY w = _
  unfold decodeRowY; rw [f2]
  show (if bits w 11 2 = 0 ∧ bits w 0 4 = 0 then some (.ldaq (bits w 18 5) (bits w 13 5) (bits w 8 3) (bits w 5 3) (bits w 4 1))
    else none : Option Instr) = some (.ldaq d a k s wd_)
  simp only [g0, g1, g2, g3, g4, g5, g6]
  rfl
theorem strl (d : BitVec 5) (a : BitVec 5) (k : BitVec 3) (s : BitVec 3) (wd_ : BitVec 1) : Statement (.strl d a k s wd_) := by
  intro _
  have hw : Instr.encodeWord (.strl d a k s wd_) = (0x151#9 ++ d ++ a ++ 0x0#2 ++ k ++ s ++ wd_ ++ 0x0#4 : BitVec (9+5+5+2+3+3+1+4)) := rfl
  show decodeRow (Instr.encodeWord (.strl d a k s wd_)) = some (.strl d a k s wd_)
  generalize Instr.encodeWord (.strl d a k s wd_) = w at hw ⊢
  have f : bits w 29 3 = 0x5#3 ∧ bits w 23 6 = 0x11#6 ∧ bits w 11 2 = 0x0#2 ∧ bits w 0 4 = 0x0#4 ∧ bits w 18 5 = d ∧ bits w 13 5
      = a ∧ bits w 8 3 = k ∧ bits w 5 3 = s ∧ bits w 4 1 = wd_ := by
    subst hw
    refine ⟨?_, ?_, ?_, ?_, ?_, ?_, ?_, ?_, ?_⟩ <;> simp (disch := decide) only [bits, BitVec.extractLsb'_append_eq_of_le, BitVec.extractLsb'_append_eq_of_add_le,
      BitVec.extractLsb'_eq_self, Nat.reduceSub] <;> rfl
  obtain ⟨f1, f2, g0, g1, g2, g3, g4, g5, g6⟩ := f
  unfold decodeRow; rw [f1]; show decodeRowY w = _
  unfold decodeRowY; rw [f2]
  show (if bits w 11 2 = 0 ∧ bits w 0 4 = 0 then some (.strl (bits w 18 5) (bits w 13 5) (bits w 8 3) (bits w 5 3) (bits w 4 1))
    else none : Option Instr) = some (.strl d a k s wd_)
  simp only [g0, g1, g2, g3, g4, g5, g6]
  rfl
theorem ldaqs (d : BitVec 5) (a : BitVec 5) (b : BitVec 5) (s : BitVec 3) (wd_ : BitVec 1) : Statement (.ldaqs d a b s wd_) := by
  intro _
  have hw : Instr.encodeWord (.ldaqs d a b s wd_) = (0x152#9 ++ d ++ a ++ b ++ s ++ wd_ ++ 0x0#4 : BitVec (9+5+5+5+3+1+4)) := rfl
  show decodeRow (Instr.encodeWord (.ldaqs d a b s wd_)) = some (.ldaqs d a b s wd_)
  generalize Instr.encodeWord (.ldaqs d a b s wd_) = w at hw ⊢
  have f : bits w 29 3 = 0x5#3 ∧ bits w 23 6 = 0x12#6 ∧ bits w 0 4 = 0x0#4 ∧ bits w 18 5 = d ∧ bits w 13 5 = a ∧ bits w 8 5 = b ∧
      bits w 5 3 = s ∧ bits w 4 1 = wd_ := by
    subst hw
    refine ⟨?_, ?_, ?_, ?_, ?_, ?_, ?_, ?_⟩ <;> simp (disch := decide) only [bits, BitVec.extractLsb'_append_eq_of_le, BitVec.extractLsb'_append_eq_of_add_le,
      BitVec.extractLsb'_eq_self, Nat.reduceSub] <;> rfl
  obtain ⟨f1, f2, g0, g1, g2, g3, g4, g5⟩ := f
  unfold decodeRow; rw [f1]; show decodeRowY w = _
  unfold decodeRowY; rw [f2]
  show (if bits w 0 4 = 0 then some (.ldaqs (bits w 18 5) (bits w 13 5) (bits w 8 5) (bits w 5 3) (bits w 4 1)) else none : Option Instr) = some (.ldaqs d a b s wd_)
  simp only [g0, g1, g2, g3, g4, g5]
  rfl
theorem strls (d : BitVec 5) (a : BitVec 5) (b : BitVec 5) (s : BitVec 3) (wd_ : BitVec 1) : Statement (.strls d a b s wd_) := by
  intro _
  have hw : Instr.encodeWord (.strls d a b s wd_) = (0x153#9 ++ d ++ a ++ b ++ s ++ wd_ ++ 0x0#4 : BitVec (9+5+5+5+3+1+4)) := rfl
  show decodeRow (Instr.encodeWord (.strls d a b s wd_)) = some (.strls d a b s wd_)
  generalize Instr.encodeWord (.strls d a b s wd_) = w at hw ⊢
  have f : bits w 29 3 = 0x5#3 ∧ bits w 23 6 = 0x13#6 ∧ bits w 0 4 = 0x0#4 ∧ bits w 18 5 = d ∧ bits w 13 5 = a ∧ bits w 8 5 = b ∧
      bits w 5 3 = s ∧ bits w 4 1 = wd_ := by
    subst hw
    refine ⟨?_, ?_, ?_, ?_, ?_, ?_, ?_, ?_⟩ <;> simp (disch := decide) only [bits, BitVec.extractLsb'_append_eq_of_le, BitVec.extractLsb'_append_eq_of_add_le,
      BitVec.extractLsb'_eq_self, Nat.reduceSub] <;> rfl
  obtain ⟨f1, f2, g0, g1, g2, g3, g4, g5⟩ := f
  unfold decodeRow; rw [f1]; show decodeRowY w = _
  unfold decodeRowY; rw [f2]
  show (if bits w 0 4 = 0 then some (.strls (bits w 18 5) (bits w 13 5) (bits w 8 5) (bits w 5 3) (bits w 4 1)) else none : Option Instr) = some (.strls d a b s wd_)
  simp only [g0, g1, g2, g3, g4, g5]
  rfl
theorem fence (s : BitVec 3) (k : BitVec 2) : Statement (.fence s k) := by
  intro _
  have hw : Instr.encodeWord (.fence s k) = (0x154#9 ++ 0x0#15 ++ s ++ k ++ 0x0#3 : BitVec (9+15+3+2+3)) := rfl
  show decodeRow (Instr.encodeWord (.fence s k)) = some (.fence s k)
  generalize Instr.encodeWord (.fence s k) = w at hw ⊢
  have f : bits w 29 3 = 0x5#3 ∧ bits w 23 6 = 0x14#6 ∧ bits w 8 15 = 0x0#15 ∧ bits w 0 3 = 0x0#3 ∧ bits w 5 3 = s ∧ bits w 3 2 =
      k := by
    subst hw
    refine ⟨?_, ?_, ?_, ?_, ?_, ?_⟩ <;> simp (disch := decide) only [bits, BitVec.extractLsb'_append_eq_of_le, BitVec.extractLsb'_append_eq_of_add_le,
      BitVec.extractLsb'_eq_self, Nat.reduceSub] <;> rfl
  obtain ⟨f1, f2, g0, g1, g2, g3⟩ := f
  unfold decodeRow; rw [f1]; show decodeRowY w = _
  unfold decodeRowY; rw [f2]
  show (if bits w 8 15 = 0 ∧ bits w 0 3 = 0 then some (.fence (bits w 5 3) (bits w 3 2)) else none : Option Instr) = some (.fence s k)
  simp only [g0, g1, g2, g3]
  rfl
theorem amo (d : BitVec 5) (a : BitVec 5) (r : BitVec 2) (k : BitVec 3) (s : BitVec 3) (p : BitVec 5) : Statement (.amo d a r k s p) := by
  intro _
  have hw : Instr.encodeWord (.amo d a r k s p) = (0x158#9 ++ d ++ a ++ r ++ k ++ s ++ p : BitVec (9+5+5+2+3+3+5)) := rfl
  show decodeRow (Instr.encodeWord (.amo d a r k s p)) = some (.amo d a r k s p)
  generalize Instr.encodeWord (.amo d a r k s p) = w at hw ⊢
  have f : bits w 29 3 = 0x5#3 ∧ bits w 23 6 = 0x18#6 ∧ bits w 18 5 = d ∧ bits w 13 5 = a ∧ bits w 11 2 = r ∧ bits w 8 3 = k ∧
      bits w 5 3 = s ∧ bits w 0 5 = p := by
    subst hw
    refine ⟨?_, ?_, ?_, ?_, ?_, ?_, ?_, ?_⟩ <;> simp (disch := decide) only [bits, BitVec.extractLsb'_append_eq_of_le, BitVec.extractLsb'_append_eq_of_add_le,
      BitVec.extractLsb'_eq_self, Nat.reduceSub] <;> rfl
  obtain ⟨f1, f2, g0, g1, g2, g3, g4, g5⟩ := f
  unfold decodeRow; rw [f1]; show decodeRowY w = _
  unfold decodeRowY; rw [f2]
  show (some (.amo (bits w 18 5) (bits w 13 5) (bits w 11 2) (bits w 8 3) (bits w 5 3) (bits w 0 5)) : Option Instr) = some (.amo d a r k s p)
  simp only [g0, g1, g2, g3, g4, g5]
theorem amoc (d : BitVec 5) (a : BitVec 5) (r : BitVec 2) (k : BitVec 3) (s : BitVec 3) (wd_ : BitVec 1) : Statement (.amoc d a r k s wd_) := by
  intro _
  have hw : Instr.encodeWord (.amoc d a r k s wd_) = (0x159#9 ++ d ++ a ++ r ++ k ++ s ++ wd_ ++ 0x0#4 : BitVec (9+5+5+2+3+3+1+4)) := rfl
  show decodeRow (Instr.encodeWord (.amoc d a r k s wd_)) = some (.amoc d a r k s wd_)
  generalize Instr.encodeWord (.amoc d a r k s wd_) = w at hw ⊢
  have f : bits w 29 3 = 0x5#3 ∧ bits w 23 6 = 0x19#6 ∧ bits w 0 4 = 0x0#4 ∧ bits w 18 5 = d ∧ bits w 13 5 = a ∧ bits w 11 2 = r
      ∧ bits w 8 3 = k ∧ bits w 5 3 = s ∧ bits w 4 1 = wd_ := by
    subst hw
    refine ⟨?_, ?_, ?_, ?_, ?_, ?_, ?_, ?_, ?_⟩ <;> simp (disch := decide) only [bits, BitVec.extractLsb'_append_eq_of_le, BitVec.extractLsb'_append_eq_of_add_le,
      BitVec.extractLsb'_eq_self, Nat.reduceSub] <;> rfl
  obtain ⟨f1, f2, g0, g1, g2, g3, g4, g5, g6⟩ := f
  unfold decodeRow; rw [f1]; show decodeRowY w = _
  unfold decodeRowY; rw [f2]
  show (if bits w 0 4 = 0 then some (.amoc (bits w 18 5) (bits w 13 5) (bits w 11 2) (bits w 8 3) (bits w 5 3) (bits w 4 1))
    else none : Option Instr) = some (.amoc d a r k s wd_)
  simp only [g0, g1, g2, g3, g4, g5, g6]
  rfl
theorem red (d : BitVec 5) (a : BitVec 5) (r : BitVec 2) (k : BitVec 3) (s : BitVec 3) (p : BitVec 5) : Statement (.red d a r k s p) := by
  intro _
  have hw : Instr.encodeWord (.red d a r k s p) = (0x15a#9 ++ d ++ a ++ r ++ k ++ s ++ p : BitVec (9+5+5+2+3+3+5)) := rfl
  show decodeRow (Instr.encodeWord (.red d a r k s p)) = some (.red d a r k s p)
  generalize Instr.encodeWord (.red d a r k s p) = w at hw ⊢
  have f : bits w 29 3 = 0x5#3 ∧ bits w 23 6 = 0x1a#6 ∧ bits w 18 5 = d ∧ bits w 13 5 = a ∧ bits w 11 2 = r ∧ bits w 8 3 = k ∧
      bits w 5 3 = s ∧ bits w 0 5 = p := by
    subst hw
    refine ⟨?_, ?_, ?_, ?_, ?_, ?_, ?_, ?_⟩ <;> simp (disch := decide) only [bits, BitVec.extractLsb'_append_eq_of_le, BitVec.extractLsb'_append_eq_of_add_le,
      BitVec.extractLsb'_eq_self, Nat.reduceSub] <;> rfl
  obtain ⟨f1, f2, g0, g1, g2, g3, g4, g5⟩ := f
  unfold decodeRow; rw [f1]; show decodeRowY w = _
  unfold decodeRowY; rw [f2]
  show (some (.red (bits w 18 5) (bits w 13 5) (bits w 11 2) (bits w 8 3) (bits w 5 3) (bits w 0 5)) : Option Instr) = some (.red d a r k s p)
  simp only [g0, g1, g2, g3, g4, g5]
theorem redv (a : BitVec 5) (r : BitVec 2) (k : BitVec 3) (s : BitVec 3) (y : BitVec 1) : Statement (.redv a r k s y) := by
  intro _
  have hw : Instr.encodeWord (.redv a r k s y) = (0x15b#9 ++ 0x1e#5 ++ a ++ r ++ k ++ s ++ 0x0#4 ++ y : BitVec (9+5+5+2+3+3+4+1)) := rfl
  show decodeRow (Instr.encodeWord (.redv a r k s y)) = some (.redv a r k s y)
  generalize Instr.encodeWord (.redv a r k s y) = w at hw ⊢
  have f : bits w 29 3 = 0x5#3 ∧ bits w 23 6 = 0x1b#6 ∧ bits w 18 5 = 0x1e#5 ∧ bits w 1 4 = 0x0#4 ∧ bits w 13 5 = a ∧ bits w 11 2
      = r ∧ bits w 8 3 = k ∧ bits w 5 3 = s ∧ bits w 0 1 = y := by
    subst hw
    refine ⟨?_, ?_, ?_, ?_, ?_, ?_, ?_, ?_, ?_⟩ <;> simp (disch := decide) only [bits, BitVec.extractLsb'_append_eq_of_le, BitVec.extractLsb'_append_eq_of_add_le,
      BitVec.extractLsb'_eq_self, Nat.reduceSub] <;> rfl
  obtain ⟨f1, f2, g0, g1, g2, g3, g4, g5, g6⟩ := f
  unfold decodeRow; rw [f1]; show decodeRowY w = _
  unfold decodeRowY; rw [f2]
  show (if bits w 18 5 = 0x1e ∧ bits w 1 4 = 0 then some (.redv (bits w 13 5) (bits w 11 2) (bits w 8 3) (bits w 5 3) (bits w 0
    1)) else none : Option Instr) = some (.redv a r k s y)
  simp only [g0, g1, g2, g3, g4, g5, g6]
  rfl
theorem amos (d : BitVec 5) (a : BitVec 5) (b : BitVec 5) (s : BitVec 3) (p : BitVec 5) : Statement (.amos d a b s p) := by
  intro _
  have hw : Instr.encodeWord (.amos d a b s p) = (0x15c#9 ++ d ++ a ++ b ++ s ++ p : BitVec (9+5+5+5+3+5)) := rfl
  show decodeRow (Instr.encodeWord (.amos d a b s p)) = some (.amos d a b s p)
  generalize Instr.encodeWord (.amos d a b s p) = w at hw ⊢
  have f : bits w 29 3 = 0x5#3 ∧ bits w 23 6 = 0x1c#6 ∧ bits w 18 5 = d ∧ bits w 13 5 = a ∧ bits w 8 5 = b ∧ bits w 5 3 = s ∧
      bits w 0 5 = p := by
    subst hw
    refine ⟨?_, ?_, ?_, ?_, ?_, ?_, ?_⟩ <;> simp (disch := decide) only [bits, BitVec.extractLsb'_append_eq_of_le, BitVec.extractLsb'_append_eq_of_add_le,
      BitVec.extractLsb'_eq_self, Nat.reduceSub] <;> rfl
  obtain ⟨f1, f2, g0, g1, g2, g3, g4⟩ := f
  unfold decodeRow; rw [f1]; show decodeRowY w = _
  unfold decodeRowY; rw [f2]
  show (some (.amos (bits w 18 5) (bits w 13 5) (bits w 8 5) (bits w 5 3) (bits w 0 5)) : Option Instr) = some (.amos d a b s p)
  simp only [g0, g1, g2, g3, g4]
theorem mnest (a : BitVec 5) (b : BitVec 5) (l : BitVec 3) : Statement (.mnest a b l) := by
  intro _
  have hw : Instr.encodeWord (.mnest a b l) = (0xc0#9 ++ 0x0#5 ++ a ++ b ++ 0x0#5 ++ l : BitVec (9+5+5+5+5+3)) := rfl
  show decodeRow (Instr.encodeWord (.mnest a b l)) = some (.mnest a b l)
  generalize Instr.encodeWord (.mnest a b l) = w at hw ⊢
  have f : bits w 29 3 = 0x3#3 ∧ bits w 23 6 = 0x0#6 ∧ bits w 18 5 = 0x0#5 ∧ bits w 3 5 = 0x0#5 ∧ bits w 13 5 = a ∧ bits w 8 5 =
      b ∧ bits w 0 3 = l := by
    subst hw
    refine ⟨?_, ?_, ?_, ?_, ?_, ?_, ?_⟩ <;> simp (disch := decide) only [bits, BitVec.extractLsb'_append_eq_of_le, BitVec.extractLsb'_append_eq_of_add_le,
      BitVec.extractLsb'_eq_self, Nat.reduceSub] <;> rfl
  obtain ⟨f1, f2, g0, g1, g2, g3, g4⟩ := f
  unfold decodeRow; rw [f1]; show decodeRowM w = _
  unfold decodeRowM; rw [f2]
  show (if bits w 18 5 = 0 ∧ bits w 3 5 = 0 then some (.mnest (bits w 13 5) (bits w 8 5) (bits w 0 3)) else none : Option Instr) = some (.mnest a b l)
  simp only [g0, g1, g2, g3, g4]
  rfl
theorem mbody (n : BitVec 4) : Statement (.mbody n) := by
  intro _
  have hw : Instr.encodeWord (.mbody n) = (0xc1#9 ++ 0x0#19 ++ n : BitVec (9+19+4)) := rfl
  show decodeRow (Instr.encodeWord (.mbody n)) = some (.mbody n)
  generalize Instr.encodeWord (.mbody n) = w at hw ⊢
  have f : bits w 29 3 = 0x3#3 ∧ bits w 23 6 = 0x1#6 ∧ bits w 4 19 = 0x0#19 ∧ bits w 0 4 = n := by
    subst hw
    refine ⟨?_, ?_, ?_, ?_⟩ <;> simp (disch := decide) only [bits, BitVec.extractLsb'_append_eq_of_le, BitVec.extractLsb'_append_eq_of_add_le,
      BitVec.extractLsb'_eq_self, Nat.reduceSub] <;> rfl
  obtain ⟨f1, f2, g0, g1⟩ := f
  unfold decodeRow; rw [f1]; show decodeRowM w = _
  unfold decodeRowM; rw [f2]
  show (if bits w 4 19 = 0 then some (.mbody (bits w 0 4)) else none : Option Instr) = some (.mbody n)
  simp only [g0, g1]
  rfl
theorem mgo (a : BitVec 5) (b : BitVec 5) : Statement (.mgo a b) := by
  intro _
  have hw : Instr.encodeWord (.mgo a b) = (0xc2#9 ++ 0x0#5 ++ a ++ b ++ 0x0#8 : BitVec (9+5+5+5+8)) := rfl
  show decodeRow (Instr.encodeWord (.mgo a b)) = some (.mgo a b)
  generalize Instr.encodeWord (.mgo a b) = w at hw ⊢
  have f : bits w 29 3 = 0x3#3 ∧ bits w 23 6 = 0x2#6 ∧ bits w 18 5 = 0x0#5 ∧ bits w 0 8 = 0x0#8 ∧ bits w 13 5 = a ∧ bits w 8 5 =
      b := by
    subst hw
    refine ⟨?_, ?_, ?_, ?_, ?_, ?_⟩ <;> simp (disch := decide) only [bits, BitVec.extractLsb'_append_eq_of_le, BitVec.extractLsb'_append_eq_of_add_le,
      BitVec.extractLsb'_eq_self, Nat.reduceSub] <;> rfl
  obtain ⟨f1, f2, g0, g1, g2, g3⟩ := f
  unfold decodeRow; rw [f1]; show decodeRowM w = _
  unfold decodeRowM; rw [f2]
  show (if bits w 18 5 = 0 ∧ bits w 0 8 = 0 then some (.mgo (bits w 13 5) (bits w 8 5)) else none : Option Instr) = some (.mgo a b)
  simp only [g0, g1, g2, g3]
  rfl
theorem msel (k : BitVec 3) : Statement (.msel k) := by
  intro _
  have hw : Instr.encodeWord (.msel k) = (0xc3#9 ++ 0x0#20 ++ k : BitVec (9+20+3)) := rfl
  show decodeRow (Instr.encodeWord (.msel k)) = some (.msel k)
  generalize Instr.encodeWord (.msel k) = w at hw ⊢
  have f : bits w 29 3 = 0x3#3 ∧ bits w 23 6 = 0x3#6 ∧ bits w 3 20 = 0x0#20 ∧ bits w 0 3 = k := by
    subst hw
    refine ⟨?_, ?_, ?_, ?_⟩ <;> simp (disch := decide) only [bits, BitVec.extractLsb'_append_eq_of_le, BitVec.extractLsb'_append_eq_of_add_le,
      BitVec.extractLsb'_eq_self, Nat.reduceSub] <;> rfl
  obtain ⟨f1, f2, g0, g1⟩ := f
  unfold decodeRow; rw [f1]; show decodeRowM w = _
  unfold decodeRowM; rw [f2]
  show (if bits w 3 20 = 0 then some (.msel (bits w 0 3)) else none : Option Instr) = some (.msel k)
  simp only [g0, g1]
  rfl
theorem mconf (m : BitVec 2) : Statement (.mconf m) := by
  intro _
  have hw : Instr.encodeWord (.mconf m) = (0xc4#9 ++ 0x0#21 ++ m : BitVec (9+21+2)) := rfl
  show decodeRow (Instr.encodeWord (.mconf m)) = some (.mconf m)
  generalize Instr.encodeWord (.mconf m) = w at hw ⊢
  have f : bits w 29 3 = 0x3#3 ∧ bits w 23 6 = 0x4#6 ∧ bits w 2 21 = 0x0#21 ∧ bits w 0 2 = m := by
    subst hw
    refine ⟨?_, ?_, ?_, ?_⟩ <;> simp (disch := decide) only [bits, BitVec.extractLsb'_append_eq_of_le, BitVec.extractLsb'_append_eq_of_add_le,
      BitVec.extractLsb'_eq_self, Nat.reduceSub] <;> rfl
  obtain ⟨f1, f2, g0, g1⟩ := f
  unfold decodeRow; rw [f1]; show decodeRowM w = _
  unfold decodeRowM; rw [f2]
  show (if bits w 2 21 = 0 then some (.mconf (bits w 0 2)) else none : Option Instr) = some (.mconf m)
  simp only [g0, g1]
  rfl
theorem mclm (n : BitVec 4) (k : BitVec 3) (s : BitVec 4) : Statement (.mclm n k s) := by
  intro _
  have hw : Instr.encodeWord (.mclm n k s) = (0xc5#9 ++ 0x0#12 ++ n ++ k ++ s : BitVec (9+12+4+3+4)) := rfl
  show decodeRow (Instr.encodeWord (.mclm n k s)) = some (.mclm n k s)
  generalize Instr.encodeWord (.mclm n k s) = w at hw ⊢
  have f : bits w 29 3 = 0x3#3 ∧ bits w 23 6 = 0x5#6 ∧ bits w 11 12 = 0x0#12 ∧ bits w 7 4 = n ∧ bits w 4 3 = k ∧ bits w 0 4 = s := by
    subst hw
    refine ⟨?_, ?_, ?_, ?_, ?_, ?_⟩ <;> simp (disch := decide) only [bits, BitVec.extractLsb'_append_eq_of_le, BitVec.extractLsb'_append_eq_of_add_le,
      BitVec.extractLsb'_eq_self, Nat.reduceSub] <;> rfl
  obtain ⟨f1, f2, g0, g1, g2, g3⟩ := f
  unfold decodeRow; rw [f1]; show decodeRowM w = _
  unfold decodeRowM; rw [f2]
  show (if bits w 11 12 = 0 then some (.mclm (bits w 7 4) (bits w 4 3) (bits w 0 4)) else none : Option Instr) = some (.mclm n k s)
  simp only [g0, g1, g2, g3]
  rfl
theorem mrel (n : BitVec 4) (k : BitVec 3) (s : BitVec 4) : Statement (.mrel n k s) := by
  intro _
  have hw : Instr.encodeWord (.mrel n k s) = (0xc6#9 ++ 0x0#12 ++ n ++ k ++ s : BitVec (9+12+4+3+4)) := rfl
  show decodeRow (Instr.encodeWord (.mrel n k s)) = some (.mrel n k s)
  generalize Instr.encodeWord (.mrel n k s) = w at hw ⊢
  have f : bits w 29 3 = 0x3#3 ∧ bits w 23 6 = 0x6#6 ∧ bits w 11 12 = 0x0#12 ∧ bits w 7 4 = n ∧ bits w 4 3 = k ∧ bits w 0 4 = s := by
    subst hw
    refine ⟨?_, ?_, ?_, ?_, ?_, ?_⟩ <;> simp (disch := decide) only [bits, BitVec.extractLsb'_append_eq_of_le, BitVec.extractLsb'_append_eq_of_add_le,
      BitVec.extractLsb'_eq_self, Nat.reduceSub] <;> rfl
  obtain ⟨f1, f2, g0, g1, g2, g3⟩ := f
  unfold decodeRow; rw [f1]; show decodeRowM w = _
  unfold decodeRowM; rw [f2]
  show (if bits w 11 12 = 0 then some (.mrel (bits w 7 4) (bits w 4 3) (bits w 0 4)) else none : Option Instr) = some (.mrel n k s)
  simp only [g0, g1, g2, g3]
  rfl
theorem mldb (d : BitVec 5) (g : BitVec 2) (x : BitVec 1) (p : BitVec 1) (t : BitVec 4) : Statement (.mldb d g x p t) := by
  intro _
  have hw : Instr.encodeWord (.mldb d g x p t) = (0xc7#9 ++ d ++ 0x0#10 ++ g ++ x ++ p ++ t : BitVec (9+5+10+2+1+1+4)) := rfl
  show decodeRow (Instr.encodeWord (.mldb d g x p t)) = some (.mldb d g x p t)
  generalize Instr.encodeWord (.mldb d g x p t) = w at hw ⊢
  have f : bits w 29 3 = 0x3#3 ∧ bits w 23 6 = 0x7#6 ∧ bits w 8 10 = 0x0#10 ∧ bits w 18 5 = d ∧ bits w 6 2 = g ∧ bits w 5 1 = x ∧
      bits w 4 1 = p ∧ bits w 0 4 = t := by
    subst hw
    refine ⟨?_, ?_, ?_, ?_, ?_, ?_, ?_, ?_⟩ <;> simp (disch := decide) only [bits, BitVec.extractLsb'_append_eq_of_le, BitVec.extractLsb'_append_eq_of_add_le,
      BitVec.extractLsb'_eq_self, Nat.reduceSub] <;> rfl
  obtain ⟨f1, f2, g0, g1, g2, g3, g4, g5⟩ := f
  unfold decodeRow; rw [f1]; show decodeRowM w = _
  unfold decodeRowM; rw [f2]
  show (if bits w 8 10 = 0 then some (.mldb (bits w 18 5) (bits w 6 2) (bits w 5 1) (bits w 4 1) (bits w 0 4)) else none : Option Instr) = some (.mldb d g x p t)
  simp only [g0, g1, g2, g3, g4, g5]
  rfl
theorem mmma (d : BitVec 5) (g : BitVec 2) (x : BitVec 1) (h : BitVec 1) (t : BitVec 4) : Statement (.mmma d g x h t) := by
  intro _
  have hw : Instr.encodeWord (.mmma d g x h t) = (0xc8#9 ++ d ++ 0x0#10 ++ g ++ x ++ h ++ t : BitVec (9+5+10+2+1+1+4)) := rfl
  show decodeRow (Instr.encodeWord (.mmma d g x h t)) = some (.mmma d g x h t)
  generalize Instr.encodeWord (.mmma d g x h t) = w at hw ⊢
  have f : bits w 29 3 = 0x3#3 ∧ bits w 23 6 = 0x8#6 ∧ bits w 8 10 = 0x0#10 ∧ bits w 18 5 = d ∧ bits w 6 2 = g ∧ bits w 5 1 = x ∧
      bits w 4 1 = h ∧ bits w 0 4 = t := by
    subst hw
    refine ⟨?_, ?_, ?_, ?_, ?_, ?_, ?_, ?_⟩ <;> simp (disch := decide) only [bits, BitVec.extractLsb'_append_eq_of_le, BitVec.extractLsb'_append_eq_of_add_le,
      BitVec.extractLsb'_eq_self, Nat.reduceSub] <;> rfl
  obtain ⟨f1, f2, g0, g1, g2, g3, g4, g5⟩ := f
  unfold decodeRow; rw [f1]; show decodeRowM w = _
  unfold decodeRowM; rw [f2]
  show (if bits w 8 10 = 0 then some (.mmma (bits w 18 5) (bits w 6 2) (bits w 5 1) (bits w 4 1) (bits w 0 4)) else none : Option Instr) = some (.mmma d g x h t)
  simp only [g0, g1, g2, g3, g4, g5]
  rfl
theorem mmms (d : BitVec 5) (g : BitVec 2) (x : BitVec 1) (h : BitVec 1) (t : BitVec 4) : Statement (.mmms d g x h t) := by
  intro _
  have hw : Instr.encodeWord (.mmms d g x h t) = (0xc9#9 ++ d ++ 0x0#10 ++ g ++ x ++ h ++ t : BitVec (9+5+10+2+1+1+4)) := rfl
  show decodeRow (Instr.encodeWord (.mmms d g x h t)) = some (.mmms d g x h t)
  generalize Instr.encodeWord (.mmms d g x h t) = w at hw ⊢
  have f : bits w 29 3 = 0x3#3 ∧ bits w 23 6 = 0x9#6 ∧ bits w 8 10 = 0x0#10 ∧ bits w 18 5 = d ∧ bits w 6 2 = g ∧ bits w 5 1 = x ∧
      bits w 4 1 = h ∧ bits w 0 4 = t := by
    subst hw
    refine ⟨?_, ?_, ?_, ?_, ?_, ?_, ?_, ?_⟩ <;> simp (disch := decide) only [bits, BitVec.extractLsb'_append_eq_of_le, BitVec.extractLsb'_append_eq_of_add_le,
      BitVec.extractLsb'_eq_self, Nat.reduceSub] <;> rfl
  obtain ⟨f1, f2, g0, g1, g2, g3, g4, g5⟩ := f
  unfold decodeRow; rw [f1]; show decodeRowM w = _
  unfold decodeRowM; rw [f2]
  show (if bits w 8 10 = 0 then some (.mmms (bits w 18 5) (bits w 6 2) (bits w 5 1) (bits w 4 1) (bits w 0 4)) else none : Option Instr) = some (.mmms d g x h t)
  simp only [g0, g1, g2, g3, g4, g5]
  rfl
theorem mmmc (d : BitVec 5) (a : BitVec 5) (g : BitVec 2) (x : BitVec 1) (h : BitVec 1) (t : BitVec 4) : Statement (.mmmc d a g x h t) := by
  intro _
  have hw : Instr.encodeWord (.mmmc d a g x h t) = (0xca#9 ++ d ++ a ++ 0x0#5 ++ g ++ x ++ h ++ t : BitVec (9+5+5+5+2+1+1+4)) := rfl
  show decodeRow (Instr.encodeWord (.mmmc d a g x h t)) = some (.mmmc d a g x h t)
  generalize Instr.encodeWord (.mmmc d a g x h t) = w at hw ⊢
  have f : bits w 29 3 = 0x3#3 ∧ bits w 23 6 = 0xa#6 ∧ bits w 8 5 = 0x0#5 ∧ bits w 18 5 = d ∧ bits w 13 5 = a ∧ bits w 6 2 = g ∧
      bits w 5 1 = x ∧ bits w 4 1 = h ∧ bits w 0 4 = t := by
    subst hw
    refine ⟨?_, ?_, ?_, ?_, ?_, ?_, ?_, ?_, ?_⟩ <;> simp (disch := decide) only [bits, BitVec.extractLsb'_append_eq_of_le, BitVec.extractLsb'_append_eq_of_add_le,
      BitVec.extractLsb'_eq_self, Nat.reduceSub] <;> rfl
  obtain ⟨f1, f2, g0, g1, g2, g3, g4, g5, g6⟩ := f
  unfold decodeRow; rw [f1]; show decodeRowM w = _
  unfold decodeRowM; rw [f2]
  show (if bits w 8 5 = 0 then some (.mmmc (bits w 18 5) (bits w 13 5) (bits w 6 2) (bits w 5 1) (bits w 4 1) (bits w 0 4)) else
    none : Option Instr) = some (.mmmc d a g x h t)
  simp only [g0, g1, g2, g3, g4, g5, g6]
  rfl
theorem mzacc (g : BitVec 2) (b : BitVec 1) (h : BitVec 1) : Statement (.mzacc g b h) := by
  intro _
  have hw : Instr.encodeWord (.mzacc g b h) = (0xcb#9 ++ 0x0#10 ++ g ++ 0x0#9 ++ b ++ h : BitVec (9+10+2+9+1+1)) := rfl
  show decodeRow (Instr.encodeWord (.mzacc g b h)) = some (.mzacc g b h)
  generalize Instr.encodeWord (.mzacc g b h) = w at hw ⊢
  have f : bits w 29 3 = 0x3#3 ∧ bits w 23 6 = 0xb#6 ∧ bits w 13 10 = 0x0#10 ∧ bits w 2 9 = 0x0#9 ∧ bits w 11 2 = g ∧ bits w 1 1
      = b ∧ bits w 0 1 = h := by
    subst hw
    refine ⟨?_, ?_, ?_, ?_, ?_, ?_, ?_⟩ <;> simp (disch := decide) only [bits, BitVec.extractLsb'_append_eq_of_le, BitVec.extractLsb'_append_eq_of_add_le,
      BitVec.extractLsb'_eq_self, Nat.reduceSub] <;> rfl
  obtain ⟨f1, f2, g0, g1, g2, g3, g4⟩ := f
  unfold decodeRow; rw [f1]; show decodeRowM w = _
  unfold decodeRowM; rw [f2]
  show (if bits w 13 10 = 0 ∧ bits w 2 9 = 0 then some (.mzacc (bits w 11 2) (bits w 1 1) (bits w 0 1)) else none : Option Instr) = some (.mzacc g b h)
  simp only [g0, g1, g2, g3, g4]
  rfl
theorem mdrn (d : BitVec 5) (a : BitVec 5) (b : BitVec 5) (g : BitVec 2) (h : BitVec 1) (s : BitVec 1) (t : BitVec 4) : Statement (.mdrn d a b g h s t) := by
  intro _
  have hw : Instr.encodeWord (.mdrn d a b g h s t) = (0xcc#9 ++ d ++ a ++ b ++ g ++ h ++ s ++ t : BitVec (9+5+5+5+2+1+1+4)) := rfl
  show decodeRow (Instr.encodeWord (.mdrn d a b g h s t)) = some (.mdrn d a b g h s t)
  generalize Instr.encodeWord (.mdrn d a b g h s t) = w at hw ⊢
  have f : bits w 29 3 = 0x3#3 ∧ bits w 23 6 = 0xc#6 ∧ bits w 18 5 = d ∧ bits w 13 5 = a ∧ bits w 8 5 = b ∧ bits w 6 2 = g ∧ bits
      w 5 1 = h ∧ bits w 4 1 = s ∧ bits w 0 4 = t := by
    subst hw
    refine ⟨?_, ?_, ?_, ?_, ?_, ?_, ?_, ?_, ?_⟩ <;> simp (disch := decide) only [bits, BitVec.extractLsb'_append_eq_of_le, BitVec.extractLsb'_append_eq_of_add_le,
      BitVec.extractLsb'_eq_self, Nat.reduceSub] <;> rfl
  obtain ⟨f1, f2, g0, g1, g2, g3, g4, g5, g6⟩ := f
  unfold decodeRow; rw [f1]; show decodeRowM w = _
  unfold decodeRowM; rw [f2]
  show (some (.mdrn (bits w 18 5) (bits w 13 5) (bits w 8 5) (bits w 6 2) (bits w 5 1) (bits w 4 1) (bits w 0 4)) : Option Instr) = some (.mdrn d a b g h s t)
  simp only [g0, g1, g2, g3, g4, g5, g6]
theorem mdrc (d : BitVec 5) (b : BitVec 5) (g : BitVec 2) (h : BitVec 1) (s : BitVec 1) (t : BitVec 4) : Statement (.mdrc d b g h s t) := by
  intro _
  have hw : Instr.encodeWord (.mdrc d b g h s t) = (0xcd#9 ++ d ++ 0x0#5 ++ b ++ g ++ h ++ s ++ t : BitVec (9+5+5+5+2+1+1+4)) := rfl
  show decodeRow (Instr.encodeWord (.mdrc d b g h s t)) = some (.mdrc d b g h s t)
  generalize Instr.encodeWord (.mdrc d b g h s t) = w at hw ⊢
  have f : bits w 29 3 = 0x3#3 ∧ bits w 23 6 = 0xd#6 ∧ bits w 13 5 = 0x0#5 ∧ bits w 18 5 = d ∧ bits w 8 5 = b ∧ bits w 6 2 = g ∧
      bits w 5 1 = h ∧ bits w 4 1 = s ∧ bits w 0 4 = t := by
    subst hw
    refine ⟨?_, ?_, ?_, ?_, ?_, ?_, ?_, ?_, ?_⟩ <;> simp (disch := decide) only [bits, BitVec.extractLsb'_append_eq_of_le, BitVec.extractLsb'_append_eq_of_add_le,
      BitVec.extractLsb'_eq_self, Nat.reduceSub] <;> rfl
  obtain ⟨f1, f2, g0, g1, g2, g3, g4, g5, g6⟩ := f
  unfold decodeRow; rw [f1]; show decodeRowM w = _
  unfold decodeRowM; rw [f2]
  show (if bits w 13 5 = 0 then some (.mdrc (bits w 18 5) (bits w 8 5) (bits w 6 2) (bits w 5 1) (bits w 4 1) (bits w 0 4)) else
    none : Option Instr) = some (.mdrc d b g h s t)
  simp only [g0, g1, g2, g3, g4, g5, g6]
  rfl
theorem mamax (a : BitVec 5) (g : BitVec 2) (h : BitVec 1) : Statement (.mamax a g h) := by
  intro _
  have hw : Instr.encodeWord (.mamax a g h) = (0xce#9 ++ 0x0#5 ++ a ++ 0x0#5 ++ g ++ h ++ 0x0#5 : BitVec (9+5+5+5+2+1+5)) := rfl
  show decodeRow (Instr.encodeWord (.mamax a g h)) = some (.mamax a g h)
  generalize Instr.encodeWord (.mamax a g h) = w at hw ⊢
  have f : bits w 29 3 = 0x3#3 ∧ bits w 23 6 = 0xe#6 ∧ bits w 18 5 = 0x0#5 ∧ bits w 8 5 = 0x0#5 ∧ bits w 0 5 = 0x0#5 ∧ bits w 13
      5 = a ∧ bits w 6 2 = g ∧ bits w 5 1 = h := by
    subst hw
    refine ⟨?_, ?_, ?_, ?_, ?_, ?_, ?_, ?_⟩ <;> simp (disch := decide) only [bits, BitVec.extractLsb'_append_eq_of_le, BitVec.extractLsb'_append_eq_of_add_le,
      BitVec.extractLsb'_eq_self, Nat.reduceSub] <;> rfl
  obtain ⟨f1, f2, g0, g1, g2, g3, g4, g5⟩ := f
  unfold decodeRow; rw [f1]; show decodeRowM w = _
  unfold decodeRowM; rw [f2]
  show (if bits w 18 5 = 0 ∧ bits w 8 5 = 0 ∧ bits w 0 5 = 0 then some (.mamax (bits w 13 5) (bits w 6 2) (bits w 5 1)) else
    none : Option Instr) = some (.mamax a g h)
  simp only [g0, g1, g2, g3, g4, g5]
  rfl
theorem mmqclr : Statement .mmqclr := by
  intro _
  have hw : Instr.encodeWord .mmqclr = (0xcf#9 ++ 0x0#23 : BitVec (9+23)) := rfl
  show decodeRow (Instr.encodeWord .mmqclr) = some .mmqclr
  generalize Instr.encodeWord .mmqclr = w at hw ⊢
  have f : bits w 29 3 = 0x3#3 ∧ bits w 23 6 = 0xf#6 ∧ bits w 0 23 = 0x0#23 := by
    subst hw
    refine ⟨?_, ?_, ?_⟩ <;> simp (disch := decide) only [bits, BitVec.extractLsb'_append_eq_of_le, BitVec.extractLsb'_append_eq_of_add_le,
      BitVec.extractLsb'_eq_self, Nat.reduceSub] <;> rfl
  obtain ⟨f1, f2, g0⟩ := f
  unfold decodeRow; rw [f1]; show decodeRowM w = _
  unfold decodeRowM; rw [f2]
  show (if bits w 0 23 = 0 then some (.mmqclr) else none : Option Instr) = some .mmqclr
  simp only [g0]
  rfl
theorem cnest (d : BitVec 5) (a : BitVec 5) (b : BitVec 5) (c : BitVec 2) : Statement (.cnest d a b c) := by
  intro _
  have hw : Instr.encodeWord (.cnest d a b c) = (0x100#9 ++ d ++ a ++ b ++ c ++ 0x0#6 : BitVec (9+5+5+5+2+6)) := rfl
  show decodeRow (Instr.encodeWord (.cnest d a b c)) = some (.cnest d a b c)
  generalize Instr.encodeWord (.cnest d a b c) = w at hw ⊢
  have f : bits w 29 3 = 0x4#3 ∧ bits w 23 6 = 0x0#6 ∧ bits w 0 6 = 0x0#6 ∧ bits w 18 5 = d ∧ bits w 13 5 = a ∧ bits w 8 5 = b ∧
      bits w 6 2 = c := by
    subst hw
    refine ⟨?_, ?_, ?_, ?_, ?_, ?_, ?_⟩ <;> simp (disch := decide) only [bits, BitVec.extractLsb'_append_eq_of_le, BitVec.extractLsb'_append_eq_of_add_le,
      BitVec.extractLsb'_eq_self, Nat.reduceSub] <;> rfl
  obtain ⟨f1, f2, g0, g1, g2, g3, g4⟩ := f
  unfold decodeRow; rw [f1]; show decodeRowC w = _
  unfold decodeRowC; rw [f2]
  show (if bits w 0 6 = 0 then some (.cnest (bits w 18 5) (bits w 13 5) (bits w 8 5) (bits w 6 2)) else none : Option Instr) = some (.cnest d a b c)
  simp only [g0, g1, g2, g3, g4]
  rfl
theorem ccpy (d : BitVec 5) (a : BitVec 5) (b : BitVec 5) (c : BitVec 2) (v : BitVec 4) (o : BitVec 1) (s : BitVec 1) : Statement (.ccpy d a b c v o s) := by
  intro _
  have hw : Instr.encodeWord (.ccpy d a b c v o s) = (0x102#9 ++ d ++ a ++ b ++ c ++ v ++ o ++ s : BitVec (9+5+5+5+2+4+1+1)) := rfl
  show decodeRow (Instr.encodeWord (.ccpy d a b c v o s)) = some (.ccpy d a b c v o s)
  generalize Instr.encodeWord (.ccpy d a b c v o s) = w at hw ⊢
  have f : bits w 29 3 = 0x4#3 ∧ bits w 23 6 = 0x2#6 ∧ bits w 18 5 = d ∧ bits w 13 5 = a ∧ bits w 8 5 = b ∧ bits w 6 2 = c ∧ bits
      w 2 4 = v ∧ bits w 1 1 = o ∧ bits w 0 1 = s := by
    subst hw
    refine ⟨?_, ?_, ?_, ?_, ?_, ?_, ?_, ?_, ?_⟩ <;> simp (disch := decide) only [bits, BitVec.extractLsb'_append_eq_of_le, BitVec.extractLsb'_append_eq_of_add_le,
      BitVec.extractLsb'_eq_self, Nat.reduceSub] <;> rfl
  obtain ⟨f1, f2, g0, g1, g2, g3, g4, g5, g6⟩ := f
  unfold decodeRow; rw [f1]; show decodeRowC w = _
  unfold decodeRowC; rw [f2]
  show (some (.ccpy (bits w 18 5) (bits w 13 5) (bits w 8 5) (bits w 6 2) (bits w 2 4) (bits w 1 1) (bits w 0 1)) : Option Instr) = some (.ccpy d a b c v o s)
  simp only [g0, g1, g2, g3, g4, g5, g6]
theorem cst (d : BitVec 5) (a : BitVec 5) (b : BitVec 5) (c : BitVec 2) (v : BitVec 4) (o : BitVec 1) (s : BitVec 1) : Statement (.cst d a b c v o s) := by
  intro _
  have hw : Instr.encodeWord (.cst d a b c v o s) = (0x103#9 ++ d ++ a ++ b ++ c ++ v ++ o ++ s : BitVec (9+5+5+5+2+4+1+1)) := rfl
  show decodeRow (Instr.encodeWord (.cst d a b c v o s)) = some (.cst d a b c v o s)
  generalize Instr.encodeWord (.cst d a b c v o s) = w at hw ⊢
  have f : bits w 29 3 = 0x4#3 ∧ bits w 23 6 = 0x3#6 ∧ bits w 18 5 = d ∧ bits w 13 5 = a ∧ bits w 8 5 = b ∧ bits w 6 2 = c ∧ bits
      w 2 4 = v ∧ bits w 1 1 = o ∧ bits w 0 1 = s := by
    subst hw
    refine ⟨?_, ?_, ?_, ?_, ?_, ?_, ?_, ?_, ?_⟩ <;> simp (disch := decide) only [bits, BitVec.extractLsb'_append_eq_of_le, BitVec.extractLsb'_append_eq_of_add_le,
      BitVec.extractLsb'_eq_self, Nat.reduceSub] <;> rfl
  obtain ⟨f1, f2, g0, g1, g2, g3, g4, g5, g6⟩ := f
  unfold decodeRow; rw [f1]; show decodeRowC w = _
  unfold decodeRowC; rw [f2]
  show (some (.cst (bits w 18 5) (bits w 13 5) (bits w 8 5) (bits w 6 2) (bits w 2 4) (bits w 1 1) (bits w 0 1)) : Option Instr) = some (.cst d a b c v o s)
  simp only [g0, g1, g2, g3, g4, g5, g6]
theorem ccpys (d : BitVec 5) (a : BitVec 5) (b : BitVec 5) (c : BitVec 2) (v : BitVec 4) (o : BitVec 1) (s : BitVec 1) : Statement (.ccpys d a b c v o s) := by
  intro _
  have hw : Instr.encodeWord (.ccpys d a b c v o s) = (0x104#9 ++ d ++ a ++ b ++ c ++ v ++ o ++ s : BitVec (9+5+5+5+2+4+1+1)) := rfl
  show decodeRow (Instr.encodeWord (.ccpys d a b c v o s)) = some (.ccpys d a b c v o s)
  generalize Instr.encodeWord (.ccpys d a b c v o s) = w at hw ⊢
  have f : bits w 29 3 = 0x4#3 ∧ bits w 23 6 = 0x4#6 ∧ bits w 18 5 = d ∧ bits w 13 5 = a ∧ bits w 8 5 = b ∧ bits w 6 2 = c ∧ bits
      w 2 4 = v ∧ bits w 1 1 = o ∧ bits w 0 1 = s := by
    subst hw
    refine ⟨?_, ?_, ?_, ?_, ?_, ?_, ?_, ?_, ?_⟩ <;> simp (disch := decide) only [bits, BitVec.extractLsb'_append_eq_of_le, BitVec.extractLsb'_append_eq_of_add_le,
      BitVec.extractLsb'_eq_self, Nat.reduceSub] <;> rfl
  obtain ⟨f1, f2, g0, g1, g2, g3, g4, g5, g6⟩ := f
  unfold decodeRow; rw [f1]; show decodeRowC w = _
  unfold decodeRowC; rw [f2]
  show (some (.ccpys (bits w 18 5) (bits w 13 5) (bits w 8 5) (bits w 6 2) (bits w 2 4) (bits w 1 1) (bits w 0 1)) : Option Instr) = some (.ccpys d a b c v o s)
  simp only [g0, g1, g2, g3, g4, g5, g6]
theorem cmc (d : BitVec 5) (a : BitVec 5) (b : BitVec 5) (c : BitVec 2) (v : BitVec 4) (o : BitVec 1) (s : BitVec 1) : Statement (.cmc d a b c v o s) := by
  intro _
  have hw : Instr.encodeWord (.cmc d a b c v o s) = (0x105#9 ++ d ++ a ++ b ++ c ++ v ++ o ++ s : BitVec (9+5+5+5+2+4+1+1)) := rfl
  show decodeRow (Instr.encodeWord (.cmc d a b c v o s)) = some (.cmc d a b c v o s)
  generalize Instr.encodeWord (.cmc d a b c v o s) = w at hw ⊢
  have f : bits w 29 3 = 0x4#3 ∧ bits w 23 6 = 0x5#6 ∧ bits w 18 5 = d ∧ bits w 13 5 = a ∧ bits w 8 5 = b ∧ bits w 6 2 = c ∧ bits
      w 2 4 = v ∧ bits w 1 1 = o ∧ bits w 0 1 = s := by
    subst hw
    refine ⟨?_, ?_, ?_, ?_, ?_, ?_, ?_, ?_, ?_⟩ <;> simp (disch := decide) only [bits, BitVec.extractLsb'_append_eq_of_le, BitVec.extractLsb'_append_eq_of_add_le,
      BitVec.extractLsb'_eq_self, Nat.reduceSub] <;> rfl
  obtain ⟨f1, f2, g0, g1, g2, g3, g4, g5, g6⟩ := f
  unfold decodeRow; rw [f1]; show decodeRowC w = _
  unfold decodeRowC; rw [f2]
  show (some (.cmc (bits w 18 5) (bits w 13 5) (bits w 8 5) (bits w 6 2) (bits w 2 4) (bits w 1 1) (bits w 0 1)) : Option Instr) = some (.cmc d a b c v o s)
  simp only [g0, g1, g2, g3, g4, g5, g6]
theorem cgth (d : BitVec 5) (a : BitVec 5) (b : BitVec 5) (c : BitVec 2) (v : BitVec 4) (o : BitVec 1) (s : BitVec 1) : Statement (.cgth d a b c v o s) := by
  intro _
  have hw : Instr.encodeWord (.cgth d a b c v o s) = (0x106#9 ++ d ++ a ++ b ++ c ++ v ++ o ++ s : BitVec (9+5+5+5+2+4+1+1)) := rfl
  show decodeRow (Instr.encodeWord (.cgth d a b c v o s)) = some (.cgth d a b c v o s)
  generalize Instr.encodeWord (.cgth d a b c v o s) = w at hw ⊢
  have f : bits w 29 3 = 0x4#3 ∧ bits w 23 6 = 0x6#6 ∧ bits w 18 5 = d ∧ bits w 13 5 = a ∧ bits w 8 5 = b ∧ bits w 6 2 = c ∧ bits
      w 2 4 = v ∧ bits w 1 1 = o ∧ bits w 0 1 = s := by
    subst hw
    refine ⟨?_, ?_, ?_, ?_, ?_, ?_, ?_, ?_, ?_⟩ <;> simp (disch := decide) only [bits, BitVec.extractLsb'_append_eq_of_le, BitVec.extractLsb'_append_eq_of_add_le,
      BitVec.extractLsb'_eq_self, Nat.reduceSub] <;> rfl
  obtain ⟨f1, f2, g0, g1, g2, g3, g4, g5, g6⟩ := f
  unfold decodeRow; rw [f1]; show decodeRowC w = _
  unfold decodeRowC; rw [f2]
  show (some (.cgth (bits w 18 5) (bits w 13 5) (bits w 8 5) (bits w 6 2) (bits w 2 4) (bits w 1 1) (bits w 0 1)) : Option Instr) = some (.cgth d a b c v o s)
  simp only [g0, g1, g2, g3, g4, g5, g6]
theorem copf (d : BitVec 5) (a : BitVec 5) (b : BitVec 5) (c : BitVec 2) (v : BitVec 4) (o : BitVec 1) (s : BitVec 1) : Statement (.copf d a b c v o s) := by
  intro _
  have hw : Instr.encodeWord (.copf d a b c v o s) = (0x107#9 ++ d ++ a ++ b ++ c ++ v ++ o ++ s : BitVec (9+5+5+5+2+4+1+1)) := rfl
  show decodeRow (Instr.encodeWord (.copf d a b c v o s)) = some (.copf d a b c v o s)
  generalize Instr.encodeWord (.copf d a b c v o s) = w at hw ⊢
  have f : bits w 29 3 = 0x4#3 ∧ bits w 23 6 = 0x7#6 ∧ bits w 18 5 = d ∧ bits w 13 5 = a ∧ bits w 8 5 = b ∧ bits w 6 2 = c ∧ bits
      w 2 4 = v ∧ bits w 1 1 = o ∧ bits w 0 1 = s := by
    subst hw
    refine ⟨?_, ?_, ?_, ?_, ?_, ?_, ?_, ?_, ?_⟩ <;> simp (disch := decide) only [bits, BitVec.extractLsb'_append_eq_of_le, BitVec.extractLsb'_append_eq_of_add_le,
      BitVec.extractLsb'_eq_self, Nat.reduceSub] <;> rfl
  obtain ⟨f1, f2, g0, g1, g2, g3, g4, g5, g6⟩ := f
  unfold decodeRow; rw [f1]; show decodeRowC w = _
  unfold decodeRowC; rw [f2]
  show (some (.copf (bits w 18 5) (bits w 13 5) (bits w 8 5) (bits w 6 2) (bits w 2 4) (bits w 1 1) (bits w 0 1)) : Option Instr) = some (.copf d a b c v o s)
  simp only [g0, g1, g2, g3, g4, g5, g6]
theorem cmeta (d : BitVec 5) (a : BitVec 5) (b : BitVec 5) (c : BitVec 2) (o : BitVec 1) : Statement (.cmeta d a b c o) := by
  intro _
  have hw : Instr.encodeWord (.cmeta d a b c o) = (0x108#9 ++ d ++ a ++ b ++ c ++ 0x0#4 ++ o ++ 0x0#1 : BitVec (9+5+5+5+2+4+1+1)) := rfl
  show decodeRow (Instr.encodeWord (.cmeta d a b c o)) = some (.cmeta d a b c o)
  generalize Instr.encodeWord (.cmeta d a b c o) = w at hw ⊢
  have f : bits w 29 3 = 0x4#3 ∧ bits w 23 6 = 0x8#6 ∧ bits w 2 4 = 0x0#4 ∧ bits w 0 1 = 0x0#1 ∧ bits w 18 5 = d ∧ bits w 13 5 =
      a ∧ bits w 8 5 = b ∧ bits w 6 2 = c ∧ bits w 1 1 = o := by
    subst hw
    refine ⟨?_, ?_, ?_, ?_, ?_, ?_, ?_, ?_, ?_⟩ <;> simp (disch := decide) only [bits, BitVec.extractLsb'_append_eq_of_le, BitVec.extractLsb'_append_eq_of_add_le,
      BitVec.extractLsb'_eq_self, Nat.reduceSub] <;> rfl
  obtain ⟨f1, f2, g0, g1, g2, g3, g4, g5, g6⟩ := f
  unfold decodeRow; rw [f1]; show decodeRowC w = _
  unfold decodeRowC; rw [f2]
  show (if bits w 2 4 = 0 ∧ bits w 0 1 = 0 then some (.cmeta (bits w 18 5) (bits w 13 5) (bits w 8 5) (bits w 6 2) (bits w 1 1))
    else none : Option Instr) = some (.cmeta d a b c o)
  simp only [g0, g1, g2, g3, g4, g5, g6]
  rfl
theorem cred (d : BitVec 5) (a : BitVec 5) (b : BitVec 5) (c : BitVec 2) (p : BitVec 4) (o : BitVec 1) : Statement (.cred d a b c p o) := by
  intro _
  have hw : Instr.encodeWord (.cred d a b c p o) = (0x109#9 ++ d ++ a ++ b ++ c ++ p ++ o ++ 0x0#1 : BitVec (9+5+5+5+2+4+1+1)) := rfl
  show decodeRow (Instr.encodeWord (.cred d a b c p o)) = some (.cred d a b c p o)
  generalize Instr.encodeWord (.cred d a b c p o) = w at hw ⊢
  have f : bits w 29 3 = 0x4#3 ∧ bits w 23 6 = 0x9#6 ∧ bits w 0 1 = 0x0#1 ∧ bits w 18 5 = d ∧ bits w 13 5 = a ∧ bits w 8 5 = b ∧
      bits w 6 2 = c ∧ bits w 2 4 = p ∧ bits w 1 1 = o := by
    subst hw
    refine ⟨?_, ?_, ?_, ?_, ?_, ?_, ?_, ?_, ?_⟩ <;> simp (disch := decide) only [bits, BitVec.extractLsb'_append_eq_of_le, BitVec.extractLsb'_append_eq_of_add_le,
      BitVec.extractLsb'_eq_self, Nat.reduceSub] <;> rfl
  obtain ⟨f1, f2, g0, g1, g2, g3, g4, g5, g6⟩ := f
  unfold decodeRow; rw [f1]; show decodeRowC w = _
  unfold decodeRowC; rw [f2]
  show (if bits w 0 1 = 0 then some (.cred (bits w 18 5) (bits w 13 5) (bits w 8 5) (bits w 6 2) (bits w 2 4) (bits w 1 1)) else
    none : Option Instr) = some (.cred d a b c p o)
  simp only [g0, g1, g2, g3, g4, g5, g6]
  rfl
theorem cset (d : BitVec 5) (a : BitVec 5) (b : BitVec 5) (c : BitVec 2) (o : BitVec 1) : Statement (.cset d a b c o) := by
  intro _
  have hw : Instr.encodeWord (.cset d a b c o) = (0x10a#9 ++ d ++ a ++ b ++ c ++ 0x0#4 ++ o ++ 0x0#1 : BitVec (9+5+5+5+2+4+1+1)) := rfl
  show decodeRow (Instr.encodeWord (.cset d a b c o)) = some (.cset d a b c o)
  generalize Instr.encodeWord (.cset d a b c o) = w at hw ⊢
  have f : bits w 29 3 = 0x4#3 ∧ bits w 23 6 = 0xa#6 ∧ bits w 2 4 = 0x0#4 ∧ bits w 0 1 = 0x0#1 ∧ bits w 18 5 = d ∧ bits w 13 5 =
      a ∧ bits w 8 5 = b ∧ bits w 6 2 = c ∧ bits w 1 1 = o := by
    subst hw
    refine ⟨?_, ?_, ?_, ?_, ?_, ?_, ?_, ?_, ?_⟩ <;> simp (disch := decide) only [bits, BitVec.extractLsb'_append_eq_of_le, BitVec.extractLsb'_append_eq_of_add_le,
      BitVec.extractLsb'_eq_self, Nat.reduceSub] <;> rfl
  obtain ⟨f1, f2, g0, g1, g2, g3, g4, g5, g6⟩ := f
  unfold decodeRow; rw [f1]; show decodeRowC w = _
  unfold decodeRowC; rw [f2]
  show (if bits w 2 4 = 0 ∧ bits w 0 1 = 0 then some (.cset (bits w 18 5) (bits w 13 5) (bits w 8 5) (bits w 6 2) (bits w 1 1))
    else none : Option Instr) = some (.cset d a b c o)
  simp only [g0, g1, g2, g3, g4, g5, g6]
  rfl
theorem crem (d : BitVec 5) (a : BitVec 5) (b : BitVec 5) (c : BitVec 2) (v : BitVec 4) (o : BitVec 1) (s : BitVec 1) : Statement (.crem d a b c v o s) := by
  intro _
  have hw : Instr.encodeWord (.crem d a b c v o s) = (0x10b#9 ++ d ++ a ++ b ++ c ++ v ++ o ++ s : BitVec (9+5+5+5+2+4+1+1)) := rfl
  show decodeRow (Instr.encodeWord (.crem d a b c v o s)) = some (.crem d a b c v o s)
  generalize Instr.encodeWord (.crem d a b c v o s) = w at hw ⊢
  have f : bits w 29 3 = 0x4#3 ∧ bits w 23 6 = 0xb#6 ∧ bits w 18 5 = d ∧ bits w 13 5 = a ∧ bits w 8 5 = b ∧ bits w 6 2 = c ∧ bits
      w 2 4 = v ∧ bits w 1 1 = o ∧ bits w 0 1 = s := by
    subst hw
    refine ⟨?_, ?_, ?_, ?_, ?_, ?_, ?_, ?_, ?_⟩ <;> simp (disch := decide) only [bits, BitVec.extractLsb'_append_eq_of_le, BitVec.extractLsb'_append_eq_of_add_le,
      BitVec.extractLsb'_eq_self, Nat.reduceSub] <;> rfl
  obtain ⟨f1, f2, g0, g1, g2, g3, g4, g5, g6⟩ := f
  unfold decodeRow; rw [f1]; show decodeRowC w = _
  unfold decodeRowC; rw [f2]
  show (some (.crem (bits w 18 5) (bits w 13 5) (bits w 8 5) (bits w 6 2) (bits w 2 4) (bits w 1 1) (bits w 0 1)) : Option Instr) = some (.crem d a b c v o s)
  simp only [g0, g1, g2, g3, g4, g5, g6]
theorem cpro (d : BitVec 5) (a : BitVec 5) (b : BitVec 5) (c : BitVec 2) (o : BitVec 1) : Statement (.cpro d a b c o) := by
  intro _
  have hw : Instr.encodeWord (.cpro d a b c o) = (0x10c#9 ++ d ++ a ++ b ++ c ++ 0x0#4 ++ o ++ 0x0#1 : BitVec (9+5+5+5+2+4+1+1)) := rfl
  show decodeRow (Instr.encodeWord (.cpro d a b c o)) = some (.cpro d a b c o)
  generalize Instr.encodeWord (.cpro d a b c o) = w at hw ⊢
  have f : bits w 29 3 = 0x4#3 ∧ bits w 23 6 = 0xc#6 ∧ bits w 2 4 = 0x0#4 ∧ bits w 0 1 = 0x0#1 ∧ bits w 18 5 = d ∧ bits w 13 5 =
      a ∧ bits w 8 5 = b ∧ bits w 6 2 = c ∧ bits w 1 1 = o := by
    subst hw
    refine ⟨?_, ?_, ?_, ?_, ?_, ?_, ?_, ?_, ?_⟩ <;> simp (disch := decide) only [bits, BitVec.extractLsb'_append_eq_of_le, BitVec.extractLsb'_append_eq_of_add_le,
      BitVec.extractLsb'_eq_self, Nat.reduceSub] <;> rfl
  obtain ⟨f1, f2, g0, g1, g2, g3, g4, g5, g6⟩ := f
  unfold decodeRow; rw [f1]; show decodeRowC w = _
  unfold decodeRowC; rw [f2]
  show (if bits w 2 4 = 0 ∧ bits w 0 1 = 0 then some (.cpro (bits w 18 5) (bits w 13 5) (bits w 8 5) (bits w 6 2) (bits w 1 1))
    else none : Option Instr) = some (.cpro d a b c o)
  simp only [g0, g1, g2, g3, g4, g5, g6]
  rfl
theorem vResultLand : Statement .vResultLand := fun h => absurd rfl h
theorem copyCommandStart : Statement .copyCommandStart := fun h => absurd rfl h
theorem sectorLands : Statement .sectorLands := fun h => absurd rfl h
theorem copyCommandComplete : Statement .copyCommandComplete := fun h => absurd rfl h
theorem takeTrap : Statement .takeTrap := fun h => absurd rfl h
theorem waitTimeout : Statement .waitTimeout := fun h => absurd rfl h
theorem vStallTimeout : Statement .vStallTimeout := fun h => absurd rfl h
theorem escrowWaitTimeout : Statement .escrowWaitTimeout := fun h => absurd rfl h
theorem linkstall : Statement .linkstall := fun h => absurd rfl h
theorem sleepExpiry : Statement .sleepExpiry := fun h => absurd rfl h
theorem loadDataArrive : Statement .loadDataArrive := fun h => absurd rfl h
theorem inheritMessage : Statement .inheritMessage := fun h => absurd rfl h
theorem atomicApply : Statement .atomicApply := fun h => absurd rfl h
theorem slicePeriod : Statement .slicePeriod := fun h => absurd rfl h
theorem urgentPromotion : Statement .urgentPromotion := fun h => absurd rfl h
theorem tellerGrant : Statement .tellerGrant := fun h => absurd rfl h
theorem stripRundownEnd : Statement .stripRundownEnd := fun h => absurd rfl h
theorem stripScrubComplete : Statement .stripScrubComplete := fun h => absurd rfl h
theorem fragmentSaveComplete : Statement .fragmentSaveComplete := fun h => absurd rfl h
theorem nestComplete : Statement .nestComplete := fun h => absurd rfl h
theorem lnqTailWrite : Statement .lnqTailWrite := fun h => absurd rfl h
theorem gangAccept : Statement .gangAccept := fun h => absurd rfl h
theorem recordFinish : Statement .recordFinish := fun h => absurd rfl h
theorem leaseMapped : Statement .leaseMapped := fun h => absurd rfl h
theorem gangStart : Statement .gangStart := fun h => absurd rfl h
theorem clearingComplete : Statement .clearingComplete := fun h => absurd rfl h
theorem preemptGang : Statement .preemptGang := fun h => absurd rfl h
theorem gangSaveComplete : Statement .gangSaveComplete := fun h => absurd rfl h
theorem gangRestore : Statement .gangRestore := fun h => absurd rfl h
theorem checkerMismatch : Statement .checkerMismatch := fun h => absurd rfl h
theorem residueMismatch : Statement .residueMismatch := fun h => absurd rfl h
theorem taskDiscard : Statement .taskDiscard := fun h => absurd rfl h
theorem scrubLine : Statement .scrubLine := fun h => absurd rfl h
theorem tileFetch : Statement .tileFetch := fun h => absurd rfl h
theorem fetchComplete : Statement .fetchComplete := fun h => absurd rfl h
theorem escrowApply : Statement .escrowApply := fun h => absurd rfl h
theorem deferredAppend : Statement .deferredAppend := fun h => absurd rfl h
theorem hwFramePut : Statement .hwFramePut := fun h => absurd rfl h
theorem drawerSlotSend : Statement .drawerSlotSend := fun h => absurd rfl h
theorem drawerReadReturn : Statement .drawerReadReturn := fun h => absurd rfl h
theorem drawerWriteComplete : Statement .drawerWriteComplete := fun h => absurd rfl h
theorem dlEnable : Statement .dlEnable := fun h => absurd rfl h
theorem dlDisable : Statement .dlDisable := fun h => absurd rfl h
theorem dlRetrain : Statement .dlRetrain := fun h => absurd rfl h
theorem lanesLocked : Statement .lanesLocked := fun h => absurd rfl h
theorem lockLoss : Statement .lockLoss := fun h => absurd rfl h
theorem trainingTimeout : Statement .trainingTimeout := fun h => absurd rfl h
theorem tuningTimeout : Statement .tuningTimeout := fun h => absurd rfl h
theorem phOwnWrite : Statement .phOwnWrite := fun h => absurd rfl h
theorem allowancePeriod : Statement .allowancePeriod := fun h => absurd rfl h
theorem leaveGrant : Statement .leaveGrant := fun h => absurd rfl h
theorem leaveAgeing : Statement .leaveAgeing := fun h => absurd rfl h
theorem leaveSettle : Statement .leaveSettle := fun h => absurd rfl h
theorem activityPeriod : Statement .activityPeriod := fun h => absurd rfl h
theorem dieSramWrite : Statement .dieSramWrite := fun h => absurd rfl h
theorem eccModeChangeDone : Statement .eccModeChangeDone := fun h => absurd rfl h
theorem cluOpWrite : Statement .cluOpWrite := fun h => absurd rfl h
theorem opPointChange : Statement .opPointChange := fun h => absurd rfl h
theorem svcCtlWrite : Statement .svcCtlWrite := fun h => absurd rfl h
theorem svcTinvWrite : Statement .svcTinvWrite := fun h => absurd rfl h
theorem nfPut : Statement .nfPut := fun h => absurd rfl h
theorem nfDrop : Statement .nfDrop := fun h => absurd rfl h
theorem nfBaseWrite : Statement .nfBaseWrite := fun h => absurd rfl h
theorem hostMemRead : Statement .hostMemRead := fun h => absurd rfl h
theorem hostMemWrite : Statement .hostMemWrite := fun h => absurd rfl h
theorem hostSnoop : Statement .hostSnoop := fun h => absurd rfl h
theorem peerLeaseRequest : Statement .peerLeaseRequest := fun h => absurd rfl h
theorem peerLeaseReply : Statement .peerLeaseReply := fun h => absurd rfl h
theorem handleRecall : Statement .handleRecall := fun h => absurd rfl h
theorem peerAccess : Statement .peerAccess := fun h => absurd rfl h
theorem fabricTimeout : Statement .fabricTimeout := fun h => absurd rfl h
theorem cremSectorArrive : Statement .cremSectorArrive := fun h => absurd rfl h
theorem cremAck : Statement .cremAck := fun h => absurd rfl h
theorem holdNotice : Statement .holdNotice := fun h => absurd rfl h
theorem collectiveResult : Statement .collectiveResult := fun h => absurd rfl h
theorem rxwWrite : Statement .rxwWrite := fun h => absurd rfl h
theorem fgiWrite : Statement .fgiWrite := fun h => absurd rfl h
theorem ntfWrite : Statement .ntfWrite := fun h => absurd rfl h
theorem bmxClr : Statement .bmxClr := fun h => absurd rfl h
theorem escRdxWrite : Statement .escRdxWrite := fun h => absurd rfl h
theorem deviceReset : Statement .deviceReset := fun h => absurd rfl h
theorem firmwareVerify : Statement .firmwareVerify := fun h => absurd rfl h
theorem loadComplete : Statement .loadComplete := fun h => absurd rfl h
theorem brsStatUpd : Statement .brsStatUpd := fun h => absurd rfl h
theorem brsTuneWrite : Statement .brsTuneWrite := fun h => absurd rfl h
theorem attCtlGo : Statement .attCtlGo := fun h => absurd rfl h
theorem attSignDone : Statement .attSignDone := fun h => absurd rfl h
theorem dbgStop : Statement .dbgStop := fun h => absurd rfl h
theorem dbgRelease : Statement .dbgRelease := fun h => absurd rfl h
theorem dbgSetTrcDbg : Statement .dbgSetTrcDbg := fun h => absurd rfl h
theorem dbgClearTrcDbg : Statement .dbgClearTrcDbg := fun h => absurd rfl h
theorem registerWrite : Statement .registerWrite := fun h => absurd rfl h
theorem registerRead : Statement .registerRead := fun h => absurd rfl h
theorem homeSliceWrite : Statement .homeSliceWrite := fun h => absurd rfl h
theorem remoteRequestArrive : Statement .remoteRequestArrive := fun h => absurd rfl h
theorem schedulerReply : Statement .schedulerReply := fun h => absurd rfl h
theorem sramRailSettled : Statement .sramRailSettled := fun h => absurd rfl h
theorem linkReplay : Statement .linkReplay := fun h => absurd rfl h
theorem hostStoreAck : Statement .hostStoreAck := fun h => absurd rfl h
theorem peerLeaseRelease : Statement .peerLeaseRelease := fun h => absurd rfl h

end Sys2Proof.Laws.RowOfEncode
end

