-- ==== Sys2Proof/Laws/Tab.lean ====
section
/-!
SUPPORT. Sparse tables: what a read gives after a write.
-/

set_option Elab.async false

namespace Sys2Proof.Tab

@[simp] theorem get_set_self {α : Type} (d : α) (m : Tab α) (k : Nat) (x : α) : Tab.get d (Tab.set m k x) k = x := by
  induction m with
  | nil => simp [Tab.set, Tab.get]
  | cons p r ih =>
    obtain ⟨j, v⟩ := p
    by_cases h : k = j
    · simp [Tab.set, Tab.get, h]
    · by_cases h2 : k < j
      · simp [Tab.set, Tab.get, h, h2]
      · simp [Tab.set, Tab.get, h, h2, ih]

theorem get_set_ne {α : Type} (d : α) (m : Tab α) (k n : Nat) (x : α) (hn : n ≠ k) :
    Tab.get d (Tab.set m k x) n = Tab.get d m n := by
  induction m with
  | nil => simp [Tab.set, Tab.get, hn]
  | cons p r ih =>
    obtain ⟨j, v⟩ := p
    by_cases h : k = j
    · subst h; simp [Tab.set, Tab.get, hn]
    · by_cases h2 : k < j
      · simp [Tab.set, Tab.get, h, h2, hn]
      · simp [Tab.set, Tab.get, h, h2, ih]

theorem get_set {α : Type} (d : α) (m : Tab α) (k n : Nat) (x : α) :
    Tab.get d (Tab.set m k x) n = if n = k then x else Tab.get d m n := by
  by_cases h : n = k
  · subst h; simp
  · simp [h, get_set_ne]

@[simp] theorem find_set_self {α : Type} (m : Tab α) (k : Nat) (x : α) : Tab.find (Tab.set m k x) k = some x := by
  induction m with
  | nil => simp [Tab.set, Tab.find]
  | cons p r ih =>
    obtain ⟨j, v⟩ := p
    by_cases h : k = j
    · simp [Tab.set, Tab.find, h]
    · by_cases h2 : k < j
      · simp [Tab.set, Tab.find, h, h2]
      · simp [Tab.set, Tab.find, h, h2, ih]

theorem find_set_ne {α : Type} (m : Tab α) (k n : Nat) (x : α) (hn : n ≠ k) : Tab.find (Tab.set m k x) n = Tab.find m n := by
  induction m with
  | nil => simp [Tab.set, Tab.find, hn]
  | cons p r ih =>
    obtain ⟨j, v⟩ := p
    by_cases h : k = j
    · subst h; simp [Tab.set, Tab.find, hn]
    · by_cases h2 : k < j
      · simp [Tab.set, Tab.find, h, h2, hn]
      · simp [Tab.set, Tab.find, h, h2, ih]

end Sys2Proof.Tab
end

