-- ==== Sys2Proof/Tests/Slice0.lean ====
section
/-!
SUPPORT. Small tests of the model: well-formedness, words written out from the spec, single steps, and for each statement a state and
operands that meet its hypotheses.
-/

set_option Elab.async false

namespace Sys2Proof.Tests

open Sys2Proof Machine

/-! ### Small states -/

/-- A word as the splitter hands it on: thread 0 of core 0, at address 0, number 0, task 1. -/
def word (i : Instr) : QEntry := { QEntry.blank with ins := i, task := 1 }

/-- The package with the thread `th`, its task and its group, and the word `i` at hand; at the front, or at the head of a queue. -/
def atWord (front : Bool) (th : Thread) (i : Instr) : State :=
  { State.reset.withRunning 0 with
    threads := [th], cur := { c := 0, t := 0, front := front, e := word i, ev := none, unit := none, stalled := false } }

/-- A device step at hand. -/
def atStep (s : State) (e : Event) : State := s.atEvent e

/-- A thread whose `vsq` and `asq` hold a value each. -/
def fed : Thread := { Thread.blank with q := { Thread.blank.q with vsq := [QE.now 5 0], asq := [QE.now 7 0] } }

theorem atFront_word (th : Thread) (i : Instr) (hc : th.c = 0) (ht : th.t = 0) (hm : th.Calm) : AtFront (atWord true th i) th :=
  ⟨by simp [State.thread?, atWord, hc, ht], rfl, hm⟩

/-! ### Well-formedness: an ill-formed term for each check, beside terms at the boundary that pass -/

/-- Reserved values of small fields: WFLD k, loop lengths, CSR addresses, k pairs and dimensions, MNEST levels, modes, guards (02 R52). -/
theorem test_ill_small_fields : ∀ i ∈ ([.wfld 1 2 6, .loop 1 0, .loop 1 65, .loopi 1 0, .loopi 1 65, .csrr 1 0x00F, .csrr 1 0x023, .csrw 1 0x036,
    .csrx 1 2 0x04B, .csrs 1 2 0x057, .csrc 1 2 0x059, .kset 1 2 3, .kaddi 1 1 0 6 none, .mnest 1 2 6, .mconf 3, .mzacc 3 0 0, .mzacc 0 1 1,
    .fence 6 1, .fence 0 0] : List Instr), i.wellFormed = false := by decide
theorem test_well_small_fields : ∀ i ∈ ([.wfld 1 2 5, .loop 1 1, .loop 1 64, .loopi 1 1, .loopi 1 64, .csrr 1 0x010, .csrr 1 0x022, .csrw 1 0x035,
    .csrx 1 2 0x04A, .csrs 1 2 0x056, .csrc 1 2 0x058, .kset 1 2 2, .kaddi 1 1 0 5 none, .mnest 1 2 5, .mconf 2, .mzacc 2 0 0, .mzacc 0 1 0,
    .fence 5 1, .fence 0 3] : List Instr), i.wellFormed = true := by decide

/-- Scalar port fields of the s file: push ports read, pop ports written, a port both read and written (02 R48, 05 R122, R130). -/
theorem test_ill_s_ports : ∀ i ∈ ([.add 28 1 2, .add 29 1 2, .add 1 30 2, .add 1 2 31, .movhi 28 0 none, .movhi 30 0 none, .sel 1 2 3 30,
    .csrr 29 0x010, .lexit 31 0 0, .ccpy 4 8 30 0 0 0 0, .mgo 31 0] : List Instr), i.wellFormed = false := by decide
theorem test_well_s_ports : ∀ i ∈ ([.add 30 28 29, .add 31 28 28, .movhi 27 0 none, .sel 1 2 3 29, .csrr 31 0x010, .lexit 29 0 0,
    .ccpy 4 8 29 0 0 0 0, .mgo 28 29] : List Instr), i.wellFormed = true := by decide

/-- Types of V words, modifiers that they admit, mask destinations and vector ports (06 R152, R154, Tables 6.2 to 6.6). -/
theorem test_ill_v_fields : ∀ i ∈ ([.vadd 1 2 3 9 0 0, .vmulh 1 2 3 6 0, .vabs 1 2 3 0 0, .vneg 1 2 6 0 1, .vdiv 1 2 3 5 0, .vand 1 2 3 12 0,
    .vcmpeq 0 1 2 0 0 0, .vcmpun 1 2 3 5 0 0, .vcvt 1 2 0 12 0 0 0, .vcvt 1 2 1 0 6 0 0, .vcvt 1 2 0 6 5 0 1, .vqblk 1 2 1 6, .vqblk 1 2 28 6,
    .vred 1 2 6 0 0, .vred 1 2 3 6 0, .vscan 1 2 2 9 0, .vperm 1 2 3 11 0 0, .vdot4 1 2 3 1 0 0, .vdot4 1 2 3 9 0 1, .vdot2 1 2 3 0 0 0,
    .mlog 0 1 0 1 0 0, .vadd 28 1 2 0 0 0, .vadd 1 30 2 0 0 0, .vfma 30 1 2 0 0, .vdot4 31 2 3 0 0 0] : List Instr), i.wellFormed = false := by
  decide
theorem test_well_v_fields : ∀ i ∈ ([.vadd 1 2 3 8 0 0, .vmulh 1 2 3 5 0, .vabs 1 2 2 0 1, .vneg 1 2 6 0 0, .vdiv 1 2 3 6 0, .vand 1 2 3 11 0,
    .vcmpeq 7 1 2 0 0 0, .vcmpun 1 2 3 6 0 0, .vcvt 1 2 0 11 0 0 0, .vcvt 1 2 1 0 5 0 0, .vcvt 1 2 0 6 6 0 1, .vqblk 1 2 3 6, .vred 1 2 5 0 0,
    .vred 1 2 2 6 0, .vscan 1 2 2 8 0, .vperm 1 2 3 10 0 0, .vdot4 1 2 3 3 0 1, .vdot4 1 2 3 9 0 0, .vdot2 1 2 3 1 0 0, .mlog 1 1 0 1 0 0,
    .vadd 30 28 31 0 0 0, .vfma 27 29 2 0 0] : List Instr), i.wellFormed = true := by decide

/-- Fields of the access engine: a29 and a31, ports in the wrong direction, load queues, scopes, atomics' codes and pairs (02 R44, 07 R193,
R194, 11 R288). -/
theorem test_ill_a_fields : ∀ i ∈ ([.aadd 29 1 2, .aadd 1 31 2, .aadd 28 1 2, .aadd 1 30 2, .amovhi 28 0 none, .amovhi 30 0 none, .ldv 27 1 0 none,
    .ldv 30 1 0 none, .tldg 28 1 0 6, .tpf 28 0 0, .sts 30 1 0 none, .tst 1 2 0 6 0, .barv 1 2 7 0, .ldaq 1 2 0 6 0, .amo 31 1 0 0 0 0,
    .amo 1 1 0 0 0 0x17, .amo 28 1 0 0 0 0, .amoc 3 1 0 0 0 0, .amoc 28 1 0 0 0 0, .red 1 2 0 0 0 0x15, .red 1 2 1 0 0 0, .redv 1 3 0 0 0,
    .amos 1 2 3 0 0x17, .amos 1 2 3 0 0x18, .amos 31 2 3 0 0] : List Instr), i.wellFormed = false := by decide
theorem test_well_a_fields : ∀ i ∈ ([.aadd 30 28 28, .amovhi 27 0 none, .ldv 28 1 0 none, .ldv 29 1 0 none, .tldg 28 1 0 5, .tpf 27 0 0,
    .sts 28 1 0 none, .tst 1 2 0 5 0, .amo 27 1 0 0 0 0x16, .amoc 26 1 0 0 0 0, .red 1 2 2 0 0 0x14, .amos 2 2 3 0 0x19] : List Instr),
    i.wellFormed = true := by decide

/-- Fields of M and C words: matrix types, guards, endpoints, conversions and saturation, reduction codes (02 R45, 13 R333, 15 R388). -/
theorem test_ill_engine_fields : ∀ i ∈ ([.mldb 1 3 0 0 0, .mldb 1 0 0 0 1, .mmma 1 0 0 0 12, .mmms 1 3 0 0 0, .mmmc 1 1 3 0 0 0, .mdrn 3 1 2 0 0 0 0,
    .mdrn 4 1 2 0 0 0 13, .mdrc 1 2 0 0 0 7, .mamax 1 3 0, .ccpy 28 8 1 0 0 0 0, .ccpy 4 5 1 0 0 0 0, .ccpy 4 8 1 0 14 0 0, .ccpy 4 8 1 0 3 0 1,
    .cst 4 8 1 0 11 0 0, .ccpys 4 8 1 0 11 0 0, .cmc 0 8 1 0 0 0 0, .cgth 4 6 1 0 0 0 0, .copf 1 7 2 0 0 0 0, .cmeta 1 0 2 0 0,
    .cred 4 8 1 0 6 0, .cset 5 1 2 0 0, .crem 4 8 1 0 15 0 0, .cpro 25 1 2 0 0] : List Instr), i.wellFormed = false := by decide
theorem test_well_engine_fields : ∀ i ∈ ([.mldb 1 2 0 0 3, .mldb 1 0 0 0 11, .mmmc 1 1 2 0 0 0, .mdrn 4 1 2 0 0 0 12, .mamax 1 2 0,
    .ccpy 24 20 1 0 13 0 0, .ccpy 4 8 1 0 8 0 1, .cst 4 8 1 0 10 0 0, .cred 4 8 1 0 5 0, .cset 4 1 2 0 0, .cpro 24 1 2 0 0] : List Instr),
    i.wellFormed = true := by decide

/-! ### Decoding: words written out from the spec's encodings (02 Example 2.1 and the examples of chapters 4 to 22) -/

/-- S words (02 Example 2.1; 05 R126, R131, R132, R134, R136, Examples 5.1 and 5.2). -/
theorem test_words_s : decode none 0x000C8500 = .ok (.add 3 4 5) ∧ decode none 0x0210A601 = .ok (.divn 4 5 6) ∧
    decode (some 0x8D1) 0x0E196789 = .ok (.movi 6 0x16789 (some 0x8D1)) ∧ decode (some 0x2000) 0x0E980001 = .ok (.movhi 6 1 (some 0x2000)) ∧
    decode none 0x09882002 = .ok (.wfld 2 1 2) ∧ decode none 0x10841FFD = .ok (.bne 1 0 0x1FFD none) ∧
    decode none 0x15036000 = .ok (.jr 27 0 none) ∧ decode none 0x18006003 = .ok (.loop 3 3) ∧ decode none 0x18803202 = .ok (.loopi 100 2) ∧
    decode none 0x19006442 = .ok (.loops 3 4 2 2) ∧ decode none 0x1C000000 = .ok .nop ∧ decode none 0xE0048D15 = .ok (.limm 0x48D15) ∧
    decode none 0x0C906030 = .ok (.shri 4 3 48) := ⟨rfl, rfl, rfl, rfl, rfl, rfl, rfl, rfl, rfl, rfl, rfl, rfl, rfl⟩

/-- K words (04 R117, R120, R121; 14 R367, R368; 16 R422 to R426; 17 R443; 18 R454; 22 R519; 02 R55). -/
theorem test_words_k : decode none 0xC4000000 = .ok .exit ∧ decode none 0xC5004064 = .ok (.sleep 2 100) ∧ decode none 0xC5940003 = .ok (.prio 5 0 3) ∧
    decode none 0xC6000000 = .ok .esync ∧ decode none 0xC1840010 = .ok (.csrr 1 0x010) ∧ decode none 0xC2002048 = .ok (.csrw 1 0x048) ∧
    decode none 0xC0800000 = .ok .rft ∧ decode none 0xCB000000 = .ok .halt ∧ decode none 0xCA800000 = .ok .fencei ∧
    decode none 0xC7240005 = .ok (.flease 9 0 1 1) ∧ decode none 0xC7240007 = .ok (.flease 9 0 1 3) ∧ decode none 0xC7A40000 = .ok (.fret 9) ∧
    decode none 0xC814C000 = .ok (.draw 5 6 0) ∧ decode none 0xC98C4000 = .ok (.capr 3 2) :=
  ⟨rfl, rfl, rfl, rfl, rfl, rfl, rfl, rfl, rfl, rfl, rfl, rfl, rfl, rfl⟩

/-- V words (02 Example 2.1; 06 Example 6.1; 07 Example 7.1; 12 Example 12.1). -/
theorem test_words_v : decode none 0x221F8262 = .ok (.vfma 7 28 2 6 1) ∧ decode none 0x34240040 = .ok (.vmovi 9 64 none) ∧
    decode none 0x2E942680 = .ok (.vcvt 5 1 0 6 8 0 0) ∧ decode none 0x38800000 = .ok .vwait ∧ decode none 0x3198C980 = .ok (.vrot 6 6 9 8 0) ∧
    decode none 0x2914A680 = .ok (.vor 5 5 6 8 0) ∧ decode none 0x33F80020 = .ok (.viota 30 2 0) ∧
    decode none 0x200B8020 = .ok (.vadd 2 28 0 2 0 0) ∧ decode none 0x387B8060 = .ok (.vmov 30 28 6 0) := ⟨rfl, rfl, rfl, rfl, rfl, rfl, rfl, rfl, rfl⟩

/-- A words (07 Example 7.1; 08 Example 8.1; 10 Example 10.1; 12 Example 12.1). -/
theorem test_words_a : decode none 0x44840003 = .ok (.amovi 1 3 none) ∧ decode none 0x4AF82064 = .ok (.stt 1 0x64 none) ∧
    decode none 0x4A702064 = .ok (.ldt 28 1 0x64 none) ∧ decode none 0x46184001 = .ok (.lds 6 2 1 none) ∧
    decode none 0x44108001 = .ok (.aaddi 4 4 1 none) ∧ decode none 0x46904001 = .ok (.sts 4 2 1 none) ∧
    decode none 0x4C086000 = .ok (.kset 2 3 0) ∧ decode none 0x4E102202 = .ok (.tld 4 1 2 0 2) ∧ decode none 0x4F704200 = .ok (.tldv 28 2 2) ∧
    decode none 0x4D106079 = .ok (.kaddi 4 3 15 1 none) := ⟨rfl, rfl, rfl, rfl, rfl, rfl, rfl, rfl, rfl, rfl⟩

/-- Y words (07 Example 7.1; 08 Example 8.1; 09 R243, R244; 11 Example 11.1; 12 Example 12.1; 13 Example 13.1; 20 Example 20.2). -/
theorem test_words_y : decode none 0xA6000003 = .ok (.tready 3) ∧ decode none 0xA4904000 = .ok (.stef 4 2 0 0) ∧
    decode none 0xA4104000 = .ok (.ldfe 4 2 0 0) ∧ decode none 0xA1146000 = .ok (.barv 5 3 0 0) ∧ decode none 0xA2946000 = .ok (.bwait 5 3 0 0) ∧
    decode none 0xA8942270 = .ok (.strl 5 1 2 3 1) ∧ decode none 0xAA000050 = .ok (.fence 2 2) ∧
    decode none 0xAC143262 = .ok (.amo 5 1 2 2 3 2) ∧ decode none 0xAC182A62 = .ok (.amo 6 1 1 2 3 2) ∧
    decode none 0xADF80300 = .ok (.redv 0 0 3 0 0) ∧ decode none 0xAD140403 = .ok (.red 5 0 0 4 0 3) ∧
    decode none 0xA2140610 = .ok (.bexp 5 0 6 0 1) ∧ decode none 0xA97B8090 = .ok (.ldaqs 30 28 0 4 1) :=
  ⟨rfl, rfl, rfl, rfl, rfl, rfl, rfl, rfl, rfl, rfl, rfl, rfl, rfl⟩

/-- M words (15 Examples 15.1 and 15.3). -/
theorem test_words_m : decode none 0x62800180 = .ok (.mclm 3 0 0) ∧ decode none 0x62800090 = .ok (.mclm 1 1 0) ∧
    decode none 0x60020000 = .ok (.mnest 16 0 0) ∧ decode none 0x60800003 = .ok (.mbody 3) ∧ decode none 0x65800800 = .ok (.mzacc 1 0 0) ∧
    decode none 0x63C8002B = .ok (.mldb 18 0 1 0 11) ∧ decode none 0x6400002B = .ok (.mmma 0 0 1 0 11) ∧
    decode none 0x6652208C = .ok (.mdrn 20 17 0 2 0 0 12) ∧ decode none 0x61033A00 = .ok (.mgo 25 26) ∧ decode none 0x63000180 = .ok (.mrel 3 0 0) ∧
    decode none 0x61800001 = .ok (.msel 1) ∧ decode none 0x66300008 = .ok (.mdrn 12 0 0 0 0 0 8) :=
  ⟨rfl, rfl, rfl, rfl, rfl, rfl, rfl, rfl, rfl, rfl, rfl, rfl⟩

/-- C words (13 Example 13.1; 15 Example 15.3; 20 Example 20.4). -/
theorem test_words_c : decode none 0x8031AE00 = .ok (.cnest 12 13 14 0) ∧ decode none 0x81110F00 = .ok (.ccpy 4 8 15 0 0 0 0) ∧
    decode none 0x83828000 = .ok (.copf 0 20 0 0 0 0 0) ∧ decode none 0x85910F00 = .ok (.crem 4 8 15 0 0 0 0) := ⟨rfl, rfl, rfl, rfl⟩

/-- Words that the spec names illegal, and one that writes a pop port (02 Example 2.1, R51). -/
theorem test_words_refused : decode none 0x221F8263 = .error .illegal ∧ decode none 0x22738F62 = .error .queue ∧
    decode (some 0x48D15) 0xC0000000 = .error .illegal ∧ decode none 0x221F8F62 = .ok (.vfma 7 28 15 6 1) := ⟨rfl, rfl, rfl, rfl⟩

/-! ### Witnesses: the scratchpad, tiles, objects -/

/-- A thread of the access engine: a1 the last 8 bytes of a 64 KiB window, a2 the first byte beyond it, a3 the window of core 1, a4 a
misaligned address, a5 0x20, a7 an address that names no window, a8 a tile of the
window's last unit; lanes in `vaq`, a vector in `sq`, a value in `saq`. -/
def reaching : Thread :=
  { Thread.blank with
    f := { Thread.blank.f with a := [(1, 0xFFF8), (2, 0x10000), (3, 0x20200040), (4, 0x44), (5, 0x20), (6, 1), (7, 0x200000), (8, 0x107F)] }
    q := { Thread.blank.q with vaq := [QE.now (BitVec.allOnes 2048) 0], sq := [QE.now 0x1122334455667788 0], saq := [QE.now 9 0] } }

/-- Its package: its task has a second group on core 1, and one tile of 512 bytes at unit 4 of its own group. -/
def twoCores (front : Bool) (i : Instr) : State :=
  let s := atWord front reaching i
  { s with
    groups := s.groups ++ (s.groups.map (fun g => { g with j := 1, c := 1 }))
    cores := [(0, { Core.init with tiles := [(1, { base := 4, size := 1, ty := 0, swz := 0, st := .ready })] })] }

/-- The first group. -/
def own0 : Group :=
  { task := 1, j := 0, c := 0, base := 0, size := 1, tbase := 0, tcnt := 1, live := 1, lease := 0, mask := 0, shape := 0, lq := 0, mode := 0,
    flt := 0, lost := 0, pend := false, mferr := 0, rxw := 0, ended := false }

theorem atAccess_two (i : Instr) : AtAccess (twoCores false i) reaching := ⟨rfl, rfl⟩
theorem plain_two (i : Instr) : AtPlainAccess (twoCores false i) reaching :=
  ⟨⟨rfl, rfl⟩, by decide, by decide, by intro k hk; simp [twoCores, atWord, State.withRunning] at hk; subst hk; decide⟩

/-- Bytes at the window's last word lie in it; the word after them does not. -/
theorem test_window_end (i : Instr) :
    InWindow (twoCores false i) reaching own0 0xFFF8 8 8 ∧ ¬ InWindow (twoCores false i) reaching own0 0x10000 8 8 :=
  ⟨⟨rfl, by decide, by decide, by decide, by decide,
    (by decide : ∀ p ∈ (twoCores false .nop).tilesOf own0, 512 * (p.2.base + p.2.size) ≤ (0xFFF8#64).toNat % 2 ^ 21 ∨
      (0xFFF8#64).toNat % 2 ^ 21 + 8 ≤ 512 * p.2.base)⟩, fun h => absurd h.inside (by decide)⟩

/-- AccessWordsWriteTheirResult: a word on `a` registers and ports, and the words on `k` registers. -/
theorem test_meets_AccessWords : (accessOf reaching (.aadd 30 1 28)).isSome = true ∧ reaching.aReady 0 1 [1, 28] = .ok () ∧
    reaching.aRoom 30 = .ok () ∧ AtAccess (twoCores false (.aadd 30 1 28)) reaching ∧ (coordsOf reaching (.kset 3 1 2)).isSome = true ∧
    (Instr.kset 3 1 2).wellFormed = true ∧ reaching.aReady 0 1 [1] = .ok () ∧ reaching.kClean (kReads (.kset 3 1 2)) = .ok () :=
  ⟨rfl, rfl, rfl, atAccess_two _, rfl, by decide, rfl, rfl⟩

/-- ScratchpadLoadsBringTheirBytes: LDS at the end of the window, LDG with every lane skipped, LDT of a registered tile. -/
theorem test_meets_ScratchpadLoads : AtPlainAccess (twoCores false (.lds 6 1 0 none)) reaching ∧ (popsOf (.lds 6 1 0 none)).2.2 = false ∧
    PortsReady (twoCores false (.lds 6 1 0 none)) reaching (.lds 6 1 0 none) ∧
    Places (twoCores false (.lds 6 1 0 none)) reaching (.lds 6 1 0 none) 8 [some (0, 0xFFF8)] ∧
    (twoCores false (.lds 6 1 0 none)).spPoisoned 0 0xFFF8 8 = none ∧ reaching.aRoom 6 = .ok () ∧
    ((twoCores false (.lds 6 1 0 none)).core 0).busy.Pairwise (fun p q => p.1 < q.1) ∧
    PortsReady (twoCores false (.ldg 28 1 0)) reaching (.ldg 28 1 0) ∧
    Places (twoCores false (.ldg 28 1 0)) reaching (.ldg 28 1 0) 4 (List.replicate 64 none) ∧ reaching.lqRoom 28 = .ok () := by
  refine ⟨plain_two _, rfl, ⟨rfl, by decide, by decide⟩, ⟨8, [some 0xFFF8], by decide, rfl, ?_⟩, by rfl, rfl, by decide,
    ⟨rfl, by decide, by decide⟩, ⟨4, List.replicate 64 none, by decide +kernel, rfl, ?_⟩, rfl⟩
  · intro j hj
    match j, hj with
    | 0, _ => exact ⟨own0, (test_window_end _).1, rfl⟩
  · intro j hj
    have : j < 64 := hj
    simp only [List.getD_eq_getElem?_getD, List.getElem?_replicate, this, if_true, Option.getD_some]
theorem test_meets_ScratchpadLoads_tile : Places (twoCores false (.ldt 28 6 16 none)) reaching (.ldt 28 6 16 none) 16
    ((List.range 16).map (fun c => some (0, 2048 + 256 + 16 * c))) ∧ PortsReady (twoCores false (.ldt 28 6 16 none)) reaching (.ldt 28 6 16 none) :=
  ⟨⟨rfl, own0, { base := 4, size := 1, ty := 0, swz := 0, st := .ready }, ⟨by decide, rfl, by decide, rfl, rfl, by decide⟩, rfl, by decide +kernel⟩,
    ⟨rfl, by decide, by decide⟩⟩

/-- ScratchpadStoresPutTheirBytes: STS on the own core, STV to the other. -/
theorem test_meets_ScratchpadStores : AtPlainAccess (twoCores false (.sts 5 1 0 none)) reaching ∧ loadsTo (.sts 5 1 0 none) = none ∧
    PortsReady (twoCores false (.sts 5 1 0 none)) reaching (.sts 5 1 0 none) ∧
    Places (twoCores false (.sts 5 1 0 none)) reaching (.sts 5 1 0 none) 8 [some (0, 0xFFF8)] ∧ ((twoCores false .nop).core 0).sp.wf = true ∧
    PortsReady (twoCores false (.stv 3 0 none)) reaching (.stv 3 0 none) ∧ (popsOf (.stv 3 0 none)).2.2 = true ∧
    Places (twoCores false (.stv 3 0 none)) reaching (.stv 3 0 none) 256 [some (1, 0x40)] := by
  refine ⟨plain_two _, rfl, ⟨rfl, by decide, by decide⟩, ⟨8, [some 0xFFF8], by decide, rfl, ?_⟩, rfl, ⟨rfl, by decide, by decide⟩, rfl,
    ⟨8, [some 0x20200040], by decide, rfl, ?_⟩⟩
  · intro j hj
    match j, hj with
    | 0, _ => exact ⟨own0, (test_window_end _).1, rfl⟩
  · intro j hj
    match j, hj with
    | 0, _ => exact ⟨{ own0 with j := 1, c := 1 }, ⟨by decide, by decide, by decide, by decide, by decide, by decide⟩, rfl⟩

/-- ScratchpadWordsCheckFirst: a misaligned address, an aligned one that names no window, and a watchpoint on the sector of a good one. -/
theorem test_meets_ScratchpadChecks : AtAccess (twoCores false (.lds 6 4 0 none)) reaching ∧
    PortsReady (twoCores false (.lds 6 4 0 none)) reaching (.lds 6 4 0 none) ∧ reaching.aRoom 6 = .ok () ∧
    elementsOf reaching (.lds 6 4 0 none) = some (8, 8, [some 0x44]) ∧ (0x44#64).toNat % 8 ≠ 0 ∧
    elementsOf reaching (.lds 6 7 0 none) = some (8, 8, [some 0x200000]) ∧ (0x200000#64).toNat % 8 = 0 ∧
    (twoCores false (.lds 6 7 0 none)).refGroup 1 0 0 0x200000 = none ∧ reaching.settled 0 = true ∧ reaching.csr.trc.getLsbD 6 = false ∧
    (let w : Word := 0xBFFF000000000000 + wd (0xFFF8 / 32 * 32)
     fld w 63 62 = 2 ∧ fld w 61 60 = 3 ∧ fld w 59 48 = 0xFFF ∧ fld w 47 5 = (0xFFF8#64).toNat % 2 ^ 21 / 32) :=
  ⟨atAccess_two _, ⟨rfl, by decide, by decide⟩, rfl, by decide, by decide, by decide, by decide, by decide, rfl, by decide, by decide⟩

/-- TileWordsManageTheTable: an entry that is free, for a tile of the last unit of the window, and one that holds a ready tile. -/
theorem test_meets_TileWords : (twoCores false (.ttreg 8 7)).groupOf? reaching = some own0 ∧ (7#8).toNat < 8 * own0.tcnt ∧
    reaching.aReady 0 1 [8] = .ok () ∧ ((twoCores false (.ttreg 8 7)).core 0).tiles.find 7 = none ∧
    (let w := (reaching.aVal 8).toNat
     w / 2 ^ 28 % 16 < 12 ∧ 1 ≤ w / 2 ^ 12 % 2 ^ 13 ∧ w / 2 ^ 12 % 2 ^ 13 ≤ 4096 ∧ 512 * (w % 2 ^ 12 + w / 2 ^ 12 % 2 ^ 13) ≤ 65536 * own0.size ∧
      ∀ p ∈ (twoCores false (.ttreg 8 7)).tilesOf own0, p.2.base + p.2.size ≤ w % 2 ^ 12 ∨ w % 2 ^ 12 + w / 2 ^ 12 % 2 ^ 13 ≤ p.2.base) ∧
    ((twoCores false (.ttrel 1)).core 0).tiles.find 1 = some { base := 4, size := 1, ty := 0, swz := 0, st := .ready } ∧ reaching.aRoom 2 = .ok () :=
  ⟨rfl, by decide, rfl, by decide, by decide, rfl, rfl⟩
/-- … and an entry that carries a poison mark, as an error in core 0's tile table leaves it. -/
theorem test_meets_TileWords_marked : ((((twoCores false (.ttrel 1)).spoil 9 0 0 (2048 + 1)).core 0).tiles.find 1).map (·.mark) = some true := by
  decide +kernel

/-- BarrierWordsUpdateTheirObject: object 1 of the own window, in the phase that BWAIT's operand 0 names, and operands 1 and 2^24 − 1. -/
theorem test_meets_BarrierWords : AtPlainAccess (twoCores false (.barv 5 6 0 0)) reaching ∧ reaching.aReady 0 1 [6, 0] = .ok () ∧
    reaching.aReady 0 1 [6] = .ok () ∧ reaching.aReady 0 1 [6, 5] = .ok () ∧ reaching.aRoom 5 = .ok () ∧
    (twoCores false (.barv 5 6 0 0)).quiet reaching 0 = .ok () ∧ (twoCores false (.barv 5 6 0 0)).posted reaching 0 = false ∧
    reaching.issue.relAt = none ∧ (twoCores false (.bwait 0 6 0 0)).wokeOf reaching = none ∧
    NamesObject (twoCores false (.barv 5 6 0 0)) reaching (reaching.aVal 6) 0 (0, 1) ∧
    ((twoCores false .nop).core 0).bar 1 = Bar.init ∧ Bar.init.phase.toNat = (reaching.aVal 0).toNat ∧ Bar.init.phase.toNat ≠ (reaching.aVal 6).toNat ∧
    (reaching.aVal 6).toNat < 2 ^ 24 ∧ (-(2 ^ 63) ≤ Bar.init.bytes + (reaching.aVal 5).toInt ∧ Bar.init.bytes + (reaching.aVal 5).toInt < 2 ^ 63) :=
  ⟨plain_two _, rfl, rfl, rfl, rfl, by rfl, by decide, rfl, rfl, ⟨by decide, by decide, own0, by decide, by decide, rfl⟩, rfl, by decide,
    by decide, by decide, by decide⟩
/-- … an object whose last arrival ends the wait of another thread, and whose surplus arrival poisons it; ends of waits. -/
theorem test_meets_BarrierWords_waits : (let y : Thread := { Thread.blank with t := 1, aq := [word (.bwait 0 6 0 0)] }
     let s := { twoCores false (.barv 5 6 0 0) with threads := [reaching, y] }
     Waits s 0 1) ∧
    (let b := { Bar.init with pend := 1, reload := 1, waiters := [(1, 0)] }
     (b.waiters.find (8 * 0 + 1)).isSome = true ∧ (b.updated 0 true false).phase ≠ b.phase ∧ (b.updated 0 true false).poison = b.poison) ∧
    (let b := { Bar.init with waiters := [(1, 0)], bytes := 8 }
     (b.updated 0 true false).poison = true ∧ b.poison = false) ∧
    (∀ w ∈ ([.freed, .past, .poison] : List Woke), (twoCores false (.bwait 0 6 0 0)).wokeOf
      { reaching with issue := { reaching.issue with woke := some (0, w) } } = some w) :=
  ⟨⟨by decide, _, rfl, by decide, rfl⟩, by decide, by decide, by decide⟩
/-- … and an object that carries a mark. -/
theorem test_meets_BarrierWords_poisoned : (((twoCores false (.bwait 0 6 0 0)).modCore 0 (fun k =>
    { k with bars := [(1, { Bar.init with poison := true })] })).core 0).bar 1 = { Bar.init with poison := true } ∧ reaching.settled 0 = true := ⟨rfl, rfl⟩

/-- SynchronisingScratchpadWords: an empty word, waited for as empty, loaded regardless, and an atomic on it. -/
theorem test_meets_Synchronising : AtPlainAccess (twoCores false (.stef 5 1 0 0)) reaching ∧ own0.c = reaching.c ∧
    ((twoCores false .nop).core 0).sp.wf = true ∧ (twoCores false (.stef 5 1 0 0)).posted reaching 5 = false ∧
    (twoCores false (.stef 5 1 0 0)).quiet reaching 5 = .ok () ∧ reaching.issue.relAt = none ∧ reaching.issue.far = none ∧
    (twoCores false (.stef 5 1 0 0)).wokeOf reaching = none ∧ (twoCores false (.stef 5 1 0 0)).inTagq reaching 0 = false ∧
    ((twoCores false (.stef 5 1 0 0)).releaseAt 0 3 ((twoCores false (.stef 5 1 0 0)).vcOf reaching)).writingBack 0 = false ∧ (∀ q ∈ ((twoCores false .nop).core 0).tagq, q.off ≠ 0xFFF8) ∧
    (twoCores false .nop).spPoisoned 0 (own0.place 0xFFF8) 8 = none ∧
    InWindow (twoCores false .nop) reaching own0 0xFFF8 8 8 ∧ tagOf (.stef 5 1 0 0) = some (some false, true) ∧
    0xFFF8 = reaching.aVal 1 + 8 * (0#10).signExtend 64 ∧ (own0.place 0xFFF8 / 8 * 8) ∉ ((twoCores false .nop).core 0).tags ∧
    reaching.aReady 0 1 [1] = .ok () ∧ reaching.aReady 0 1 [1, 5] = .ok () ∧ reaching.aReady 0 1 [1, 0, 5] = .ok () ∧ reaching.aRoom 5 = .ok () ∧
    (Instr.amos 5 1 0 0 2).wellFormed = true ∧ codeBytes 2 = 8 :=
  ⟨plain_two _, rfl, rfl, by decide, by rfl, rfl, rfl, rfl, rfl, by decide +kernel, by decide, by rfl, (test_window_end _).1, rfl, by decide,
    by decide, rfl, rfl, rfl, rfl, by decide, by decide⟩
/-- … and a load that waits for the word to be full, alone at it, its thread waiting. -/
def tagWaiter : TagWait := { off := 0xFFF8, c := 0, t := 0, seq := 0, want := true, leaves := false, val := none, scope := 0 }
theorem test_meets_Synchronising_waits : (let th : Thread := { reaching with aq := [word (.ldfe 5 1 0 0)] }
    let s := ({ twoCores false (.ldfe 5 1 0 0) with threads := [th] } : State).modCore 0 (fun k => { k with tagq := [tagWaiter] })
    (s.core 0).tagq = [tagWaiter] ∧ s.spPoisoned 0 tagWaiter.off 8 = none ∧ tagWaiter.off % 8 = 0 ∧
      (s.thread? 0 0).any (fun y => !y.aq.isEmpty && y.issue.woke.isNone) = true) := by decide +kernel

/-! ### Witnesses: the front -/

theorem test_calm_blank : Thread.blank.Calm := ⟨rfl, rfl, by decide⟩
theorem test_calm_fed : fed.Calm := ⟨rfl, rfl, by decide⟩

/-- ScalarWordsWriteTheirResult: both pop ports read at once, the push port written. -/
theorem test_meets_ScalarWords : AtFront (atWord true fed (.add 31 28 29)) fed ∧ (Instr.add 31 28 29).wellFormed = true ∧
    scalarOf fed (.add 31 28 29) = some ([28, 29], 31, 12) ∧ fed.sReady 0 [28, 29] = .ok () ∧ fed.sRoom 31 = .ok () :=
  ⟨atFront_word fed _ rfl rfl test_calm_fed, by decide, rfl, rfl, rfl⟩
/-- ScalarWordsWriteTheirResult, the counts: CLZ of zero (05 R128 gives 64). -/
theorem test_meets_ScalarWords_count : AtFront (atWord true Thread.blank (.clz 1 0)) Thread.blank ∧ (countOf (.clz 1 0)).isSome = true ∧
    Thread.blank.sReady 0 [0] = .ok () ∧ Thread.blank.sRoom 1 = .ok () := ⟨atFront_word _ _ rfl rfl test_calm_blank, rfl, rfl, rfl⟩

/-- … and a source that carries a poison mark. -/
theorem test_meets_ScalarWords_marked : (let th := { Thread.blank with f := { Thread.blank.f with marks := [3] } }
    (atWord true th (.addi 1 3 0 none)).thread? 0 0 = some th ∧ (Instr.addi 1 3 0 none).wellFormed = true ∧
      (scalarOf th (.addi 1 3 0 none)).map (·.1) = some [3] ∧ (3#5).toNat ∈ th.f.marks) := by decide

/-- A thread with −2^63 in s1 and −1 in s2, and handlers. -/
def divider : Thread := { Thread.blank with f := { Thread.blank.f with s := [(1, 0x8000000000000000), (2, 0xFFFFFFFFFFFFFFFF)] }
                                            trap := { Thread.blank.trap with vec1 := 0x40, vec2 := 0x80 } }

/-- DivisionsDivideOrTrap: −2^63 by −1, which wraps; and by s0, which traps. -/
theorem test_meets_Divisions : AtFront (atWord true divider (.div 3 1 2)) divider ∧
    divisionOf divider (.div 3 1 2) = some (3, 1, 2, 0x8000000000000000) ∧ divider.sReady 0 [1, 2] = .ok () ∧ divider.sVal 2 ≠ 0 ∧
    divider.sRoom 3 = .ok () ∧ divider.sVal 0 = 0 ∧ divider.settled divider.seq = true :=
  ⟨atFront_word divider _ rfl rfl ⟨rfl, rfl, by decide⟩, by decide, rfl, by decide, rfl, rfl, rfl⟩

/-- ControlTransfers: a branch at its least offset, taken and not; an address that JR can take and one that it cannot. -/
theorem test_meets_ControlTransfers : AtFront (atWord true divider (.bne 1 0 0x1000 none)) divider ∧
    (branchOf divider (.bne 1 0 0x1000 none)).isSome = true ∧ divider.sReady 0 [1, 0] = .ok () ∧
    (divider.sVal 1).toNat ≠ (divider.sVal 0).toNat ∧ ¬ (divider.sVal 0).toNat ≠ (divider.sVal 0).toNat ∧
    (divider.sVal 1 + BitVec.ofInt 64 (immInt (0#13) none)).toNat % 4 = 0 ∧
    (divider.sVal 2 + BitVec.ofInt 64 (immInt (0#13) none)).toNat % 4 ≠ 0 ∧ divider.settled divider.seq = true :=
  ⟨atFront_word divider _ rfl rfl ⟨rfl, rfl, by decide⟩, rfl, rfl, by decide, by decide, by decide, by decide, rfl⟩

/-- A loop level over the words 4 to 8. -/
def level : Loop := { addr := 0, first := 4, last := 8, count := 3, j := 0, pipelined := false, n := 3, stages := 1, map := 0 }
/-- A thread inside a level. -/
def looping : Thread := { divider with loops := [level] }

/-- LoopsOpenALevel: a count of zero and another, a body that stays in the open level and one that leaves it, a full stack, a LOOPS whose map
names a stage beyond the last. -/
theorem test_meets_Loops : AtFront (atWord true looping (.loop 1 1)) looping ∧ looping.sReady 0 [1] = .ok () ∧
    (looping.sVal 1).toNat ≠ 0 ∧ (looping.sVal 0).toNat = 0 ∧
    ¬ (4 ≤ looping.loops.length ∨ ∃ y r, looping.loops = y :: r ∧ (y.last < 0 + wd (4 * 1) ∨ y.pipelined = true)) ∧
    (∃ y r, looping.loops = y :: r ∧ y.last < 0 + wd (4 * 64)) ∧ looping.settled looping.seq = true ∧
    (1#2).toNat < (looping.sVal 2).toNat / 4 ^ 0 % 4 := by
  refine ⟨atFront_word looping _ rfl rfl ⟨rfl, rfl, by decide⟩, rfl, by decide, rfl, ?_, ⟨level, [], rfl, by decide⟩, rfl, by decide⟩
  rintro (h | ⟨y, r, h, h1⟩)
  · exact absurd h (by decide)
  · cases h; revert h1; decide

/-- LoopExitAndThePlaceOfTheFront: no level, a plain one and a pipelined one; the front at a level's last word and elsewhere. -/
theorem test_meets_LoopExit : AtFront (atWord true looping (.lexit 1 0 1)) looping ∧ looping.sReady 0 [1] = .ok () ∧
    looping.loops = level :: [] ∧ looping.sVal 1 ≠ 0 ∧ level.pipelined = false ∧ divider.loops = [] ∧
    AtFront (atWord true divider (.lexit 0 0 0)) divider ∧ divider.sVal 0 = 0 ∧
    level.last = (word .nop).addr + wd (word .nop).size - 4 + 8 ∧ level.j + 1 < level.count :=
  ⟨atFront_word looping _ rfl rfl ⟨rfl, rfl, by decide⟩, rfl, rfl, by decide, rfl, rfl, atFront_word divider _ rfl rfl ⟨rfl, rfl, by decide⟩, rfl,
    by decide, by decide⟩

/-- ScalarWordsChangeOnlyTheirThread: an S word that answers a next state. -/
theorem test_meets_ScalarFrame : ∃ t, AtFront (atWord true fed (.add 1 28 29)) fed ∧ engineOf (.add 1 28 29) = .s ∧
    exec (.add 1 28 29) (atWord true fed (.add 1 28 29)) = .next t := ⟨_, atFront_word fed _ rfl rfl test_calm_fed, rfl, rfl⟩

/-! ### Witnesses: K words and traps -/

theorem atHorizon_word (th : Thread) (i : Instr) (hc : th.c = 0) (ht : th.t = 0) (hm : th.Calm) (hz : th.atHorizon th.seq = true) :
    AtHorizon (atWord true th i) th := ⟨by simp [State.thread?, atWord, hc, ht], rfl, hm, hz⟩

/-- CsrWordsReadAndWrite: the read of an assigned register, of the two that a read changes, and a write of a plain field. -/
theorem test_meets_CsrWords : AtHorizon (atWord true fed (.csrx 1 29 0x015)) fed ∧ csrAssigned 0x015 = true ∧ csrAssigned 0x051 = true ∧
    csrAssigned 0x01A = true ∧ fed.sRoom 1 = .ok () ∧ fed.csrWaits 0x015 = false ∧ fld fed.csr.recd 1 0 = 0 ∧
    (csrWriteOf (.csrx 1 29 0x015)).isSome = true ∧ fed.sReady 0 [29] = .ok () ∧
    csrStored 0x015 ((atWord true fed (.csrx 1 29 0x015)).csr fed 0x015) 7 = some 7 :=
  ⟨atHorizon_word fed _ rfl rfl test_calm_fed rfl, by decide, by decide, by decide, rfl, by decide, by decide, rfl, rfl, by decide⟩

/-- A thread that the debug interface may stop at a BRK. -/
def debugged : Thread := { Thread.blank with csr := { Thread.blank.csr with trc := 0x40 } }

/-- TrapBreakAndHalt: in a service without privilege and in one with it; a BRK under `trc.dbg`. -/
theorem test_meets_TrapBreakAndHalt : AtHorizon (atWord true divider (.trap 5)) divider ∧ divider.settled divider.seq = true ∧
    (atWord true divider (.trap 5)).privileged 0 = false ∧ ((atWord true divider .halt).setReg .brsPriv 1).privileged 0 = true ∧
    AtHorizon ((atWord true divider .halt).setReg .brsPriv 1) divider ∧ divider.loops = [] ∧ divider.xq = [] ∧ divider.aq = [] ∧
    divider.issue.woke = none ∧ debugged.issue.woke = none ∧ ((atWord true divider .halt).setReg .brsPriv 1).fab = [] ∧ (atWord true debugged (.brk 3)).fab = [] ∧
    (atWord true debugged (.brk 3)).thread? 0 0 = some debugged ∧ debugged.csr.trc = 0x40 ∧ debugged.issue.stopReq = 0 ∧ debugged.hist = [] :=
  ⟨atHorizon_word divider _ rfl rfl ⟨rfl, rfl, by decide⟩ rfl, rfl, by decide, by decide, ⟨rfl, rfl, ⟨rfl, rfl, by decide⟩, rfl⟩, rfl, rfl, rfl,
    rfl, rfl, rfl, rfl, rfl, rfl, rfl, rfl⟩

/-- A thread at level 2 with banks. -/
def handler : Thread := { divider with trap := { divider.trap with level := 2 } }

/-- TrapEntrySavesAndVectors, at level 0 and at level 1. -/
theorem test_meets_TrapEntry : (atWord true divider .nop).thread? 0 0 = some divider ∧ divider.traces 3 = false ∧ divider.trap.level < 2 ∧
    divider.trap.vec1 ≠ 0 ∧ ({ divider with trap := { divider.trap with level := 1 } } : Thread).trap.level < 2 ∧ divider.trap.vec2 ≠ 0 :=
  ⟨rfl, rfl, by decide, by decide, by decide, by decide⟩

/-- ReturnFromTrapRestores, at levels 0 and 2. -/
theorem test_meets_ReturnFromTrap : AtHorizon (atWord true divider .rft) divider ∧ divider.trap.level = 0 ∧ divider.settled divider.seq = true ∧
    AtHorizon (atWord true handler .rft) handler ∧ handler.trap.level = 2 ∧ handler.xq = [] ∧ handler.land = [] ∧
    (let x : Thread := { handler with land := [{ dst := .flags, val := 0, mask := 0, due := 9 }] }
     AtHorizon (atWord true x .rft) x ∧ x.trap.level ≠ 0 ∧ x.land ≠ []) :=
  ⟨atHorizon_word divider _ rfl rfl ⟨rfl, rfl, by decide⟩ rfl, rfl, rfl, atHorizon_word handler _ rfl rfl ⟨rfl, rfl, by decide⟩ rfl, rfl, rfl, rfl,
    atHorizon_word _ _ rfl rfl ⟨rfl, rfl, by decide⟩ rfl, by decide, by decide⟩

/-- ThreadControlWords: a sleep of nothing and one of the greatest count, a settled thread, no posted store. -/
theorem test_meets_ThreadControl : AtHorizon (atWord true fed .esync) fed ∧ fed.sReady 0 [0] = .ok () ∧ fed.sReady 0 [29] = .ok () ∧
    fed.sRoom 1 = .ok () ∧ min ((fed.sVal 0).toNat + (0#13).toNat) (2 ^ 40) = 0 ∧ min ((fed.sVal 29).toNat + (0#13).toNat) (2 ^ 40) ≠ 0 ∧
    fed.xq = [] ∧ fed.land = [] ∧ (atWord true fed .esync).quiet fed 5 = .ok () ∧ Thread.blank.undelivered = false ∧
    (atWord true fed .esync).queuedOf fed = false ∧ (atWord true fed .fencei).posted fed 5 = false ∧
    ((atWord true fed .fencei).releaseAt 0 5 ((atWord true fed .fencei).vcOf fed)).writingBack 0 = false :=
  ⟨atHorizon_word fed _ rfl rfl test_calm_fed rfl, rfl, rfl, rfl, by decide, by decide, rfl, rfl, by rfl, by decide, by decide, by decide,
    by decide +kernel⟩

/-- A thread inside an inline call. -/
def inlined : Thread := { Thread.blank with inl := [0x44], csr := { Thread.blank.csr with spawnDepth := 1 } }

/-- ExitEndsTheThread: inside an inline call, and with nothing left to complete. -/
theorem test_meets_Exit : AtHorizon (atWord true inlined .exit) inlined ∧ inlined.csr.spawnDepth ≠ 0 ∧ inlined.inl = 0x44 :: [] ∧
    AtHorizon (atWord true Thread.blank .exit) Thread.blank ∧ Thread.blank.csr.spawnDepth = 0 ∧ Thread.blank.xq = [] ∧ Thread.blank.land = [] ∧
    (atWord true Thread.blank .exit).quiet Thread.blank 5 = .ok () ∧ Thread.blank.undelivered = false ∧
    (atWord true Thread.blank .exit).queuedOf Thread.blank = false ∧ (atWord true Thread.blank .exit).runningOf Thread.blank = false ∧
    (let s := atWord true Thread.blank .exit
     (s.releaseAt 0 (Thread.blank.relScope 1) (s.vcOf Thread.blank)).writingBack 0 = false) :=
  ⟨atHorizon_word inlined _ rfl rfl ⟨rfl, rfl, by decide⟩ rfl, by decide, rfl, atHorizon_word _ _ rfl rfl test_calm_blank rfl, rfl, rfl, rfl,
    by rfl, by decide, by decide, by decide, by decide +kernel⟩

/-- A package in which queue 3 of service 0 is enabled, eight slots long, at 0x200000. -/
def queued (i : Instr) : State :=
  ((atWord true spawner i).setReg (.lnqBase 0 3) 0x200003).setReg (.lnqCtl 0 3) 0xC000000000000000
where
  /-- A thread that spawns the record at the window's start into queue 3. -/
  spawner : Thread := { Thread.blank with f := { Thread.blank.f with s := [(2, 3)] } }

/-- SpawnEnqueuesItsRecord: on the enabled queue, and on queue 0, which is not. -/
theorem test_meets_Spawn : ∃ g o, AtHorizon (queued (.spawn 3 1 2)) queued.spawner ∧ queued.spawner.sReady 0 [1, 2] = .ok () ∧
    queued.spawner.sRoom 3 = .ok () ∧ fld queued.spawner.csr.recd 1 0 = 0 ∧ (queued.spawner.sVal 2).toNat < 16 ∧
    (queued (.spawn 3 1 2)).spChk 1 0 0 (queued.spawner.sVal 1) 128 64 = .ok (g, o) ∧ (queued (.spawn 3 1 2)).spClean g.c (g.phys o) 128 = .ok () ∧
    fld ((((queued (.spawn 3 1 2)).core g.c).sp.words (g.phys o) 16).getD 0 0) 23 19 = 0 ∧
    (fld ((queued (.spawn 3 1 2)).reg (.lnqBase 0 3)) 3 0 ≠ 0 ∧ bit ((queued (.spawn 3 1 2)).reg (.lnqCtl 0 3)) 63 = true ∧
      bit ((queued (.spawn 3 1 2)).reg (.lnqCtl 0 3)) 62 = true) ∧
    (queued (.spawn 3 1 2)).lnqDepth 0 3 < 2 ^ fld ((queued (.spawn 3 1 2)).reg (.lnqBase 0 3)) 3 0 ∧
    (queued (.spawn 3 1 2)).quiet queued.spawner 5 = .ok () ∧ queued.spawner.issue.waitF.any (fun w => w.why == some (.block 0)) = false ∧
    (let s := queued (.spawn 3 1 2)
     ((s.useBanks 0 0 (wordsOf 0 128)).releaseAt 0 3 (s.vcOf queued.spawner)).writingBack 0 = false) ∧
    fld ((queued (.spawn 3 1 2)).reg (.lnqBase 0 0)) 3 0 = 0 :=
  ⟨{ task := 1, j := 0, c := 0, base := 0, size := 1, tbase := 0, tcnt := 1, live := 1, lease := 0, mask := 0, shape := 0, lq := 0, mode := 0,
     flt := 0, lost := 0, pend := false, mferr := 0, rxw := 0, ended := false }, 0,
    ⟨rfl, rfl, ⟨rfl, rfl, by decide⟩, rfl⟩, rfl, rfl, by decide, by decide, by rfl, by rfl, by decide, by decide, by decide, by rfl, rfl,
    by decide +kernel, by decide⟩

/-- A thread whose FLEASE has been granted. -/
def leased : Thread := { Thread.blank with issue := { Thread.blank.issue with got := some 3 } }
/-- A thread that holds a reserve, and asks for one more than nothing, or for so much that the reserve is full. -/
def drawing : Thread :=
  { Thread.blank with f := { Thread.blank.f with s := [(1, 1), (2, 0xFFFFFFFF)] }, csr := { Thread.blank.csr with leave := 1 } }

/-- LeaseAndReserveWords: a grant that has come, a group that waits for one, none at all; amounts 0, 1 and one too much. -/
theorem test_meets_LeaseAndReserve : AtHorizon (atWord true leased (.flease 9 0 1 1)) leased ∧ leased.sRoom 9 = .ok () ∧
    fld leased.csr.recd 1 0 = 0 ∧ leased.issue.got = some 3 ∧ Thread.blank.issue.got = none ∧
    (atWord true Thread.blank (.flease 9 0 1 1)).asking Thread.blank = false ∧
    (((atWord true Thread.blank (.fret 9)).groupOf? Thread.blank).map (fun g => (g.mask, g.pend))) = some (0, false) ∧
    AtHorizon (atWord true drawing (.draw 5 1 0)) drawing ∧ drawing.sReady 0 [1] = .ok () ∧ (drawing.sVal 0).toNat = 0 ∧
    drawing.csr.leave.toNat + (drawing.sVal 1).toNat < 2 ^ 32 ∧ 2 ^ 32 ≤ drawing.csr.leave.toNat + (drawing.sVal 2).toNat ∧
    ((atWord true drawing (.draw 5 1 0)).svc 0).off = true ∧ (((atWord true drawing (.draw 5 1 0)).modSvc 0 (fun v => { v with refNow := 0 })).svc 0).off = false ∧
    Thread.blank.issue.once ≠ 3 ∧ ({ Thread.blank.issue with once := 3 } : Issue).got = none ∧
    ((atWord true Thread.blank (.flease 9 1 1 1)).modDie 0 (fun d =>
      { d with tq := [(1, [{ task := 1, group := 0, shape := 1, start := false, t := 0 }])] })).asking Thread.blank = true :=
  ⟨atHorizon_word leased _ rfl rfl ⟨rfl, rfl, by decide⟩ rfl, rfl, by decide, rfl, rfl, by decide, by decide,
    atHorizon_word drawing _ rfl rfl ⟨rfl, rfl, by decide⟩ rfl, rfl, rfl, by decide, by decide, by decide, by decide, by decide, rfl,
    by decide⟩

/-- A thread that traces all, and asks for the ninth and the tenth entry of the capability list. -/
def tracing : Thread :=
  { Thread.blank with f := { Thread.blank.f with s := [(1, 8), (2, 9)] }, csr := { Thread.blank.csr with trc := 1 } }

/-- CapabilityExtensionAndMark: the last entry of the list and the first beyond it; a core whose ring stands in memory. -/
theorem test_meets_Capability : AtHorizon (atWord true divider (.capr 3 0)) divider ∧ divider.sReady 0 [0, 0] = .ok () ∧ divider.sRoom 3 = .ok () ∧
    (tracing.sVal 1).toNat < 9 ∧ 9 ≤ (tracing.sVal 2).toNat ∧
    (let s := (atWord true tracing (.mark 1 7)).setReg (.trcBase 0) 0x300004
     let s := s.setReg (.actBud 0) 0x3FFFFFFFFFFFFFFF
     s.thread? 0 0 = some tracing ∧ s.cur.front = true ∧ tracing.atHorizon tracing.seq = true ∧ tracing.csr.trc = 1 ∧ tracing.issue.stopReq = 0 ∧
      tracing.hist.length + tracing.loops.length + 8 ≤ 64 ∧ tracing.csr.lost9 = 0 ∧ tracing.sReady 0 [1] = .ok () ∧ fld (s.reg (.trcBase 0)) 4 0 ≠ 0 ∧ (s.core 0).stage = [] ∧
      (s.die 0).usedTr < s.budTr 0) :=
  ⟨atHorizon_word divider _ rfl rfl ⟨rfl, rfl, by decide⟩ rfl, rfl, rfl, by decide, by decide, rfl, rfl, rfl, rfl, rfl, by decide, rfl, rfl, by decide, rfl,
    by decide⟩

/-! ### Witnesses: the execute engine -/

/-- A thread with lanes in its load queue, in v1 and v2, and a mask that governs every second group. -/
def lanes : Thread :=
  { Thread.blank with
    f := { Thread.blank.f with v := [(1, 0x7F80FF01), (2, 0x01017FFF)], m := [(1, 0x5555555555555555)] }
    q := { Thread.blank.q with lq0 := [QE.now 0x80 0] } }

theorem atIssue_word (th : Thread) (i : Instr) (hc : th.c = 0) (ht : th.t = 0) (hb : th.vBlocked (atWord false th i).now (word i) = none) :
    AtIssue (atWord false th i) th i := ⟨by simp [State.thread?, atWord, hc, ht], rfl, rfl, hb⟩

/-- VectorWordsIssueAndLandLater: from a load queue to `sq`, at latency 2; and a word that lands two registers. -/
theorem test_meets_VectorWords : AtIssue (atWord false lanes (.vadd 30 28 1 0 1 1)) lanes (.vadd 30 28 1 0 1 1) ∧
    vLatencyOf (.vadd 30 28 1 0 1 1) = some 2 ∧ AtIssue (atWord false lanes (.vqblk 3 1 2 6)) lanes (.vqblk 3 1 2 6) ∧
    vLatencyOf (.vqblk 3 1 2 6) = some 4 := ⟨atIssue_word _ _ rfl rfl (by decide), rfl, atIssue_word _ _ rfl rfl (by decide), rfl⟩

/-- IntegerPermuteAndBitLanes: a saturating sum under a mask, bits, and an immediate. -/
theorem test_meets_IntegerLanes : AtIssue (atWord false lanes (.vadd 3 1 2 0 1 1)) lanes (.vadd 3 1 2 0 1 1) ∧
    (Instr.vadd 3 1 2 0 1 1).wellFormed = true ∧ vLatencyOf (.vadd 3 1 2 0 1 1) = some 2 ∧
    (laneFnOf lanes (.vadd 3 1 2 0 1 1)).isSome = true ∧ AtIssue (atWord false lanes (.vsel 3 1 2 11 1)) lanes (.vsel 3 1 2 11 1) ∧
    (vBitsOf lanes (.vsel 3 1 2 11 1)).isSome = true ∧ (Instr.vsel 3 1 2 11 1).wellFormed = true ∧
    AtIssue (atWord false lanes (.vmovi 3 0x3FFFF none)) lanes (.vmovi 3 0x3FFFF none) :=
  ⟨atIssue_word _ _ rfl rfl (by decide), by decide, rfl, rfl, atIssue_word _ _ rfl rfl (by decide), rfl, by decide,
    atIssue_word _ _ rfl rfl (by decide)⟩
/-- The value of a lane: 127 + 127 clamps to 127 in a lane of i8 under `.sat` (06 R158). -/
theorem test_lane_of_saturated_sum : (laneFnOf lanes (.vadd 3 1 2 0 0 1)).map (fun p => (p.2.2.2 0, p.2.2.2 1, p.2.2.2 3)) = some (0, 0x7E, 0x7F) := by
  decide +kernel

/-- ComparesMaskWordsAndPushes. -/
theorem test_meets_Compares : AtIssue (atWord false lanes (.vcmplt 1 1 2 0 1 1)) lanes (.vcmplt 1 1 2 0 1 1) ∧
    (compareOf lanes (.vcmplt 1 1 2 0 1 1)).isSome = true ∧ AtIssue (atWord false lanes (.mlog 2 1 3 0 1 1)) lanes (.mlog 2 1 3 0 1 1) ∧
    AtIssue (atWord false lanes (.mpop 3 1 0)) lanes (.mpop 3 1 0) ∧ AtIssue (atWord false lanes (.mfirst 3 2 0)) lanes (.mfirst 3 2 0) ∧
    AtIssue (atWord false lanes (.vtos 28 31)) lanes (.vtos 28 31) ∧ AtIssue (atWord false lanes (.vtoa 1)) lanes (.vtoa 1) :=
  ⟨atIssue_word _ _ rfl rfl (by decide), rfl, atIssue_word _ _ rfl rfl (by decide), atIssue_word _ _ rfl rfl (by decide),
    atIssue_word _ _ rfl rfl (by decide), atIssue_word _ _ rfl rfl (by decide), atIssue_word _ _ rfl rfl (by decide)⟩

/-- A thread with one result to land. -/
def landing (d : LandDst) : Thread := { lanes with land := [{ dst := d, val := 0xF0, mask := 0xFF, due := 4 }], tick := 4 }

/-- ResultsLandUnderTheirMask: a vector register, a mask register, the flags. -/
theorem test_meets_ResultsLand : ∀ d ∈ ([.v 3, .m 2, .flags] : List LandDst),
    (atStep (atWord false (landing d) .nop) (.vResultLand 0 0)).cur.ev = some (.vResultLand 0 0) ∧
      (atStep (atWord false (landing d) .nop) (.vResultLand 0 0)).thread? 0 0 = some (landing d) ∧
      (landing d).land = [{ dst := d, val := 0xF0, mask := 0xFF, due := 4 }] ∧ 4 ≤ (landing d).tick :=
  fun _ _ => ⟨rfl, rfl, rfl, Nat.le.refl⟩

/-- RoundingKeepsRepresentableNumbers: the least subnormal and the greatest finite number of f32. -/
theorem test_meets_Rounding : (laneFV 6 1).isNan = false ∧ (laneFV 6 0x7F7FFFFF).isNan = false ∧ 1 < 2 ^ laneW 6 := by decide

/-- A thread with a word in each queue. -/
def busy : Thread := { lanes with xq := [word (.vadd 3 1 2 0 0 0)], aq := [word (.amovi 1 3 none)] }

/-- EngineWordsQueueInOrder: behind a word, and at a queue that is full; VWAIT. -/
theorem test_meets_EngineOrder : AtFront (atWord true busy (.vadd 3 1 2 0 0 0)) busy ∧ engineOf (.vadd 3 1 2 0 0 0) = .v ∧ busy.xq ≠ [] ∧
    busy.xq.length < 32 ∧ engineOf (.amovi 1 3 none) = .a ∧ engineOf (.fence 0 1) = .y ∧ busy.aq ≠ [] ∧ busy.aq.length < 32 ∧
    (let x : Thread := { lanes with xq := List.replicate 32 (word (.vadd 3 1 2 0 0 0)), aq := List.replicate 32 (word (.amovi 1 3 none)) }
     AtFront (atWord true x (.vadd 3 1 2 0 0 0)) x ∧ 32 ≤ x.xq.length ∧ 32 ≤ x.aq.length) ∧
    AtFront (atWord true busy .vwait) busy :=
  ⟨atFront_word busy _ rfl rfl ⟨rfl, rfl, by decide⟩, rfl, by decide, by decide, rfl, rfl, by decide, by decide,
    ⟨atFront_word _ _ rfl rfl ⟨rfl, rfl, by decide⟩, by decide, by decide⟩, atFront_word busy _ rfl rfl ⟨rfl, rfl, by decide⟩⟩

/-! ### Witnesses: tensor memory -/

/-- A tensor of 40 by 33 words of i32 in tiles of 32 by 32, swizzled, the second dimension innermost; its map at 0x150000, its frames from
0x160000. -/
def cloth : List Word := [0xA230C00008000000, 0xA5, 0x0000002100000028, 0, 0, 0x150000, 1, 0]

/-- A thread that names the tensor in a1, its last element in k2, the second of its last row in k3, the last of its
first row in k4; an index vector for rows 0 and 39. -/
def weaver : Thread :=
  { Thread.blank with
    f := { Thread.blank.f with a := [(1, 1), (2, 0xFFFFFFFF80000001), (4, 5), (5, 6)], k := [(2, [(0, 39), (1, 32)]), (3, [(0, 39), (1, 1)]), (4, [(1, 32)])] }
    q := { Thread.blank.q with
      vaq := [QE.now (BitVec.allOnes 2048 ^^^ 0xFFFFFFD8FFFFFFFF#2048) 0], sq := [QE.now 0x1122334455667788 0] } }

/-- The task that holds the tensor's four tiles, near, and may read, write and reduce. -/
def holder : Task :=
  { id := 1, svc := 0, queue := 0, launch := 0, gang := 0, seq := 0, run := 0, cls := 0, st := .running, hdr := []
    ranges := [{ tid := 1, mode := 1, op := 0, isOpen := false, lo := [0, 0], hi := [40, 33] }]
    held := (List.range 4).map (fun n => { tid := 1, idx := n, frame := wd (0xC000000000160000 + 4096 * n), count := 1, shadow := none,
                                           written := false, handle := none })
    extra := 0, deps := [], die := 0, cores := [0], leaveOk := true, leave := 0, leaseOk := 0, saved := none, doom := 0, culprit := none, tag := 0 }

/-- Its package, with a byte of the last element in memory. -/
def woven (i : Instr) : State :=
  let s := atWord false weaver i
  let s := { s with dcache := [(1, cloth)], tasks := [holder], mem := (s.mem.putWord 0x150000 0x151001).put 0x1633B0 0x5A }
  (List.range 4).foldl (fun s n => { s with mem := s.mem.putWord (0x151000 + 16 * n) (wd (0xC000000000160000 + 4096 * n)) }) s

/-- The descriptor that the eight words hold. -/
def clothDesc : Desc := Desc.ofWords cloth

/-- The place in near memory of the element at some coordinates, as 10 R257 gives it. -/
def clothPa (c : List Nat) : Nat := 0x160000 + 4096 * (clothDesc.loc c).1 + swz 3 (clothDesc.loc c).2

/-- `Near`, as a test. -/
def nearB (s : State) (c : List Nat) (n : Nat) (a : Access) (pa : Nat) : Bool :=
  clothDesc.inside c && decide ((clothDesc.loc c).2 % n = 0) && decide (holder.leaseFails clothDesc 1 (clothDesc.loc c).1 a = none) &&
    (s.untagged clothDesc (clothDesc.loc c).1 == false) && (match holder.held? 1 (clothDesc.loc c).1 with
      | some h => decide (resid? h.frame true = some .resident) && decide (pa = frameBase h.frame + swz clothDesc.swz (clothDesc.loc c).2)
      | none => false)

theorem near_of {s : State} {c : List Nat} {n : Nat} {a : Access} {pa : Nat} (h : nearB s c n a pa = true) : Near s holder 1 clothDesc c n a pa := by
  simp only [nearB, Bool.and_eq_true, decide_eq_true_eq, beq_iff_eq] at h
  obtain ⟨⟨⟨⟨h1, h2⟩, h3⟩, h4⟩, h5⟩ := h
  cases hh : holder.held? 1 (clothDesc.loc c).1 with
  | none => simp [hh] at h5
  | some x =>
    simp only [hh, Bool.and_eq_true, decide_eq_true_eq] at h5
    exact ⟨h1, h2, h3, h4, x, hh, h5.1, h5.2⟩

/-- `Served`, as a test. -/
def servedB (s : State) (pa : Nat) : Bool :=
  (s.storing 0 (pa / 32) == false) && (s.reducing 0 (pa / 32) == false) && (s.meshIdle 0 == true) &&
    decide ((s.die (homeDie pa)).allot.get 0 (s.chanOf weaver).cls = 0) && ((s.die (homeDie pa)).eccPend == false) && (s.marked (pa / 32) == false)

theorem served_of {s : State} {pa : Nat} (h : servedB s pa = true) : Served s weaver pa := by
  simp only [servedB, Bool.and_eq_true, decide_eq_true_eq, beq_iff_eq] at h
  obtain ⟨⟨⟨⟨⟨h1, h2⟩, h3⟩, h4⟩, h5⟩, h6⟩ := h
  exact ⟨h1, h2, h3, h4, h5, h6⟩

theorem plain_woven (i : Instr) : AtPlainAccess (woven i) weaver :=
  ⟨⟨rfl, rfl⟩, by decide, by decide, by intro k hk; simp [woven, atWord, List.range, List.range.loop] at hk; subst hk; decide⟩

theorem tensor_woven (i : Instr) (rs : List (BitVec 5)) (kr : BitVec 3) (hr : weaver.aReady 0 1 rs = .ok ())
    (hp : (woven i).posted weaver 5 = false) (hq : (woven i).quiet weaver 5 = .ok ()) : AtTensorWord (woven i) weaver rs kr :=
  ⟨plain_woven i, hr, rfl, hp, hq, rfl, rfl, fun g hg => absurd hg (List.not_mem_nil (a := g)), rfl, fun _ _ _ => rfl⟩

theorem clean_woven (i : Instr) (pa : Nat) : OwnClean (woven i) 0 pa := by
  have hc : (woven i).cores = [] := rfl
  intro x hx
  simp [State.core, hc, Tab.get, Core.init, Tab.find] at hx
theorem roomy_woven (i : Instr) : Roomy (woven i) 0 := by
  have hd : (woven i).dies = [] := rfl
  have hc : (woven i).cores = [] := rfl
  exact ⟨by simp [State.core, hc, Tab.get, Core.init, l1Lines], fun d n l hl => by simp [State.die, hd, Tab.get, Die.init, Tab.find] at hl⟩

theorem named_woven (i : Instr) (h : (woven i).desc? 0 1 = some clothDesc) : Named (woven i) weaver (weaver.aVal 1) holder 1 clothDesc :=
  ⟨rfl, by decide, h, rfl, rfl, by decide⟩

/-- TensorLoadsBringTheirBytes: the last element by TLD and LDAQ, a run of 32 lanes, and two picked lanes. -/
theorem test_meets_TensorLoads : AtTensorWord (woven (.tld 4 1 2 1 2)) weaver [1] 2 ∧ Named (woven (.tld 4 1 2 1 2)) weaver (weaver.aVal 1) holder 1 clothDesc ∧
    weaver.aRoom 4 = .ok () ∧ weaver.lqRoom 28 = .ok () ∧
    Near (woven (.tld 4 1 2 1 2)) holder 1 clothDesc (weaver.coords 2) 4 .load (clothPa [39, 32]) ∧
    Served (woven (.tld 4 1 2 1 2)) weaver (clothPa [39, 32]) ∧ (woven .nop).mem.wf = true ∧ Roomy (woven (.tld 4 1 2 1 2)) 0 :=
  ⟨tensor_woven _ _ _ rfl (by decide +kernel) (by rfl), named_woven _ (by decide +kernel), rfl, rfl, near_of (by decide +kernel),
    served_of (by decide +kernel), by decide +kernel, roomy_woven _⟩
theorem test_meets_TensorLoads_run : (tensorLanes weaver (.tldv 28 1 3) clothDesc).length = 32 ∧
    ∀ p ∈ tensorLanes weaver (.tldv 28 1 3) clothDesc, Near (woven (.tldv 28 1 3)) holder 1 clothDesc p.2 1 .load (clothPa p.2) ∧
      Served (woven (.tldv 28 1 3)) weaver (clothPa p.2) := by
  have h : (tensorLanes weaver (.tldv 28 1 3) clothDesc).all (fun p => nearB (woven (.tldv 28 1 3)) p.2 1 .load (clothPa p.2) &&
      servedB (woven (.tldv 28 1 3)) (clothPa p.2)) = true := by decide +kernel
  refine ⟨by decide +kernel, fun p hp => ?_⟩
  have := List.all_eq_true.1 h p hp
  rw [Bool.and_eq_true] at this
  exact ⟨near_of this.1, served_of this.2⟩
theorem test_meets_TensorLoads_picked : tensorLanes weaver (.tldg 28 1 4 0) clothDesc = [(0, [0, 32, 0, 0, 0, 0]), (1, [39, 32, 0, 0, 0, 0])] ∧
    headReady 0 weaver.q.vaq = true ∧ (0#3).toNat < clothDesc.rank ∧
    nearB (woven (.tldg 28 1 4 0)) [0, 32, 0, 0, 0, 0] 1 .load (clothPa [0, 32]) = true ∧
    nearB (woven (.tldg 28 1 4 0)) [39, 32, 0, 0, 0, 0] 1 .load (clothPa [39, 32]) = true := by decide +kernel

/-- TensorStoresPutTheirBytes: one element at `.grp` and wider, and two lanes. -/
theorem test_meets_TensorStores : AtTensorWord (woven (.tst 2 1 2 0 2)) weaver [1, 2] 2 ∧
    Near (woven (.tst 2 1 2 0 2)) holder 1 clothDesc (weaver.coords 2) 4 .store (clothPa [39, 32]) ∧
    Served (woven (.tst 2 1 2 0 2)) weaver (clothPa [39, 32]) ∧ AtTensorWord (woven (.strl 2 1 2 3 0)) weaver [1, 2] 2 ∧
    AtTensorWord (woven (.tstg 1 4 0 0)) weaver [1] 4 ∧ headReady 0 weaver.q.sq = true ∧ headReady 0 weaver.q.vaq = true ∧
    (∀ p ∈ [(0, [0, 32, 0, 0, 0, 0]), (1, [39, 32, 0, 0, 0, 0])],
      nearB (woven (.tstg 1 4 0 0)) (p : Nat × List Nat).2 1 .store (clothPa p.2) = true) ∧
    ((woven (.strl 2 1 2 3 0)).releaseAt 0 3 ((woven (.strl 2 1 2 3 0)).vcOf weaver)).writingBack 0 = false ∧ OwnClean (woven (.tst 2 1 2 2 2)) 0 (clothPa [39, 32]) :=
  ⟨tensor_woven _ _ _ rfl (by decide +kernel) (by rfl), near_of (by decide +kernel), served_of (by decide +kernel),
    tensor_woven _ _ _ rfl (by decide +kernel) (by rfl), tensor_woven _ _ _ rfl (by decide +kernel) (by rfl), rfl, rfl, by decide +kernel,
    by decide +kernel, clean_woven _ _⟩

/-- AtomicsAndReductions: an addition that returns, a compare and swap, a reduction that returns nothing. -/
theorem test_meets_Atomics : AtTensorWord (woven (.amo 4 1 0 2 0 0)) weaver [1, 4] 2 ∧ (Instr.amo 4 1 0 2 0 0).wellFormed = true ∧
    Near (woven (.amo 4 1 0 2 0 0)) holder 1 clothDesc (weaver.coords 2) (codeBytes 0) .atomic (clothPa [39, 32]) ∧
    Served (woven (.amo 4 1 0 2 0 0)) weaver (clothPa [39, 32]) ∧ (Instr.amoc 4 1 3 2 3 0).wellFormed = true ∧
    AtTensorWord (woven (.amoc 4 1 3 2 3 0)) weaver [1, 4, 5] 2 ∧
    Near (woven (.amoc 4 1 3 2 3 0)) holder 1 clothDesc (weaver.coords 2) (codeBytes 0x18) .atomic (clothPa [39, 32]) ∧
    (Instr.red 2 1 2 2 3 0).wellFormed = true ∧ AtTensorWord (woven (.red 2 1 2 2 3 0)) weaver [1, 2] 2 ∧
    Near (woven (.red 2 1 2 2 3 0)) holder 1 clothDesc (weaver.coords 2) (codeBytes 0) (.red 0) (clothPa [39, 32]) ∧
    (2#2).getLsbD 1 = true ∧ ((woven (.red 2 1 2 2 3 0)).releaseAt 0 3 ((woven (.red 2 1 2 2 3 0)).vcOf weaver)).writingBack 0 = false :=
  ⟨tensor_woven _ _ _ rfl (by decide +kernel) (by rfl), by decide, near_of (by decide +kernel), served_of (by decide +kernel), by decide,
    tensor_woven _ _ _ rfl (by decide +kernel) (by rfl), near_of (by decide +kernel), by decide, tensor_woven _ _ _ rfl (by decide +kernel) (by rfl),
    near_of (by decide +kernel), rfl, by decide +kernel⟩

/-- Without an active format range no sector is minted. -/
theorem plain_side {s : State} (h : ∀ p ∈ s.regs, p.1 < 0x20000) (pa : Nat) : s.sideAddr? pa = none := by
  have hf : ∀ (l : Tab Word) (j : Nat), (∀ p ∈ l, p.1 < 0x20000) → 0x20000 ≤ j → Tab.find l j = none := by
    intro l j hl hj
    induction l with
    | nil => rfl
    | cons p r ih =>
      have := hl p (List.mem_cons_self ..)
      have hn : j ≠ p.1 := by omega
      simp [Tab.find, hn, ih (fun q hq => hl q (List.mem_cons_of_mem _ hq))]
  have hr (k : Nat) : s.fmtRanges k = [] := by
    have hc (n : Nat) : s.reg (.fmtCtl k n) = 0 := by
      have := hf s.regs (Reg.fmtCtl k n).off h (by simp [Reg.off]; omega)
      simp [State.reg, this, Reg.reset]
    simp [State.fmtRanges, hc, fld]
  simp [State.sideAddr?, hr]

/-- FencesAndScopes: a fence of both kinds; an L1 with a dirty sector below the scope and a clean one. -/
theorem test_meets_Fences : AtPlainAccess (woven (.fence 3 3)) weaver ∧ (3#2).getLsbD 1 = true ∧ (woven (.fence 3 3)).quiet weaver 3 = .ok () ∧
    ((woven (.fence 3 3)).releaseAt 0 3 ((woven (.fence 3 3)).vcOf weaver)).writingBack 0 = false ∧
    (let l : Tab L1Sect := [(0xB1C7, { data := 7, fill := 0, dirty := some 1, wmask := 1, side := none, task := 1, stamp := none }),
       (0xB1C8, { data := 9, fill := 0, dirty := none, wmask := 0, side := none, task := 1, stamp := none })]
     List.Pairwise (fun x y : Nat × L1Sect => x.1 < y.1) l) ∧
    (∀ pa, (woven .nop).sideAddr? pa = none) ∧ (∀ d, ((woven .nop).die d).allot.get 0 0 = 0 ∧ ((woven .nop).die d).eccPend = false) :=
  ⟨plain_woven _, rfl, by rfl, by decide +kernel, by decide, plain_side (by decide +kernel), fun _ => ⟨rfl, rfl⟩⟩

/-! ### Witnesses: the fragments -/

/-- The package whose group holds strips 0 and 1 of die 0 in a lease, with a word at strip 0's sequencer: in its nest, or at its queue's head. -/
def fielded (x : Strip) (mode : Nat) (nest : Bool) (e : QEntry) : State :=
  let s := atWord false Thread.blank e.ins
  let y : Strip := { Strip.init with st := .held, task := 1, group := 0, lease := 7, mode := mode }
  { s with
    groups := s.groups.map (fun g => { g with mask := 3, lease := 7, shape := 1 })
    dies := [(0, { Die.init with strips := [(0, { x with st := .held, task := 1, group := 0, lease := 7, mode := mode }), (1, y)] })]
    cur := { s.cur with e := e, unit := some (0, 0, nest) } }

/-- The same with the word at the front of its thread. -/
def steering (i : Instr) : State :=
  let s := fielded Strip.init 0 false (word i)
  { s with cur := { s.cur with front := true, unit := none } }

/-- EngineWordsAreCapturedAndQueued: without and with a lease, a nest before a word that takes none. -/
theorem test_meets_EngineWords : AtFront (steering (.mldb 3 0 0 0 0)) Thread.blank ∧ (steering (.mldb 3 0 0 0 0)).cur.unit = none ∧
    (mWordOf (.mldb 3 0 0 0 0)).isSome = true ∧ ((steering (.mldb 3 0 0 0 0)).groupOf? Thread.blank).map (·.mask) = some 3 ∧
    Thread.blank.sReady 0 [3, 0, 0] = .ok () ∧ ((steering (.mldb 3 0 0 0 0)).strip 0 0).q.length < 64 ∧
    ((atWord true Thread.blank (.mldb 3 0 0 0 0)).groupOf? Thread.blank).map (·.mask) = some 0 ∧ Thread.blank.settled 0 = true ∧
    (cWordOf (.copf 3 4 0 0 0 0 0)).isSome = true ∧ ((steering (.copf 3 4 0 0 0 0 0)).chan 0 0).q.length < 32 ∧
    AtFront (steering (.copf 3 4 0 0 0 0 0)) { Thread.blank with nests := [] } ∧ Thread.blank.sReady 0 [3, 0] = .ok () ∧
    EndClean Thread.blank 4 true :=
  ⟨⟨rfl, rfl, test_calm_blank⟩, rfl, rfl, rfl, rfl, by decide, rfl, rfl, rfl, by decide, ⟨rfl, rfl, test_calm_blank⟩, rfl,
    fun _ _ _ => List.not_mem_nil⟩

/-- SelectionAndModeWords: the last place of the lease and the first beyond it; MCONF at the front and at the heads of both queues. -/
theorem test_meets_Selection : AtFront (steering (.msel 1)) Thread.blank ∧ (steering (.msel 1)).groupOf? Thread.blank = some { own0 with mask := 3, lease := 7, shape := 1 } ∧
    (1#3).toNat < (stripsIn 3).length ∧ (stripsIn 3).length ≤ (2#3).toNat ∧ (∀ i ∈ stripsIn 3, ((steering (.mconf 1)).strip 0 i).q.length < 64) :=
  ⟨⟨rfl, rfl, test_calm_blank⟩, rfl, by decide, by decide, by decide⟩

/-- Both queues of the lease with a copy of MCONF at their heads. -/
def bothHeads : State :=
  let e := word (.mconf 1)
  let s := fielded { Strip.init with q := [e] } 0 false e
  s.modStrip 0 1 (fun x => { x with q := [e] })

/-- A word at the head of strip 0's queue, the strip standing as `x`. -/
theorem atHead_of {s : State} {x : Strip} (hu : s.cur.unit = some (0, 0, false)) (hx : s.strip 0 0 = x) (hf : x.fault = false)
    (ht : s.thread? s.cur.e.c s.cur.e.t = some Thread.blank) (hz : s.atHorizonOf s.cur.e = true) (hl : x.last = 0) (hv : x.leave = 0) :
    AtStripHead s 0 0 x :=
  ⟨⟨hu, by decide, hx, hf, by intro th h; rw [ht] at h; cases h; rfl⟩, hz, .inl hl, hv⟩

theorem test_meets_ModeWords : AtStripHead bothHeads 0 0 (bothHeads.strip 0 0) ∧ (bothHeads.strip 0 0).recording = 0 ∧
    bothHeads.drivers 0 0 = [0, 1] ∧ bothHeads.leaseStrips 0 0 = [0, 1] ∧
    (∀ i ∈ [0, 1], (bothHeads.strip 0 i).fault = false ∧ (bothHeads.strip 0 i).leave = 0 ∧ (bothHeads.strip 0 i).still = true ∧
      (bothHeads.strip 0 i).q = [word (.mconf 1)]) ∧ bothHeads.cur.e = word (.mconf 1) :=
  ⟨atHead_of rfl rfl rfl rfl (by decide) rfl rfl, rfl, by decide, by decide, by decide, rfl⟩

/-- MatrixQueueAndNests, the words at a queue's head: reserved bits of MNEST at their boundary, a body being recorded and not, the last slots. -/
theorem test_meets_MatrixQueue : AtStripHead (fielded Strip.init 0 false (word .mmqclr)) 0 0 { Strip.init with st := .held, task := 1, lease := 7 } ∧
    Strip.init.recording = 0 ∧ Strip.init.still = true ∧ (wd (2 ^ 26 - 1)).toNat < 2 ^ 26 ∧ 2 ^ 26 ≤ (wd (2 ^ 26)).toNat ∧
    bodyWordOf (.mzacc 1 0 0) = some 1 ∧ ({ Strip.init with recording := 1 } : Strip).recording = 0 + 1 ∧
    ((fielded Strip.init 0 false (word (.mclm 1 0 14))).leaseStrips 0 0)[(0#3).toNat]? = some 0 ∧ (14#4).toNat + (1#4).toNat < 16 ∧
    (∀ i, i < 16 → (Strip.init.slots.get Slot.init i).st = none) ∧
    ((({ Strip.init with slots := [(15, { Slot.init with st := some .ready })] } : Strip).slots.get Slot.init 15).st ≠ none) :=
  ⟨atHead_of rfl rfl rfl rfl (by decide) rfl rfl, rfl, rfl, by decide, by decide, rfl, rfl, by decide, by decide, by decide, by decide⟩

/-- A strip that has recorded a body of one word over one level of three iterations; and the same with its nest running. -/
def recorded : Strip := { Strip.init with body := [word (.mzacc 0 0 0)], shadow := [(0, { a := 3, b := 0 })] }
def nestRun (e : QEntry) : NestRun := { levels := 1, idx := [0], word := 0, finished := false, obj := none, leaveId := 0, e := e }
def running (e : QEntry) : Strip := { recorded with run := some (nestRun e), abody := [e], active := [(0, { a := 3, b := 0 })] }

/-- MGO of one level without a completion object. -/
def going : QEntry := { word (.mgo 1 2) with capA := [1] }

/-- MatrixQueueAndNests, MGO: that asks for leave, that has it granted; and a nest that has finished. -/
theorem test_meets_Nests : AtStripHead (fielded recorded 0 false going) 0 0 { recorded with st := .held, task := 1, lease := 7 } ∧
    (fielded recorded 0 false going).goChk { recorded with st := .held, task := 1, lease := 7 } going = .ok (1, none) ∧
    (let x := { recorded with st := .held, task := 1, lease := 7, leave := 4, granted := true }
     AtStrip (fielded { recorded with leave := 4, granted := true } 0 false going) 0 0 false x ∧ x.leave ≠ 0 ∧ x.granted = true ∧ x.still = true) ∧
    Now (atStep (fielded { recorded with run := some { nestRun going with finished := true } } 0 false going) (.nestComplete 0 0)) (.nestComplete 0 0) :=
  ⟨atHead_of rfl rfl rfl rfl (by decide) rfl rfl, by rfl,
    ⟨⟨rfl, by decide, rfl, rfl, by intro th h; cases h; rfl⟩, by decide, rfl, rfl⟩, rfl⟩

/-- A word of strip 0's nest, the strip standing as `running e` with more. -/
theorem inNest_of {s : State} {x : Strip} {r : NestRun} (hu : s.cur.unit = some (0, 0, true)) (hx : s.strip 0 0 = x) (hf : x.fault = false)
    (ht : s.thread? s.cur.e.c s.cur.e.t = some Thread.blank) (hr : x.run = some r) (hg : r.finished = false) (hd : x.drain = none) :
    InNest s 0 0 x r 0 :=
  ⟨⟨hu, by decide, hx, hf, by intro th h; rw [ht] at h; cases h; rfl⟩, hr, hg, hd, .inl rfl⟩

/-- A slot with an operand of i8, ready. -/
def operand : Slot := { Slot.init with st := some .ready, ty := 0, data := [(0, 2), (511, 255)] }

/-- A strip in whose nest the word `e` runs, with the operand in slot 15 and weights of i8 in front. -/
def loaded (e : QEntry) : Strip :=
  { running e with
    st := .held, task := 1, lease := 7, slots := [(14, { Slot.init with st := some .empty }), (15, operand)],
    front := { Weights.empty with ty := some 0, lo := [(0, 3)] }
    mq := [BitVec.ofNat 2048 ((2 ^ 2048 - 1) / 15 * 4)], acc := [(0, { Acc.init with tag := .i32, e := [(0, 5)], undrained := true })] }

/-- A word that names slot 15 of the first strip. -/
def slotWord (i : Instr) : QEntry := { word i with capD := [15], capA := [0] }

/-- WeightsAndPasses: a guard that fails, a load of weights, a pass, zeroing; in the independent mode. -/
theorem test_meets_Weights : (let e := slotWord (.mldb 1 0 0 0 0)
     InNest (fielded (loaded e) 0 true e) 0 0 (loaded e) (nestRun e) 0 ∧ NamesSlot (fielded (loaded e) 0 true e) 0 0 (loaded e) (nestRun e) 15 20 15 ∧
       SlotReady (loaded e) 15 0 operand) ∧
    (let e := slotWord (.mmma 1 0 0 0 0)
     InNest (fielded (loaded e) 0 true e) 0 0 (loaded e) (nestRun e) 0 ∧ NamesSlot (fielded (loaded e) 0 true e) 0 0 (loaded e) (nestRun e) 15 16 15 ∧
       (fielded (loaded e) 0 true e).fragOf 0 0 = [0] ∧ (fielded (loaded e) 0 true e).chained 0 0 = false ∧
       ((fielded (loaded e) 0 true e).strip 0 0).swap.admitsPass 0 0 false = true) ∧
    (loaded (slotWord (.mmma 1 1 0 0 0))).lastOfRed (nestRun (slotWord (.mmma 1 2 0 0 0))) = true :=
  ⟨⟨inNest_of rfl rfl rfl rfl rfl rfl rfl, ⟨by decide, by decide, by decide⟩, rfl, rfl, rfl, rfl⟩,
    ⟨inNest_of rfl rfl rfl rfl rfl rfl rfl, ⟨by decide, by decide, by decide⟩, by decide, by decide, by decide⟩, by decide⟩
/-- … a sparse pass: the front of a pair of weights, and a metadata entry that keeps the first and second element of each group of four. -/
theorem test_meets_Weights_sparse : (let e := slotWord (.mmms 1 0 0 0 0)
    let x := { loaded e with front := { (loaded e).front with pair := true } }
    InNest (fielded x 0 true e) 0 0 x (nestRun e) 0 ∧ x.swap.admitsPass 0 0 true = true ∧ x.mq.length = 1 ∧
      (keptPairs (x.mq.headD 0) (lineLen 0 / 2)).isSome = true) :=
  ⟨inNest_of rfl rfl rfl rfl rfl rfl rfl, by decide, rfl, by decide +kernel⟩
/-- … a pass in the chained mode, on the lowest strip, within the reduction. -/
theorem test_meets_Weights_chained : (let e := slotWord (.mmmc 1 2 0 0 0 0)
    let x := { loaded e with mode := 2, active := [(0, { a := 0x2000003, b := 0 })], run := some { nestRun e with idx := [0] } }
    InNest (fielded x 2 true e) 0 0 x { nestRun e with idx := [0] } 0 ∧ (fielded x 2 true e).chained 0 0 = true ∧
      (fielded x 2 true e).fragOf 0 0 = [0, 1] ∧ (e.capA.getD 0 0).toNat < 4 ∧ x.lastOfRed { nestRun e with idx := [0] } = false) :=
  ⟨inNest_of rfl rfl rfl rfl rfl rfl rfl, by decide, by decide, by decide, by decide⟩

/-- PassesMultiplyAndAdd: lanes of u8 and of i8 that differ in sign, at the greatest values of a lane. -/
theorem test_meets_Passes : (∀ p ∈ [(255, 128), (1, 255)], (p : Nat × Nat).1 < 256 ∧ p.2 < 256) ∧ laneZ (BitVec.ofNat 4 3) 255 * laneZ (BitVec.ofNat 4 0) 128 = -32640 := by
  decide

/-! ### Witnesses: drains -/

/-- The fragment with an empty tile 1 of i8 that fills the window. -/
def draining (x : Strip) (e : QEntry) : State :=
  (fielded x 0 true e).modCore 0 (fun k => { k with tiles := [(1, { base := 0, size := 128, ty := 0, swz := 0, st := .empty })] })

/-- A drain word to tile 1. -/
def drainWord : QEntry := { word (.mdrn 4 1 2 0 0 0 0) with capD := [0x1001, 0, 0, 0], capA := [0], capB := 0 }
/-- The strip as its words find it. -/
def ripe (e : QEntry) : Strip := { loaded e with mode := 0 }

/-- A drain whose last sector has landed. -/
def drained (e : QEntry) : Run :=
  { e := e, svc := 0, grp := 0, left := [], done := 2048, conv := 0, sat := false, sBits := 32, dBits := 8, red := none, fault := none, flips := []
    slot := none, objs := [], leaveId := 0, half := 0, fet := [], drw := false, drt := false, inp := [], sent := false, vc := none, units := 0,
    nest := none, coll := none, back := [] }

/-- DrainsMoveAccumulators: a drain that starts, and one that has ended. -/
theorem test_meets_Drains : InNest (draining (loaded drainWord) drainWord) 0 0 (loaded drainWord) (nestRun drainWord) 0 ∧
    (match (draining (loaded drainWord) drainWord).drainChk (loaded drainWord) (nestRun drainWord) 0 with
      | .ok m => (draining (loaded drainWord) drainWord).tilesIn m.x.entries .empty && !m.k.guarded &&
          m.x.entries.all (fun p => (((draining (loaded drainWord) drainWord).core p.1).tiles.find p.2).all (!·.mark))
      | .error _ => false) = true ∧
    (((draining (loaded drainWord) drainWord).strip 0 0).acc.get Acc.init (halfIn (loaded drainWord) (nestRun drainWord) 0)).marks = [] ∧
    (let x := { loaded drainWord with drain := some (drained drainWord) }
     AtStrip (draining x drainWord) 0 0 true x ∧ x.run = some (nestRun drainWord) ∧ x.drain = some (drained drainWord) ∧ x.amax = none ∧
       0 ∈ (draining x drainWord).fragOf 0 0) :=
  ⟨inNest_of rfl rfl rfl rfl rfl rfl rfl, by decide +kernel, by decide,
    ⟨rfl, by decide, rfl, rfl, by intro th h; cases h; rfl⟩, rfl, rfl, rfl, by decide⟩
/-- … an operand stored to slot 14, and MAMAX without a reference. -/
theorem test_meets_Drains_slot : (let e := { word (.mdrc 1 2 0 0 1 0) with capD := [14], capA := [0] }
     InNest (draining (loaded e) e) 0 0 (loaded e) (nestRun e) 0 ∧ NamesSlot (draining (loaded e) e) 0 0 (loaded e) (nestRun e) 14 16 14 ∧ e.capB = 0 ∧
       ((loaded e).slots.get Slot.init 14).st = some .empty ∧ ((draining (loaded e) e).groupOn? e.task e.c).isSome = true) ∧
    (let e := { word (.mamax 1 0 0) with capA := [0] }
     InNest (draining (loaded e) e) 0 0 (loaded e) (nestRun e) 0 ∧
       ∃ k, (draining (loaded e) e).task? e.task = some k ∧ (draining (loaded e) e).amaxRef k (e.capA.getD 0 0) = .ok none) :=
  ⟨⟨inNest_of rfl rfl rfl rfl rfl rfl rfl, ⟨by decide, by decide, by decide⟩, rfl, by decide, by decide⟩,
    inNest_of rfl rfl rfl rfl rfl rfl rfl, _, rfl, by rfl⟩

/-! ### Witnesses: copy channels -/

/-- A copy of 64 bytes of tile 1 to tile 2, counted at object 1; and one whose run is empty, which faults. -/
def copying : QEntry :=
  { word (.ccpy 4 8 15 0 0 0 0) with capD := [0x1002, 0, 0, 0], capA := [0x1001, 0, 0, 0], capB := wd (64 * 2 ^ 40 + 2 ^ 30 + 1) }
def emptyRun : QEntry := { copying with capB := 0 }

/-- The package with a ready and an empty tile of one unit, and a channel that stands as `x`. -/
def channelled (x : Chan) : State :=
  let s := atWord false Thread.blank .nop
  s.modCore 0 (fun k => { k with
    sp := [(5, 7)], chans := [(0, x)]
    tiles := [(1, { base := 0, size := 1, ty := 0, swz := 0, st := .ready }), (2, { base := 1, size := 1, ty := 0, swz := 0, st := .empty })] })

/-- The form of CCPY. -/
def ccpyForm : CForm := (cForm copying.ins).get rfl

/-- The task of the placed thread. -/
def placed : Task :=
  { id := 1, svc := 0, queue := 0, launch := 0, gang := 0, seq := 0, run := 0, cls := 0, st := .running, hdr := [], ranges := [], held := [],
    extra := 0, deps := [], die := 0, cores := [0], leaveOk := true, leave := 0, leaseOk := 0, saved := none, doom := 0, culprit := none, tag := 0 }

theorem atChannel_of (e : QEntry) (hf : cForm e.ins = some ccpyForm) (he : e.c = 0 ∧ e.t = 0 ∧ e.task = 1)
    (hz : (channelled { Chan.init with q := [e] }).atHorizonOf e = true) :
    AtChannel (atStep (channelled { Chan.init with q := [e] }) (.copyCommandStart 0 0)) 0 0 e [] placed own0 ccpyForm :=
  ⟨rfl, rfl, rfl, by rw [he.2.2]; rfl, by decide, by rw [he.2.2]; rfl, hf, by decide, hz, .inl rfl, .inl rfl, rfl, by
    intro th h; rw [he.1, he.2.1] at h; cases h; rfl⟩
/-- A run of the copy: its two units left, or one, or none. -/
def copyRun (l : List Sector) (f : Option (BitVec 6)) : Run :=
  { e := copying, svc := 0, grp := 0, left := l, done := 0, conv := 0, sat := false, sBits := 8, dBits := 8, red := none, fault := f
    flips := [(0, 2, .ready, .empty)], slot := none, objs := [(0, 1)], leaveId := 0, half := 0, fet := [], drw := false, drt := false, inp := [], sent := false, vc := none, units := 0,
    nest := none, coll := none, back := [] }

/-- CommandsRunOnTheirChannels: a start with a plan and one with a fault. -/
theorem test_meets_Commands_start :
    AtChannel (atStep (channelled { Chan.init with q := [copying] }) (.copyCommandStart 0 0)) 0 0 copying [] placed own0 ccpyForm ∧
    (let s := atStep (channelled { Chan.init with q := [copying] }) (.copyCommandStart 0 0)
     match s.command placed own0 copying ccpyForm with
      | .ok m => m.coll.isNone && m.slot.isNone && m.index.isEmpty && (leaveOf placed m).isNone && decide (m.op ≠ .rem) &&
          decide (m.op ≠ .mc) && s.tilesIn (m.dsts.flatMap (fun d => d.1.entries)) .empty && m.src.isSome
      | .error _ => false) = true ∧
    (let s := atStep (channelled { Chan.init with q := [emptyRun] }) (.copyCommandStart 0 0)
     match s.command placed own0 emptyRun ccpyForm with
      | .ok _ => 0
      | .error c => c) = (0x11 : BitVec 6) :=
  ⟨atChannel_of copying rfl ⟨rfl, rfl, rfl⟩ (by decide), by decide +kernel, by decide +kernel⟩

/-- A unit that the copy lands. -/
def unit0 : Sector := byteUnit 0 512 (fun j => (0, j)) 32 (some (0, 1))

/-- … a unit that lands and one after it; a command that ends, well and with a fault; the answers of peers. -/
theorem test_meets_Commands_run : (let s := atStep (channelled { Chan.init with run := some (copyRun [unit0, unit0] none) }) (.sectorLands 0 0)
      Now s (.sectorLands 0 0) ∧ (s.chan 0 0).run = some (copyRun [unit0, unit0] none) ∧ [unit0] ≠ [] ∧ (s.core 0).sp.wf = true ∧
        (∀ j, j < 32 → s.spPoisoned 0 j 1 = none) ∧ ((s.core 0).bar 1).bytes - 32 < 2 ^ 63) ∧
    (let s := atStep (channelled { Chan.init with run := some (copyRun [] (some 0x11)) }) (.copyCommandComplete 0 0)
     Now s (.copyCommandComplete 0 0) ∧ (s.chan 0 0).run = some (copyRun [] (some 0x11)) ∧ (copyRun [] (some 0x11)).sent = false ∧
        (s.core 0).tiles.find 2 ≠ none ∧ (∀ g ∈ s.groups, g.ended = false) ∧ (s.thread? 0 0).map (·.task) = some copying.task) ∧
    (let q : FabReq :=
       { id := 1, pkg := 0, kind := 4, addr := 0, op := 0, data := 0, mask := 0, who := .chan 0 0, since := 0, sync := false, corr := 0, fill := none }
     let s := ({ channelled { Chan.init with run := some (copyRun [unit0, unit0] none) } with fab := [q, { q with kind := 5 }] } : State).setReg .fabPen 1
     Now (atStep s (.cremAck 0 0 false)) (.cremAck 0 0 false) ∧ s.portOpen = true ∧ s.fab.any (fun f => f.who == .chan 0 0 && f.kind == 4) = true ∧
       s.fab.any (fun f => f.who == .chan 0 0 && f.kind == 5) = true) :=
  ⟨⟨rfl, rfl, by decide, rfl, by decide, by decide⟩, ⟨rfl, rfl, rfl, by decide, by decide, rfl⟩, rfl, by decide, by decide, by decide⟩

/-! ### Witnesses: waits, the debug interface, messages -/

/-- A wait that has reached its limit at cycle 0. -/
def overdue (w : WaitWhy) : Wait := { why := some w, since := 0, limit := 10 }
/-- A package at cycle 10 whose thread stands as `th`. -/
def late (th : Thread) : State := { atWord false th .nop with now := 10 }

/-- A thread with one entry that awaits its data, overdue waits on all stages, and a SLEEP that ends. -/
def waiting : Thread :=
  { Thread.blank with
    q := { Thread.blank.q with lq0 := [QE.now 1 0, { QE.now 2 0 with full := false }], lq1 := [{ QE.now 2 0 with full := false }] }
    issue := { Thread.blank.issue with sleepEnd := some 10, waitF := some (overdue (.block 28)), waitV := some (overdue (.vstall 28)),
                                       waitA := some (overdue (.escrow 5)) }
    remote := [1030], own := 0 }

/-- WaitsOfThreadsEnd: data for the second entry of lq0 and the first of lq1, a trap of the front, overdue waits at the front and behind an
access word, the end of a SLEEP at its very cycle, a registrant's class. -/
theorem test_meets_Waits : (late waiting).thread? 0 0 = some waiting ∧
    waiting.q.lq0 = [QE.now 1 0] ++ { QE.now 2 0 with full := false } :: [] ∧ (∀ x ∈ [(QE.now 1 0 : QE Vec)], x.full = true) ∧
    waiting.q.lq1 = [] ++ { QE.now 2 0 with full := false } :: [] ∧ waiting.settled waiting.seq = true ∧ waiting.aq = [] ∧
    Overdue (late waiting) waiting.issue.waitF (.block 28) ∧ waiting.issue.got = none ∧ Overdue (late waiting) waiting.issue.waitV (.vstall 28) ∧
    Overdue (late waiting) waiting.issue.waitA (.escrow 5) ∧ ({ waiting with aq := [word .nop] } : Thread).settled (word .nop).seq = true ∧
    waiting.issue.sleepEnd = some 10 ∧ 10 ≤ (late waiting).now ∧ 1030 ∈ waiting.remote ∧
    (∀ e ∈ ([.loadDataArrive 0 0 .lq0, .takeTrap 0 0 0x0E 1, .waitTimeout 0 0, .escrowWaitTimeout 0 0, .linkstall 0 0, .vStallTimeout 0 0,
      .sleepExpiry 0 0, .inheritMessage 0 0 1030 3] : List Event), Now (atStep (late waiting) e) e) :=
  ⟨rfl, rfl, by decide, rfl, rfl, rfl, ⟨_, rfl, rfl, by decide, by decide⟩, rfl, ⟨_, rfl, rfl, by decide, by decide⟩,
    ⟨_, rfl, rfl, by decide, by decide⟩, rfl, rfl, by decide, by decide, fun _ _ => rfl⟩

/-- A store and a Y word's request on the mesh, the former as old as makes it urgent. -/
def storeMsg : Msg := { n := 3, die := 0, cls := 0, urgent := false, fast := false, since := 0, c := 0, t := 0, dest := 1, what := .store 1 64 8 0x1122334455667788 }
def wordMsg : Msg := { storeMsg with what := .yword 0 }
/-- A thread whose BWAIT has asked another core. -/
def asking : Thread := { Thread.blank with aq := [word (.bwait 5 3 0 0)], issue := { Thread.blank.issue with far := some (0, false) } }

/-- ThreadsAreReachedFromOutside: stops and releases, a task that nothing ends, messages, notification words and inbound entries. -/
theorem test_meets_Reached : (late Thread.blank).thread? 0 0 = some Thread.blank ∧ Thread.blank.issue.stopped = false ∧ Thread.blank.loops = [] ∧
    Thread.blank.csr.trc.getLsbD 0 = false ∧ ((late Thread.blank).task? 1).map (·.doom) = some 0 ∧
    (let s := { late asking with mesh := [storeMsg, wordMsg], now := 1024 }
     s.mesh[0]? = some storeMsg ∧ storeMsg.since + 1024 ≤ s.now ∧ (s.core 1).sp.wf = true ∧ s.mesh[1]? = some wordMsg ∧
       s.thread? 0 0 = some asking ∧ asking.issue.far = some ((word (.bwait 5 3 0 0)).seq, false) ∧ crosses (word (.bwait 5 3 0 0)).ins = true) ∧
    (let v : Word := 0x800000000000FFF8
     v.getLsbD 63 = true ∧ v.toNat / 8 % 2 ^ 18 * 8 + 8 ≤ 65536 * own0.size ∧ (late Thread.blank).groupOf? Thread.blank = some own0 ∧
       (late Thread.blank).tilesOf own0 = []) ∧
    (let v : Word := wd (2 ^ 63 + 3 * 2 ^ 40 + 7)
     let s := (late Thread.blank).setReg (.fgi 3) 0x8000000000000000
     own0.rxw.getLsbD 63 = false ∧ v.getLsbD 63 = true ∧ v.toNat / 2 ^ 40 % 2 ^ 12 = 3 ∧ (s.reg (.fgi 3)).getLsbD 63 = true ∧
       (s.reg (.fgi 3)).getLsbD 62 = false ∧ fld (s.reg (.fgi 3)) 53 48 = Thread.blank.svc ∧
       v.toNat / 2 ^ 21 % 2 ^ 16 * 32 + 32 * (v.toNat % 2 ^ 16 + 1) ≤ 65536 * own0.size) ∧
    (late Thread.blank).mayWrite .host = true ∧ (late Thread.blank).mayWrite (.service 0 0) = false ∧ (late Thread.blank).fab = [] ∧
    (late Thread.blank).wordOf Thread.blank 0 = some (0, 0) ∧ (landing (.v 3)).resultOf 0 10 = some (0, 0) :=
  ⟨rfl, rfl, rfl, rfl, rfl, by decide, by decide, by decide, by decide, by decide, rfl, by decide, by decide⟩

/-! ### Witnesses: homes, pools, links -/

/-- A posted addition of i32 to lane 3 of the sector at 0x2000, the lane's mask bytes. -/
def posted : HomeReq :=
  { n := 1, urgent := false, fast := false, since := 0, tile := none, rel := none, epc := 0, val := 0, pa := 0x2000, op := 1, ty := 1,
    mask := 0xF000, data := BitVec.ofNat 256 (9 * 2 ^ 96), c := 0, t := 0, cls := 0, task := 1, seq := 0, corr := 0, app := none }
def storing : StoreReq := { n := 1, urgent := false, fast := false, since := 0, tile := none, rel := none, pa := 0x2000, data := 0x55, mask := 1,
                            c := 0, t := 0, cls := 0, host := false, sync := false, side := none, wb := false, bad := false, task := 1,
                            seq := 0, corr := 0, app := none, eng := none }

/-- HomesPerformWhatReachesThem: one posted addition, one store of a core and one of a host. -/
theorem test_meets_Homes : (late Thread.blank).mem.wf = true ∧
    (let s := { late Thread.blank with homeQ := [posted] }
     Alone s [] [posted] ∧ s.admits posted.pa posted.cls = true ∧ s.batchAt posted.tile posted.pa = false ∧ s.marked (posted.pa / 32) = false ∧
       (posted.op, posted.ty) = opCode 0 ∧ ∀ b, b < 32 → posted.mask.getLsbD b = (fun i => i == 3) (b / codeBytes 0)) ∧
    (let s := { late Thread.blank with storeQ := [storing] }
     Alone s [storing] [] ∧ s.admits storing.pa storing.cls = true ∧ s.batchAt storing.tile storing.pa = false ∧ storing.side = none) :=
  ⟨by decide +kernel, ⟨⟨rfl, rfl, rfl, fun _ h => absurd h List.not_mem_nil, plain_side (by decide +kernel)⟩, by decide +kernel, by decide +kernel, by decide +kernel, by decide +kernel,
    by decide +kernel⟩, ⟨rfl, rfl, rfl, fun _ h => absurd h List.not_mem_nil, plain_side (by decide +kernel)⟩,
    by decide +kernel, by decide +kernel, rfl⟩

/-- A waiting append of one byte to tile 0, resident. -/
def deferredByte : Deferred :=
  { svc := 0, tid := 1, idx := 0, sect := 2, op := 0, ty := 0, mask := 1, data := 0x77, tag := 0, epc := 0, c := 0, t := 0, task := 1, seq := 0,
    sync := false, cls := 0, corr := 0 }
/-- An entry of stores for tile 0, at the tail of its log. -/
def escEntry : Esc := { next := 0, sect := 1, op := 0, ty := 0, seq := 0, mask := 1, tag := 0, data := 0x99, svc := 0, tid := 1, idx := 0 }

theorem test_meets_Homes_deferred : (let s := (woven .nop).modDie 0 (fun d => { d with defer := [deferredByte] })
    (s.die 0).defer = [deferredByte] ∧ s.desc? 0 1 = some clothDesc ∧ s.tileWord? 0 1 clothDesc 0 = some 0xC000000000160000 ∧
      resid? 0xC000000000160000 true = some .resident ∧ s.untagged clothDesc 0 = false ∧
      s.admits (frameBase 0xC000000000160000 + 64) deferredByte.cls = true) ∧
    (woven .nop).fetching 0 1 0 = false := by decide +kernel
/-- The store of die 0 with that entry, the head of tile 0's log, and a fetch of the tile in place. -/
def escrowed : State :=
  let s := ((woven .nop).setReg (.actBud 0) 0x400).modDie 0 (fun d => { d with esc := [(4, escEntry)], escHw := 5 })
  { s with mem := s.mem.putWord 0x151008 (wd (4 * 2 ^ 43)), fetches := [{ svc := 0, tid := 1, idx := 1, begun := true, promote := false, near := 0, drawer := 0 }] }
theorem test_meets_Homes_escrow : escrowed.canApply 0 4 = some (clothDesc, escEntry, 0x160000) ∧ escrowed.mem.wf = true ∧
    escrowed.fetchOf 0 1 1 = some { svc := 0, tid := 1, idx := 1, begun := true, promote := false, near := 0, drawer := 0 } ∧
    escrowed.untagged clothDesc 1 = false ∧ escrowed.reading (.fetch 0 1 1) = false ∧ escrowed.cores = [] ∧ escrowed.handles = [] ∧
    escrowed.sentTo (tileKey 0 1 1) 0x8000000000000 4096 = false ∧ (escrowed.setReg (.nfBase 8 0) 0x400001).poolFull 8 0 = false ∧
    escrowed.poolFull 8 0 = true := by decide +kernel
/-- A frame word that names the drawer is a drawer tile wherever the fuses of the package (log entry 2) give it that address. -/
theorem test_meets_Homes_drawer (h : drawerOk (frameBase 0x8008000000000000#64) = true) :
    resid? 0x8008000000000000#64 false = some .drawer ∧ frameClass 0x8008000000000000#64 = 8 := by
  have h1 : frameClass 0x8008000000000000#64 = 8 := by decide
  have h2 : fld (0x8008000000000000#64) 61 60 = 0 := by decide
  have h3 : bit (0x8008000000000000#64) 63 = true := by decide
  exact ⟨by simp [resid?, h1, h2, h3, h], h1⟩

/-- PoolsAndScrub: the near pool of class 0 with a ring of two, one entry in it; a frame of its class and one of another. -/
theorem test_meets_Pools : (let s := (late Thread.blank).setReg (.nfBase 0 0) 0x400001
    let s := ({ s with hwPuts := [{ set := 0, z := 0, frame := 0x500, task := 0 }] } : State).setPool 0 0 (0, 1)
    fld (s.reg (.nfBase 0 0)) 4 0 ≠ 0 ∧ (s.pool 0 0).2 < 2 ^ fld (s.reg (.nfBase 0 0)) 4 0 ∧ s.hwPuts = [{ set := 0, z := 0, frame := 0x500, task := 0 }] ∧
      fld (0x500000#64) 51 12 % 2 ^ 0 = 0 ∧ fld (0x500000#64) 51 48 = 0 ∧ fld (0x1000000500000#64) 51 48 ≠ 0 ∧ s.mayWrite .host = true ∧
      (s.die 0).usedScr < fld ((s.setReg (.actBud 0) 1).reg (.actBud 0)) 9 0 ∧ fld (s.reg .errBase) 4 0 = 0 ∧ s.thread? 0 0 = some Thread.blank) ∧
    (∀ p ∈ [(0, 0, 8), (3648170, 7, 32)], scrubPlace scrubMap p.1 = some (p.2.1, 0, 0) ∧
      (late Thread.blank).scrubAt 0 p.2.1 0 0 1 = some (0, p.2.2) ∧ (late Thread.blank).scrubBusy 0 p.2.1 0 p.2.2 = false) ∧
    (let s := (late Thread.blank).setReg (.nfBase 0 0) 0x400001
     (∀ h ∈ s.hwPuts, ¬ (h.set = 0 ∧ h.z = 0)) ∧ (s.pool 0 0).2 < 2 ^ fld (s.reg (.nfBase 0 0)) 4 0 ∧ s.mayWrite (.service 0 0) = false) := by
  decide +kernel

/-- A request for the drawer, and links in their states. -/
def drawerReq : DReq := { cls := 0, die := 0, write := false, pa := 0x8000000000000, who := .chan 0 0, slot := 0 }
def upLink : Link := { Link.init with st := .up }

/-- DrawerLinksFollowTheirStates: a slot of this cycle, an answer four frames old, each state that a clause needs. -/
theorem test_meets_Links : (let s := { late Thread.blank with links := [(0, { upLink with wait := [drawerReq] })] }
    s.link 0 = { upLink with wait := [drawerReq] } ∧ s.now * 125 / 68 = 18 ∧ (s.now + 1) * 125 / 68 = 20 ∧ 18 % 256 = 18 ∧
      s.now * 125 / 68 / 256 ≤ (s.link 0).tabFrame) ∧
    (let s := { late Thread.blank with now := 558, links := [(0, { upLink with sent := [drawerReq, { drawerReq with write := true }] })] }
     drawerReq.slot + 1024 ≤ s.now * 125 / 68 ∧ (s.link 0).sent = drawerReq :: [{ drawerReq with write := true }]) ∧
    (let s := ({ late Thread.blank with now := 51000, links := [(0, { Link.init with st := .retraining })] } : State).setReg (.phOwn 0) 0x80
     (s.link 0).st = .retraining ∧ (s.link 0).since + 51000 ≤ s.now ∧ (s.reg (.phOwn 0)).getLsbD 7 = true ∧ s.lanesOk 0 = false ∧
       (s.link 0).lanes.length ≤ 36) ∧ (late Thread.blank).privAt 0 0 = false ∧ ((late Thread.blank).reg .brsTune).getLsbD 0 = false ∧
    (((late Thread.blank).setReg .fabPen 1).reg .fabPen).getLsbD 0 = true := by
  decide +kernel

/-! ### Witnesses: launches, tasks, gangs -/

/-- A task in some state, of a record of one group of one thread, its entry at byte 8 of the code tensor. -/
def header : List Word := [0, 0, 0, 0, 0x80000, 0, 0, 0, 0, 0, 21, 22, 23, 24, 25, 26]
def unit1 : Range := { tid := 1, mode := 1, op := 0, isOpen := false, lo := [0, 0, 0, 0, 0, 0], hi := [1, 1, 1, 1, 1, 1] }
def task1 (st : TaskSt) : Task := { holder with hdr := header, ranges := [unit1], held := [], st := st, cores := [], leaveOk := false }
def launch5 : Launch := { id := 5, svc := 0, queue := 0, index := 0, addr := 0x180000, hdr := header, entries := [], total := 1, next := 0, status := 1, reason := 0 }

/-- The package with the tensor of `woven`, no thread, and queue 0 of service 0 enabled, of two records, its tail at 1. -/
def idlePkg : State :=
  (({ woven .nop with threads := [], tasks := [], groups := [] } : State).setReg (.lnqBase 0 0) 0x180001 |>.setReg (.lnqCtl 0 0) 0x8000000000000000).setReg
    (.lnqTail 0 0) 1

/-- LaunchQueuesAcceptAndFinish: a tail in range and one beyond; an opened record; a record of zeros, which is sound, and one with a
reserved bit; a finished one. -/
theorem test_meets_Launch : idlePkg.mayWrite .host = true ∧ (idlePkg.reg (.lnqCtl 0 0)).getLsbD 62 = false ∧
    (2 + 65536 - (idlePkg.lnqHead 0 0).head) % 65536 ≤ 2 ^ fld (idlePkg.reg (.lnqBase 0 0)) 3 0 ∧
    2 ^ fld (idlePkg.reg (.lnqBase 0 0)) 3 0 < (3 + 65536 - (idlePkg.lnqHead 0 0).head) % 65536 ∧
    idlePkg.brs.st = 2 ∧ idlePkg.pickQueue 0 = some 0 ∧
    (let s := { idlePkg with launches := [launch5] }
     s.pickQueue 0 = some 0 ∧ s.opened 0 0 = some launch5 ∧ s.svcEn 0 = true ∧ s.task? s.nextTask = none ∧
       s.badBoxes 0 (launch5.entries.map (fun e => rangeOf e (gangFields launch5.hdr launch5.next))) = false ∧ s.rangeCount + 0 ≤ 4096) ∧
    idlePkg.opened 0 0 = none ∧ idlePkg.recordReason 0 (idlePkg.mem.words 0x180000 16) [] = some 0 ∧ idlePkg.lnqSlot 0 0 0 = 0x180000 ∧
    (let s := { idlePkg with mem := idlePkg.mem.put 0x180003 1 }
     s.recordReason 0 (s.mem.words 0x180000 16) [] = some 1 ∧ s.mem.wf = true) ∧
    (let l := { launch5 with next := 1 }
     let s := { idlePkg with launches := [l] }.setLnq 0 0 { idlePkg.lnqHead 0 0 with acc := 1 }
     s.launchDone l = true ∧ l.index = (s.lnqHead 0 0).head ∧ (s.lnqHead 0 0).head ≠ (s.lnqHead 0 0).acc ∧ s.mem.wf = true) := by decide +kernel

/-- The same with one task. -/
def with1 (k : Task) : State := { idlePkg with tasks := [k] }

/-- TasksRunThroughTheirStates: a ready task of one tile, a mapped one with a place, a reserved one whose core has room; a LEXT that waits; a
task that clears, and one that is discarded. -/
theorem test_meets_Tasks : TaskIn (with1 (task1 .ready)) 1 (task1 .ready) .ready ∧ (with1 (task1 .ready)).lowerStarted (task1 .ready) = true ∧
    (task1 .ready).guarded = false ∧ (with1 (task1 .ready)).rangeTiles (task1 .ready) = some [(1, 0)] ∧
    (with1 (task1 .ready)).desc? 0 1 = some clothDesc ∧ clothDesc.home ≠ 10 ∧
    (with1 (task1 .ready)).tileWord? 0 1 clothDesc 0 = some 0xC000000000160000 ∧ resid? 0xC000000000160000 false = some .resident ∧
    (with1 (task1 .ready)).unasked (task1 .ready) = [] :=
  ⟨⟨rfl, rfl⟩, by decide +kernel, by decide, by decide +kernel, by decide +kernel, by decide, by decide +kernel, by decide,
    by decide +kernel⟩
theorem test_meets_Tasks_placed : (match (with1 (task1 .mapped)).nextPlace with
      | some (u, _, l) => decide (u.id = 1) && !l.isEmpty
      | none => false) = true ∧
    (let k := { task1 .reserved with leaveOk := true, cores := [3] }
     let s := with1 k
     k.doom = 0 ∧ k.saved = none ∧ s.heldBack k = false ∧ (k.h 0).getLsbD 11 = false ∧ s.ktab 0 k.hdr = some (some { tiles := [], bars := [] }) ∧
       s.bases k.hdr 3 [] = some (0, 0) ∧ thrOf k.hdr ≤ (s.freeSlots 3 []).length) := by decide +kernel
theorem test_meets_Tasks_ended : (let th := { Thread.blank with issue := { Thread.blank.issue with lext := some (4, 1 * 2 ^ 52, 0) } }
     let s := { woven .nop with threads := [th] }
     s.thread? 0 0 = some th ∧ th.task = 1 ∧ fld th.csr.recd 1 0 = 0) ∧
    (let s := with1 (task1 .clearing)
     s.deferring 1 = false ∧ s.hasTag (escTag 1) = false ∧ s.batching (task1 .clearing) = false ∧ s.hwPuts = []) ∧
    (let k := { task1 .discarding with doom := 2, hdr := 0x10000 :: header.tail }
     (with1 k).working k = false ∧ (with1 k).dropped k = true ∧ k.guarded = true ∧ k.run < 2) := by decide +kernel

/-- A running gang that fills core 0 of die `d`, and a mapped one of a higher class that needs the whole of a die. -/
def filler (d : Nat) : Task := { task1 .running with id := 10 + d, die := d, cores := [32 * d], held := [], ranges := [] }
def fillerGroup (d : Nat) : Group := { own0 with task := 10 + d, c := 32 * d, size := 32, tcnt := 32 }
def wide : Task := { task1 .mapped with id := 9, cls := 1, launch := 7, hdr := 0 :: wd (31 * 2 ^ 39 + 31 * 2 ^ 44) :: header.drop 2 }
def crowded : State :=
  ({ idlePkg with tasks := wide :: (List.range 8).map filler, groups := (List.range 8).map fillerGroup } : State).setReg (.svcSave 0) 0x808

/-- GangsArePreemptedAndRestored: every die is partly taken, and one gang less makes room; a gang that has settled; a saved one that finds a
place, and a reserved one that goes back to it. -/
theorem test_meets_Gangs : crowded.task? 9 = some wide ∧ crowded.offered wide = true ∧ crowded.fit wide [] = none ∧
    (∀ u ∈ crowded.tasks, u.st ≠ .saving) ∧ crowded.askers = [] ∧ 9 ∉ crowded.preQ ∧
    ({ crowded with preQ := [9] } : State).askers = [9] ∧
    (crowded.victimSet wide (crowded.victims wide) 1 (crowded.victims wide).length).isSome = true ∧
    (let k := { task1 .saving with cores := [0] }
     ({ woven .nop with tasks := [k] } : State).settledGang k = true) ∧ (woven .nop).storeQ = [] ∧ ((woven .nop).core 0).l1 = [] := by
  decide +kernel
theorem test_meets_Gangs_restored : (let v : Saved := { Saved.empty with threads := [Thread.blank], groups := [(woven .nop).saveGroup own0] }
     let k (st : TaskSt) := { task1 st with saved := some v, cores := [5] }
     (match (with1 (k .saved)).nextPlace with
       | some (u, _, l) => decide (u.id = 1) && !l.isEmpty
       | none => false) = true ∧ ((with1 (k .reserved)).restoreGang (k .reserved) v).isSome = true) := by decide +kernel

/-! ### Witnesses: strips, energy, rails -/

/-- A request for two strips; strips of a lease in their states. -/
def asks : TReq := { task := 1, group := 0, shape := 1, start := false, t := 0 }
def stripIn (st : StripSt) : Strip := { Strip.init with st := st, task := 1, group := 0, lease := 4 }

/-- StripsAreLeasedAndReturned. -/
theorem test_meets_Strips : (let s := (woven .nop).modDie 0 (fun d => { d with tq := [(1, [asks])] })
     (s.modDie 0 Die.enterAll).grantable 0 = [(1, asks, [0, 1])] ∧ (s.group? 1 0).isSome = true ∧ (s.thread? own0.c asks.t).isSome = true) ∧
    (let y : Thread := { weaver with t := 1, issue := { weaver.issue with once := 1 } }
     let s := { woven .nop with threads := [weaver, y] }
     s.thread? 0 1 = some y ∧ dieOf 0 = 0 ∧ y.issue.once = 1 ∧ y.issue.got = none ∧ (s.group? 1 0).map (·.c) = some 0 ∧ asks.t ≠ 1) ∧
    (∀ st ∈ [StripSt.held, .returning, .scrubbing, .saving],
      let s := (woven .nop).modDie 0 (fun d => { d with strips := [(2, stripIn st), (3, stripIn st)] })
      s.leaseStrips 0 2 = [2, 3] ∧ (s.strip 0 2).idle = true ∧ (s.strip 0 2).quiet = true ∧ (s.strip 0 3).retired = true ∧
        s.fed 0 2 = false ∧ s.fed 0 3 = false) := by decide +kernel

/-- A request of a DRAW, which names its thread; a head that has waited. -/
def drawReq : LeaveReq :=
  { id := 3, cost := 5, dur := 64, mhz := 850, current := false, since := 0, who := .draw 0 0, c := 0, t := 0, short := none, noticed := false }

/-- LeaveIsGrantedAndSettled: a request within the balance; heads whose note is stale, that have waited too long, that have aged; a running
operation; the end of a period. -/
theorem test_meets_Leave : (let s := ((woven .nop).modDie 0 (fun d => { d with leaveQ := [(0, [drawReq])] })).modSvc 0 (fun v => { v with bal := 7, refNow := 0 })
     (s.svc 0).off = false ∧ s.nextLeaveOf 0 = some (0, drawReq) ∧ s.funder 0 drawReq = none ∧ (s.die 0).heads = [(0, drawReq)]) ∧
    (let s := ((woven .nop).modDie 0 (fun d => { d with leaveQ := [(0, [drawReq])] })).modSvc 0 (fun v => { v with bal := 2, refNow := 0 })
     s.shortStale 0 (0, drawReq) = true ∧
     (let r := { drawReq with short := some (false, 0) }
      let s := { s with now := 850000 }
      s.shortStale 0 (0, r) = false ∧ s.overWait r = true ∧ s.overWait { r with noticed := true } = false)) ∧
    (let s := (woven .nop).modDie 0 (fun d => { d with granted := [{ id := 3, svc := 0, r := 0, cost := 5 }] })
     s.running? 0 3 = some (0, { id := 3, svc := 0, r := 0, cost := 5 })) ∧
    ({ woven .nop with now := 850000 } : State).alwPd < ({ woven .nop with now := 850000 } : State).alwPeriodNow := by decide +kernel

/-- RailsAndPointsChange: what does not rest on a rail's voltage, which the fuses set (log entry 2). -/
theorem test_meets_Rails : (∀ i, i < 32 → ((woven .nop).core i).stage = []) ∧
    (((woven .nop).die 0).sramPend = false ∧ ((woven .nop).reg (.dieSram 0)).getLsbD 0 ≠ (1#64).getLsbD 0) ∧
    (let s := ({ woven .nop with now := 49152 } : State).modDie 0 (fun d => { d with eccPend := true, sramPend := true })
     (s.die 0).eccSince + 49152 ≤ s.now) ∧
    (((woven .nop).setReg (.dieSram 0) 1).modDie 0 (fun d => { d with sramPend := true })).econAsked 0 = true ∧
    ((woven .nop).modDie 0 (fun d => { d with sramPend := true, sramMv := 660 })).econAsked 0 = false ∧ fld (3#64) 1 0 = 3 ∧ fld (1#64) 1 0 ≠ 3 ∧
    (let s := (woven .nop).modDie 0 (fun d => { d with opWant := [(1, 0)] })
     s.tied 0 1 = [1] ∧ (s.die 0).opWant.find 1 = some 0) := by decide +kernel
/-- … and with a voltage that keeps the gap, where the fuses give every rail 700 mV. -/
theorem test_meets_Rails_gap (h : ∀ k p, railMv k p = 700) : (∀ m ∈ (woven .nop).logicRails 0, 660 ≤ m + 180 ∧ m ≤ 660 + 180) ∧
    gapOk 780 (railMv 0 1) = true := by
  refine ⟨?_, by rw [h]; decide⟩
  intro m hm
  simp only [State.logicRails, List.mem_flatMap, h] at hm
  obtain ⟨k, -, hm⟩ := hm
  rcases List.mem_cons.1 hm with rfl | hm
  · decide
  · split at hm
    · rw [List.mem_singleton] at hm; subst hm; decide
    · exact absurd hm (List.not_mem_nil)

/-! ### Witnesses: registers, peers, bring-up -/

/-- RegistersAndHostMemory: an offset of no register, one of a plain register, one with a step of its own, one read to zero. -/
theorem test_meets_Registers : decodeReg 0x0FF8 = none ∧ decodeReg 0x1600 = some (.clsWays 0) ∧ idlePkg.brs.st = 2 ∧
    idlePkg.stepsOf (.clsWays 0) 1 .host = none ∧ idlePkg.regWriter (.clsWays 0) .host = true ∧ (Reg.clsWays 0).mask ≠ 0 ∧
    idlePkg.regWriter (.clsWays 0) (.service 0 0) = false ∧ decodeReg 0x1000 = some (.svcCtl 0) ∧
    idlePkg.stepsOf (.svcCtl 0) 1 .host = some [.svcCtlWrite 0 1 .host] ∧ idlePkg.mayWrite .host = true ∧ idlePkg.mayWrite (.service 0 0) = false ∧
    (Reg.clsWays 0).notService = false ∧ (Reg.clsWays 0).early = false ∧ Reg.brsPriv.notService = true ∧ Reg.brsPriv.early = true ∧
    (decodeReg Reg.brsPriv.off).isSome = true ∧ State.reset.brs.st ≠ 2 ∧ idlePkg.regWriter (.nfStat 1 2) .host = true ∧
    idlePkg.regWriter (.attNonce 3) .host = true ∧ idlePkg.recalling 0 (wd (2 ^ 51)) = false ∧
    (Reg.clsWays 0).readOnly = false ∧ Reg.fabId.readOnly = true ∧ idlePkg.stepsOf .fabId 1 (.service 0 0) = none ∧
    idlePkg.recalled (tinvNames 0 (wd (2 ^ 51))) = true ∧
    (∀ st ∈ [0, 1], ({ idlePkg with handles := [(6, { pkg := 5, svc := 0, tid := 1, idx := 0, frame := 0, st := st })] } : State).recalled
      (tinvNames 0 (wd (2 ^ 52))) = false) ∧
    ({ idlePkg with handles := [(6, { pkg := 5, svc := 0, tid := 1, idx := 0, frame := 0xC000000000160000, st := 2 })],
                    peerQ := [.serve 6 0 0 0 0 0] } : State).recalling 0 (wd (2 ^ 52)) = true ∧
    (wd (2 ^ 51)).getLsbD 51 = true ∧ (let s := idlePkg.setReg .hpHdm 1
      0x1000 + 32 ≤ fld (s.reg .hpHdm) 7 0 * 2 ^ 30) ∧ idlePkg.mem.wf = true := by decide +kernel

/-- A handle of tile 0, a peer's request, a range of the peer tensor. -/
def handle0 : Handle := { pkg := 5, svc := 0, tid := 1, idx := 0, frame := 0xC000000000160000, st := 1 }
def lent : State := { ((woven .nop).setReg (.svcFab 0) 1).setReg .fabPen 1 with handles := [(6, handle0)] }
def farCloth : List Word := [0xA23AC00008000000, 0xA5, 0x0000002100000028, 0, 0, 0x150000, 1, 0]
def farReq (k : Nat) (o : Owner) : FabReq :=
  { id := 4, pkg := 5, kind := k, addr := 0x9000000000040, op := 0, data := 0, mask := 0, who := o, since := 0, sync := false, corr := 0,
    fill := none }

/-- PeersShareTilesAndSectors: tiles that may be lent and a tensor that has none, a handle, an access to its tile, answers for a thread and a
channel, an open entry whose group has room, a closed one. -/
theorem test_meets_Peers : lent.portOpen = true ∧ lent.lendTo 0 1 [0] true farCloth = some clothDesc ∧ lent.lendTo 0 3 [0] true farCloth = none ∧
    lent.lendTo 0 1 [0] true [] = none ∧ lent.handles.find 6 = some handle0 ∧
    lent.tileWord? 0 1 clothDesc 0 = some 0xC000000000160000 ∧ lent.handles.length < 131072 ∧ resid? handle0.frame false = some .resident ∧
    lent.linkDead (frameBase handle0.frame) clothDesc.bytes = none ∧ lent.untagged clothDesc 0 = false ∧
    lent.admits (frameBase 0xC000000000160000 + 64) (lent.svcCls 0) = true ∧ lent.marked ((frameBase 0xC000000000160000 + 64) / 32) = false ∧
    (let s := { lent with fab := [farReq 0 (.thread 0 0)] }
     s.thread? 0 0 = some weaver ∧ s.task? weaver.task = some holder ∧ holder.doom = 0) ∧
    (let g := { own0 with rxw := wd (2 ^ 63 + 3 * 2 ^ 40 + 255) }
     let s := { lent with groups := [g] }.setReg (.fgi 3) 0xC000000900000000
     s.boundTo 3 = some g ∧ s.sectorFits g 0x40 = true ∧ s.boundSaved 3 = false ∧ fld (s.reg (.fgi 3)) 41 32 = 9 ∧ (s.core 0).sp.wf = true) ∧
    (lent.reg (.fgi 3)).getLsbD 63 = false ∧ lent.mayWrite .host = true := by decide +kernel
theorem test_meets_Peers_reply : (let k := { task1 .ready with ranges := [{ unit1 with tid := 2 }], asked := [0] }
     let s := ({ with1 k with dcache := (2, farCloth) :: (woven .nop).dcache, mem := (woven .nop).mem.putWord 0x200010 0x8000000000000000 } : State).setReg (.svcFab 0) 0x200002
     s.task? 1 = some k ∧ 0 ∈ k.asked ∧ k.ranges[0]? = some { unit1 with tid := 2 } ∧ s.desc? 0 2 = some (Desc.ofWords farCloth) ∧
       (Desc.ofWords farCloth).home = 10 ∧ ({ unit1 with tid := 2 } : Range).tiles (Desc.ofWords farCloth) = [0] ∧ k.held? 2 0 = none ∧
       s.mapAddr? (Desc.ofWords farCloth) 0 = some 0x151000) := by decide +kernel

/-- BringUpAndAttestation: each state of the bursar that a clause needs. -/
theorem test_meets_BringUp : State.reset.brs.st = 0 ∧ State.reset.brs.busy = false ∧
    (let b := { State.reset.brs with st := 2, updating := true }
     b.st ≠ 0 ∧ b.updating = true) ∧ ((false = true) → False) ∧ (∀ v : BitVec 16, v.toNat ≤ (0xFFFF#16).toNat) ∧
    (let s := { State.reset with brs := { State.reset.brs with st := 1, busy := true } }
     s.brs.st = 1 ∧ s.brs.busy = true ∧ (s.link 15).st = .down) ∧
    (let s := { State.reset with links := (List.range 16).map (fun l => (l, upLink)) }
     ∀ l, l < 16 → (s.link l).st ≠ .down ∧ (s.link l).st ≠ .training) :=
  ⟨rfl, rfl, ⟨by decide, rfl⟩, by decide, fun v => by have := v.isLt; simp; omega, ⟨rfl, rfl, by decide⟩, by decide⟩

/-! ### Witnesses: the machine -/

/-- StepRunsTheDecodedWord: a thread of a task that runs, at a word of its code, and the moves that begin with it; ADD s3, s4, s5 there, and
a word of an opcode that is not assigned. -/
def ready (w : Nat) : State := State.reset.withFetchWord 32 w
theorem test_meets_Step : (ready 0x000C8500).agenda = [] ∧ (ready 0x000C8500).due = none ∧ (ready 0x000C8500).moves.head? = some (.front 0 0) ∧
    (ready 0x000C8500).thread? 0 0 = some Thread.blank ∧ ((ready 0x000C8500).task? 1).map (·.goes) = some true ∧
    Thread.blank.issue.stopReq = 0 ∧ Thread.blank.issue.vwait = false ∧ Thread.blank.settled Thread.blank.seq = true ∧
    (match (ready 0x000C8500).task? 1 with
      | some k => (ready 0x000C8500).fetch 0 k 0 == .word 0x000C8500 && (match (ready 0x000C8500).codeAt k 0 with
        | .ok _ => true
        | .error _ => false)
      | none => false) = true ∧ decodeRow 0x000C8500 = some (.add 3 4 5) ∧ Thread.blank.misplaced (.add 3 4 5) 0 = false ∧
    Thread.blank.nestBars (.add 3 4 5) = false ∧ Thread.blank.frontFull = false ∧ Thread.blank.issue.refused = none := by decide +kernel
/-- … and a thread whose write of a register was refused. -/
theorem test_meets_Step_refused : (let th : Thread := { Thread.blank with issue := { Thread.blank.issue with refused := some 0x1000 } }
    let s := { ready 0x000C8500 with threads := [th] }
    s.agenda = [] ∧ s.due = none ∧ s.moves.head? = some (.front 0 0) ∧ s.thread? 0 0 = some th ∧ th.aq = [] ∧ th.settled th.seq = true ∧ th.issue.woke = none ∧
      s.fab = []) := by
  decide +kernel
theorem test_meets_Step_decode : decode none 0x000C8500 = .ok (.add 3 4 5) := by rfl

/-- EveryStepKeepsMemoriesCanonical, and the round trips: the reset state, an instruction, a word. -/
theorem test_meets_Keeps : State.reset.mem.wf = true ∧ (∀ p ∈ State.reset.cores, p.2.sp.wf = true) := ⟨rfl, by decide⟩
theorem test_meets_RoundTrips : (Instr.vfma 7 28 2 6 1).wellFormed = true ∧ engineOf (.vfma 7 28 2 6 1) ≠ .none ∧
    decode none 0x221F8262 = .ok (.vfma 7 28 2 6 1) := ⟨by decide, by decide, by rfl⟩

/-- One step of the machine at a placed word: ADD s3, s4, s5 reads zeros, and moves the pc by four. -/
theorem test_step_add : (match step (State.reset.withFetchWord 32 0x000C8500) with
    | .next t => (t.thread? 0 0).map Thread.pc == some 4
    | _ => false) = true := by decide +kernel

end Sys2Proof.Tests
end

/-!
PROOFS. The words of the front (05): what S words write, divide and count, how LEXIT leaves the levels, and where the front stands after
a word. The arithmetic comes first, then the rules of the registers and of S words, then each statement from them.
-/

namespace Sys2Proof.Machine

/-! ### The results of S words, read as integers and natural numbers (05 Tables 5.2, 5.3) -/

theorem wd_toNat (x : Word) : wd x.toNat = x := by simp [wd]

theorem b2w_decide (p : Prop) [Decidable p] : b2w (decide p) = if p then 1 else 0 := by
  by_cases h : p <;> simp [b2w, h]

theorem add_eq_wd (x y : Word) : x + y = wd (x.toNat + y.toNat) := BitVec.add_def x y

theorem mul_eq_wd (x y : Word) : x * y = wd (x.toNat * y.toNat) := BitVec.mul_def

theorem sub_eq_ofInt (x y : Word) : x - y = BitVec.ofInt 64 (x.toInt - y.toInt) :=
  BitVec.eq_of_toInt_eq (by rw [BitVec.toInt_sub, BitVec.toInt_ofInt])

theorem shiftLeft_eq_wd (x : Word) (n : Nat) : x <<< n = wd (x.toNat * 2 ^ n) :=
  BitVec.eq_of_toNat_eq (by simp [wd, Nat.shiftLeft_eq])

theorem ushiftRight_eq_wd (x : Word) (n : Nat) : x >>> n = wd (x.toNat / 2 ^ n) := by
  rw [← Nat.shiftRight_eq_div_pow, ← BitVec.toNat_ushiftRight, wd_toNat]

theorem sshiftRight_eq_ofInt (x : Word) (n : Nat) : x.sshiftRight n = BitVec.ofInt 64 (x.toInt / 2 ^ n) := by
  have h : x.toInt >>> n = x.toInt / 2 ^ n := by rw [Int.shiftRight_eq_div_pow]; norm_cast
  rw [← h, ← BitVec.toInt_sshiftRight, BitVec.ofInt_toInt]

theorem slt_eq_ite (x y : Word) : b2w (x.slt y) = if x.toInt < y.toInt then 1 else 0 := by
  rw [BitVec.slt_eq_decide, b2w_decide]

theorem ult_eq_ite (x y : Word) : b2w (x.ult y) = if x.toNat < y.toNat then 1 else 0 := by
  rw [BitVec.ult_eq_decide, b2w_decide]

theorem beq_eq_ite (x y : Word) : b2w (x == y) = if x.toNat = y.toNat then 1 else 0 := by
  have h : (x == y) = decide (x.toNat = y.toNat) := by
    rw [Bool.eq_iff_iff, beq_iff_eq, decide_eq_true_iff, BitVec.toNat_inj]
  rw [h, b2w_decide]

theorem slt_min (x y : Word) : (if x.slt y then x else y) = BitVec.ofInt 64 (min x.toInt y.toInt) := by
  by_cases h : x.toInt < y.toInt
  · rw [if_pos (BitVec.slt_iff_toInt_lt.2 h), Int.min_eq_left (Int.le_of_lt h), BitVec.ofInt_toInt]
  · rw [if_neg (mt BitVec.slt_iff_toInt_lt.1 h), Int.min_eq_right (Int.not_lt.1 h), BitVec.ofInt_toInt]

theorem slt_max (x y : Word) : (if x.slt y then y else x) = BitVec.ofInt 64 (max x.toInt y.toInt) := by
  by_cases h : x.toInt < y.toInt
  · rw [if_pos (BitVec.slt_iff_toInt_lt.2 h), Int.max_eq_right (Int.le_of_lt h), BitVec.ofInt_toInt]
  · rw [if_neg (mt BitVec.slt_iff_toInt_lt.1 h), Int.max_eq_left (Int.not_lt.1 h), BitVec.ofInt_toInt]

theorem ult_min (x y : Word) : (if x.ult y then x else y) = wd (min x.toNat y.toNat) := by
  by_cases h : x.toNat < y.toNat
  · rw [if_pos (BitVec.ult_iff_toNat_lt.2 h), Nat.min_eq_left (Nat.le_of_lt h), wd_toNat]
  · rw [if_neg (mt BitVec.ult_iff_toNat_lt.1 h), Nat.min_eq_right (Nat.not_lt.1 h), wd_toNat]

theorem ult_max (x y : Word) : (if x.ult y then y else x) = wd (max x.toNat y.toNat) := by
  by_cases h : x.toNat < y.toNat
  · rw [if_pos (BitVec.ult_iff_toNat_lt.2 h), Nat.max_eq_right (Nat.le_of_lt h), wd_toNat]
  · rw [if_neg (mt BitVec.ult_iff_toNat_lt.1 h), Nat.max_eq_left (Nat.not_lt.1 h), wd_toNat]

theorem ite_ne_zero_eq (x y c : Word) : (if c ≠ 0 then x else y) = if c.toNat = 0 then y else x := by
  have h : c = 0 ↔ c.toNat = 0 := (BitVec.toNat_inj (y := 0)).symm
  simp only [ne_eq, ite_not, h]

/-- The width of field `k` of a work identifier (01 R27). -/
theorem fld_width (ws : Word) (k : Nat) : fld ws (6 * k + 5) (6 * k) = ws.toNat / 2 ^ (6 * k) % 64 := by
  have hw : 6 * k + 5 + 1 - 6 * k = 6 := by omega
  simp only [fld, hw, Nat.reducePow]

theorem widthsBelow_eq_foldl (ws : Word) (k : Nat) :
    (List.range k).foldl (fun n i => n + fld ws (6 * i + 5) (6 * i)) 0 = widthsBelow ws k := by
  induction k with
  | zero => rfl
  | succ k ih => rw [List.range_succ, List.foldl_append, List.foldl_cons, List.foldl_nil, ih, fld_width, widthsBelow]

theorem widField_eq_wd (ws x : Word) (k : Nat) :
    widField ws x k = wd (x.toNat / 2 ^ widthsBelow ws k % 2 ^ (ws.toNat / 2 ^ (6 * k) % 64)) := by
  simp only [widField, widthsBelow_eq_foldl]
  rw [fld_width]

/-! ### Immediates (02 R49, 05 R129, R130) -/

theorem immS_eq_ofInt {n : Nat} (i : BitVec n) (p : Option (BitVec 29)) : immS i p = BitVec.ofInt 64 (immInt i p) := by
  cases p <;> rfl

theorem immS_toInt {n : Nat} (hn : n ≤ 35) (i : BitVec n) (p : Option (BitVec 29)) : (immS i p).toInt = immInt i p := by
  cases p
  · exact BitVec.toInt_signExtend_of_le (by omega)
  · exact BitVec.toInt_signExtend_of_le (by omega)

theorem addImm_eq_ofInt {n : Nat} (x : Word) (i : BitVec n) (p : Option (BitVec 29)) :
    x + immS i p = BitVec.ofInt 64 (x.toInt + immInt i p) := by
  rw [immS_eq_ofInt, BitVec.ofInt_add, BitVec.ofInt_toInt]

theorem sltImm_eq_ite {n : Nat} (hn : n ≤ 35) (x : Word) (i : BitVec n) (p : Option (BitVec 29)) :
    b2w (x.slt (immS i p)) = if x.toInt < immInt i p then 1 else 0 := by
  rw [slt_eq_ite, immS_toInt hn]

/-- MOVHI puts the low half of its immediate above the low half of its register (05 R130). -/
theorem movhi_eq_wd {n : Nat} (x : Word) (i : BitVec n) (p : Option (BitVec 29)) :
    immS i p <<< 32 ||| (x &&& 0xFFFFFFFF#64) = wd ((immInt i p % 2 ^ 32).toNat * 2 ^ 32 + x.toNat % 2 ^ 32) := by
  have hlow : x.toNat &&& 0xFFFFFFFF = x.toNat % 2 ^ 32 := Nat.and_two_pow_sub_one_eq_mod x.toNat 32
  have hlt : x.toNat % 2 ^ 32 < 2 ^ 32 := Nat.mod_lt _ (by decide)
  rw [immS_eq_ofInt]
  refine BitVec.eq_of_toNat_eq ?_
  generalize immInt i p = z
  simp only [BitVec.toNat_or, BitVec.toNat_shiftLeft, BitVec.toNat_and, BitVec.toNat_ofInt, BitVec.toNat_ofNat, wd]
  have hhigh : (z % (2 ^ 64 : Nat)).toNat <<< 32 % 2 ^ 64 = (z % 2 ^ 32).toNat <<< 32 := by
    simp only [Nat.shiftLeft_eq]; omega
  rw [hhigh, show 0xFFFFFFFF % 2 ^ 64 = 0xFFFFFFFF from rfl, hlow, ← Nat.shiftLeft_add_eq_or_of_lt hlt, Nat.shiftLeft_eq]
  omega

/-! ### Counts of bits (05 R128) -/

theorem clz64_le (x : Word) : clz64 x ≤ 64 := by unfold clz64; split <;> omega

/-- The highest one bit of a word other than zero stands at its logarithm. -/
theorem clz64_of_ne_zero {x : Word} (h : x ≠ 0) :
    x.toNat.log2 < 64 ∧ clz64 x = 63 - x.toNat.log2 ∧ x.getLsbD x.toNat.log2 = true := by
  have hn : x.toNat ≠ 0 := fun h0 => h (BitVec.eq_of_toNat_eq (by simpa using h0))
  exact ⟨(Nat.log2_lt hn).2 x.isLt, if_neg h, Nat.testBit_log2 hn⟩

theorem clz64_above (x : Word) (j : Nat) (hj : 64 - clz64 x ≤ j) : x.getLsbD j = false := by
  by_cases h : x = 0
  · simp [h]
  · obtain ⟨hlt, hclz, -⟩ := clz64_of_ne_zero h
    exact Nat.testBit_lt_two_pow (Nat.lt_of_lt_of_le Nat.lt_log2_self (Nat.pow_le_pow_right (by decide) (by omega)))

theorem clz64_at (x : Word) (hn : clz64 x < 64) : x.getLsbD (63 - clz64 x) = true := by
  have h : x ≠ 0 := fun h => by simp [clz64, h] at hn
  obtain ⟨hlt, hclz, hbit⟩ := clz64_of_ne_zero h
  have hp : 63 - clz64 x = x.toNat.log2 := by omega
  rwa [hp]

theorem ctzN_spec (n v : Nat) :
    ctzN n v ≤ n ∧ (∀ j, j < ctzN n v → v.testBit j = false) ∧ (ctzN n v < n → v.testBit (ctzN n v) = true) := by
  induction n generalizing v with
  | zero => simp [ctzN]
  | succ n ih =>
    obtain ⟨hle, hbelow, hat⟩ := ih (v / 2)
    by_cases h1 : v % 2 = 1
    · simp [ctzN, h1, Nat.testBit_zero]
    · rw [ctzN, if_neg h1, Nat.add_comm 1]
      refine ⟨Nat.succ_le_succ hle, fun j hj => ?_, fun hn => ?_⟩
      · cases j with
        | zero => simpa [Nat.testBit_zero] using h1
        | succ j => rw [Nat.testBit_succ]; exact hbelow j (Nat.lt_of_succ_lt_succ hj)
      · rw [Nat.testBit_succ]; exact hat (Nat.lt_of_succ_lt_succ hn)

theorem popN_eq_length (n v : Nat) : popN n v = ((List.range n).filter (fun j => v.testBit j)).length := by
  induction n generalizing v with
  | zero => rfl
  | succ n ih =>
    have hs : (fun j => v.testBit j) ∘ Nat.succ = fun j => (v / 2).testBit j := funext fun j => Nat.testBit_succ v j
    rw [popN, ih, List.range_succ_eq_map, List.filter_cons, List.filter_map, hs, Nat.testBit_zero]
    by_cases h1 : v % 2 = 1
    · simp [h1, Nat.add_comm]
    · simp [Nat.mod_two_ne_one.1 h1]

theorem popN_le (n v : Nat) : popN n v ≤ n := by
  rw [popN_eq_length]
  exact Nat.le_trans (List.length_filter_le _ _) (Nat.le_of_eq List.length_range)

/-! ### Fields that name no port (05 R122) -/

theorem not_contains_of_ne {r p : BitVec 5} (h : r ≠ p) : [r].contains p = false := by simpa using h.symm

theorem Thread.sReady_register {th : Thread} {now : Nat} {r : BitVec 5} (h28 : r ≠ 28) (h29 : r ≠ 29) :
    th.sReady now [r] = th.clean [r.toNat] := by
  simp only [Thread.sReady, not_contains_of_ne h28, not_contains_of_ne h29]
  rfl

theorem Thread.sPop_register {th : Thread} {r : BitVec 5} (h28 : r ≠ 28) (h29 : r ≠ 29) : th.sPop [r] = th := by
  simp only [Thread.sPop, not_contains_of_ne h28, not_contains_of_ne h29]
  rfl

theorem Thread.sRoom_register {th : Thread} {d : BitVec 5} (h30 : d ≠ 30) (h31 : d ≠ 31) : th.sRoom d = .ok () := by
  simp only [Thread.sRoom, h30, h31]
  rfl

/-- A marked register is consumed, at its place number (19 R466, R467). -/
theorem Thread.clean_marked {th : Thread} {r : Nat} (hm : r ∈ th.f.marks) :
    th.clean [r] = .error (.consume 9 (dieOf th.c) (th.c % 32) (regLoc th.t r) (wd (regLoc th.t r))) := by
  simp [Thread.clean, hm]

/-! ### Words that consume a mark or trap -/

/-- A front word whose source is marked consumes the mark (19 R467, R472). -/
theorem frontWord_consume {s : State} {th : Thread} {body : Thread → Except Stop (State × Option Word)} {u d k l : Nat} {v : Word}
    (h : s.thread? s.cur.c s.cur.t = some th) (hb : body th = .error (.consume u d k l v)) :
    frontWord s body = .next (s.consumed .front th u d k l v) := by
  simp [frontWord, h, hb]

/-- An S word's own fault, once older words have settled (16 R406). -/
theorem sWord_trap {s : State} {th : Thread} {body : Thread → Except Stop (Thread × Option Word)} {c : BitVec 6} {v : Word}
    (h : s.thread? s.cur.c s.cur.t = some th) (hb : body th = .error (.trap c v)) (hs : th.settled th.seq = true) :
    sWord s body = .next (s.takeTrap th th.seq s.cur.e.addr c v 0) :=
  frontWord_trap h (by simp [hb, bind, Except.bind]) hs

/-! ### S words that always write one result -/

/-- What an S word with the sources `rs` and the destination `d` makes of its thread, where `v` is its result (05 R122). -/
def Thread.writeResult (th : Thread) (now : Nat) (rs : List (BitVec 5)) (d : BitVec 5) (v : Word) :
    Except Stop (Thread × Option Word) := do
  th.sReady now rs
  th.sRoom d
  .ok ((th.sPop rs).sPut d v, none)

/-- The outcome is that of an S word which pops `rs` and writes `v` to `d` in thread `th`. -/
def WritesResult (s : State) (th : Thread) (o : Out) (rs : List (BitVec 5)) (d : BitVec 5) (v : Word) : Prop :=
  ∃ body, o = sWord s body ∧ body th = th.writeResult s.now rs d v

theorem WritesResult.past {s : State} {th : Thread} {o : Out} {rs : List (BitVec 5)} {d : BitVec 5} {v : Word}
    (hw : WritesResult s th o rs d v) (h : AtFront s th) (hr : th.sReady s.now rs = .ok ()) (hd : th.sRoom d = .ok ()) :
    o = .next (s.past ((th.sPop rs).sPut d v) none) := by
  obtain ⟨body, rfl, hb⟩ := hw
  exact sWord_past h (by rw [hb, Thread.writeResult, hr, hd]; rfl) (by simp) (by simp) (by simp) (by simp)
    (Thread.sPop_sPut_held th rs d v)

theorem WritesResult.consumed {s : State} {th : Thread} {o : Out} {d r : BitVec 5} {v : Word}
    (hw : WritesResult s th o [r] d v) (h : AtFront s th) (h28 : r ≠ 28) (h29 : r ≠ 29) (hm : r.toNat ∈ th.f.marks) :
    o = .next (s.consumed .front th 9 (dieOf th.c) (th.c % 32) (regLoc th.t r.toNat) (wd (regLoc th.t r.toNat))) := by
  obtain ⟨body, rfl, hb⟩ := hw
  exact frontWord_consume h.here (by rw [hb, Thread.writeResult, Thread.sReady_register h28 h29, Thread.clean_marked hm]; rfl)

theorem opRR_writes {s : State} {th : Thread} {o : Out} {d a b : BitVec 5} {f : Word → Word → Word} {v : Word}
    (ho : o = opRR s d a b f) (hv : f (th.sVal a) (th.sVal b) = v) : WritesResult s th o [a, b] d v :=
  ⟨_, ho, by rw [← hv]; rfl⟩

theorem opR_writes {s : State} {th : Thread} {o : Out} {d a : BitVec 5} {f : Thread → Word → Word} {v : Word}
    (ho : o = opR s d a f) (hv : f th (th.sVal a) = v) : WritesResult s th o [a] d v :=
  ⟨_, ho, by rw [← hv]; rfl⟩

theorem execMovi_writes (s : State) (th : Thread) (d : BitVec 5) (i : BitVec 18) (p : Option (BitVec 29)) :
    WritesResult s th (execMovi d i p s) [] d (BitVec.ofInt 64 (immInt i p)) :=
  ⟨_, rfl, by rw [← immS_eq_ofInt]; rfl⟩

/-- A register that is no port is read, written and popped as such: MOVHI names no port (05 R130). -/
theorem Thread.writeResult_of_register (th : Thread) (now : Nat) {d : BitVec 5} (hd : d < 28) (v : Word) :
    th.writeResult now [d] d v = (do th.clean [d.toNat]; .ok (th.sPut d v, none)) := by
  have hne (p : BitVec 5) (hp : 28 ≤ p) : d ≠ p := fun h => absurd hd (BitVec.not_lt.2 (h ▸ hp))
  rw [Thread.writeResult, Thread.sReady_register (hne 28 (by decide)) (hne 29 (by decide)),
    Thread.sRoom_register (hne 30 (by decide)) (hne 31 (by decide)), Thread.sPop_register (hne 28 (by decide)) (hne 29 (by decide))]
  rfl

theorem execMovhi_writes (s : State) (th : Thread) {d : BitVec 5} (hd : d < 28) (i : BitVec 18) (p : Option (BitVec 29)) :
    WritesResult s th (execMovhi d i p s) [d] d (wd ((immInt i p % 2 ^ 32).toNat * 2 ^ 32 + (th.sVal d).toNat % 2 ^ 32)) :=
  ⟨_, rfl, by rw [Thread.writeResult_of_register th s.now hd, ← movhi_eq_wd]⟩

theorem execSel_writes (s : State) (th : Thread) (d a b c : BitVec 5) :
    WritesResult s th (execSel d a b c s) [a, b, c] d (if (th.sVal c).toNat = 0 then th.sVal b else th.sVal a) :=
  ⟨_, rfl, by rw [← ite_ne_zero_eq]; rfl⟩

theorem Thread.lcntVal_eq (th : Thread) (l : Nat) (r : BitVec 1) : th.lcntVal l (r == 1) = (match th.loops[l]? with
    | none => BitVec.allOnes 64
    | some y => if r = 1 then wd (y.count - y.j) else wd y.j) := by
  unfold Thread.lcntVal
  cases th.loops[l]? <;> simp

theorem execLcnt_writes {s : State} {th : Thread} {r : BitVec 1} {l : BitVec 2} {v : Word} (d : BitVec 5)
    (hv : th.lcntVal l.toNat (r == 1) = v) : WritesResult s th (execLcnt d r l s) [] d v :=
  ⟨_, rfl, by rw [← hv]; rfl⟩

/-- Each word of the tables of the front does what its row says (05 Tables 5.2, 5.3, R129 to R132, R144). -/
theorem exec_writes {i : Instr} {s : State} {th : Thread} {rs : List (BitVec 5)} {d : BitVec 5} {v : Word}
    (hw : i.wellFormed = true) (h : scalarOf th i = some (rs, d, v)) : WritesResult s th (exec i s) rs d v := by
  cases i with
  | add d a b => cases h; exact opRR_writes (exec_add d a b s) (add_eq_wd _ _)
  | sub d a b => cases h; exact opRR_writes (exec_sub d a b s) (sub_eq_ofInt _ _)
  | mul d a b => cases h; exact opRR_writes (exec_mul d a b s) (mul_eq_wd _ _)
  | mulh d a b => cases h; exact opRR_writes (exec_mulh d a b s) rfl
  | mulhn d a b => cases h; exact opRR_writes (exec_mulhn d a b s) rfl
  | and d a b => cases h; exact opRR_writes (exec_and d a b s) rfl
  | or d a b => cases h; exact opRR_writes (exec_or d a b s) rfl
  | xor d a b => cases h; exact opRR_writes (exec_xor d a b s) rfl
  | shl d a b => cases h; exact opRR_writes (exec_shl d a b s) (shiftLeft_eq_wd _ _)
  | shr d a b => cases h; exact opRR_writes (exec_shr d a b s) (ushiftRight_eq_wd _ _)
  | sra d a b => cases h; exact opRR_writes (exec_sra d a b s) (sshiftRight_eq_ofInt _ _)
  | slt d a b => cases h; exact opRR_writes (exec_slt d a b s) (slt_eq_ite _ _)
  | sltn d a b => cases h; exact opRR_writes (exec_sltn d a b s) (ult_eq_ite _ _)
  | seq d a b => cases h; exact opRR_writes (exec_seq d a b s) (beq_eq_ite _ _)
  | min d a b => cases h; exact opRR_writes (exec_min d a b s) (slt_min _ _)
  | minn d a b => cases h; exact opRR_writes (exec_minn d a b s) (ult_min _ _)
  | max d a b => cases h; exact opRR_writes (exec_max d a b s) (slt_max _ _)
  | maxn d a b => cases h; exact opRR_writes (exec_maxn d a b s) (ult_max _ _)
  | wfld d a k => cases h; exact opR_writes (exec_wfld d a k s) (widField_eq_wd _ _ _)
  | addi d a i p => cases h; exact opR_writes (exec_addi d a i p s) (addImm_eq_ofInt _ i p)
  | andi d a i p => cases h; exact opR_writes (exec_andi d a i p s) (by rw [immS_eq_ofInt])
  | ori d a i p => cases h; exact opR_writes (exec_ori d a i p s) (by rw [immS_eq_ofInt])
  | xori d a i p => cases h; exact opR_writes (exec_xori d a i p s) (by rw [immS_eq_ofInt])
  | shli d a c => cases h; exact opR_writes (exec_shli d a c s) (shiftLeft_eq_wd _ _)
  | shri d a c => cases h; exact opR_writes (exec_shri d a c s) (ushiftRight_eq_wd _ _)
  | srai d a c => cases h; exact opR_writes (exec_srai d a c s) (sshiftRight_eq_ofInt _ _)
  | slti d a i p => cases h; exact opR_writes (exec_slti d a i p s) (sltImm_eq_ite (by decide) _ i p)
  | movi d i p => cases h; rw [exec_movi]; exact execMovi_writes s th d i p
  | movhi d i p => cases h; rw [exec_movhi]; exact execMovhi_writes s th (of_decide_eq_true hw) i p
  | sel d a b c => cases h; rw [exec_sel]; exact execSel_writes s th d a b c
  | lcnt d r l => cases h; rw [exec_lcnt]; exact execLcnt_writes d (th.lcntVal_eq l.toNat r)
  | _ => cases h

/-- The value that a counting word writes is the count that its rule describes (05 R128). -/
theorem exec_counts {i : Instr} {d a : BitVec 5} {counts : Word → Nat → Prop} (h : countOf i = some (d, a, counts)) :
    ∃ count : Word → Nat, (∀ x, counts x (count x) ∧ count x ≤ 64) ∧ ∀ s, exec i s = opR s d a (fun _ x => wd (count x)) := by
  cases i with
  | clz d a =>
    cases h
    exact ⟨clz64, fun x => ⟨⟨clz64_le x, clz64_above x, clz64_at x⟩, clz64_le x⟩, exec_clz d a⟩
  | ctz d a =>
    cases h
    exact ⟨fun x => ctzN 64 x.toNat, fun x => ⟨ctzN_spec 64 x.toNat, (ctzN_spec 64 x.toNat).1⟩, exec_ctz d a⟩
  | popc d a =>
    cases h
    exact ⟨fun x => popN 64 x.toNat, fun x => ⟨popN_eq_length 64 x.toNat, popN_le 64 x.toNat⟩, exec_popc d a⟩
  | _ => cases h

/-- Settles O1: every word of the tables is an S word that pops its sources and writes its result (`exec_writes`), and the counts are
those of the rule (`exec_counts`). -/
theorem scalarWordsWriteTheirResult : Obligations.ScalarWordsWriteTheirResult := by
  refine ⟨?_, ?_, ?_⟩
  · intro i s th rs d v hf hw h hr hd
    exact (exec_writes hw h).past hf hr hd
  · intro i s th d a counts hf h hr hd
    obtain ⟨count, hcount, hexec⟩ := exec_counts h
    obtain ⟨hc, hle⟩ := hcount (th.sVal a)
    exact ⟨count (th.sVal a), hc, hle, (hexec s).trans (opR_ok hf hr hd)⟩
  · intro i s th d r v hf hw h h28 h29 hm
    exact ⟨_, _, (exec_writes hw h).consumed hf h28 h29 hm⟩

/-! ### Divisions -/

/-- Each division divides as its row says (05 R127). -/
theorem exec_divides {i : Instr} {th : Thread} {d a b : BitVec 5} {v : Word} (h : divisionOf th i = some (d, a, b, v)) :
    ∃ f : Word → Word → Word, f (th.sVal a) (th.sVal b) = v ∧ ∀ s, exec i s = opDiv s d a b f := by
  cases i with
  | div d a b => cases h; exact ⟨quotS, rfl, exec_div d a b⟩
  | divn d a b => cases h; exact ⟨fun x y => x / y, BitVec.udiv_def, exec_divn d a b⟩
  | rem d a b => cases h; exact ⟨remS, rfl, exec_rem d a b⟩
  | remn d a b => cases h; exact ⟨fun x y => x % y, BitVec.umod_def, exec_remn d a b⟩
  | _ => cases h

/-- Settles O2: a division by the cases of its divisor, `opDiv_ok` and `opDiv_zero`. -/
theorem divisionsDivideOrTrap : Obligations.DivisionsDivideOrTrap := by
  intro i s th d a b v hf h hr
  obtain ⟨f, rfl, hexec⟩ := exec_divides h
  rw [hexec s]
  exact ⟨fun hz hd => opDiv_ok hf hr hd hz, fun hz hs => opDiv_zero hf hr hz hs⟩

/-! ### Where the front stands after a word (02 R36, 05 R133, R137) -/

@[simp] theorem Thread.log_trap (th : Thread) (k : HistKind) : (th.log k).trap = th.trap := by unfold Thread.log; split <;> rfl
@[simp] theorem Thread.setLoops_trap (th : Thread) (l : List Loop) : (th.setLoops l).trap = th.trap :=
  Thread.logs_keep (·.trap) Thread.log_trap _ th
@[simp] theorem Thread.advance_trap (th : Thread) (e : QEntry) (g : Option Word) (n : Nat) : (th.advance e g n).trap = th.trap := by
  cases g
  · exact Thread.setLoops_trap th _
  · rfl
@[simp] theorem Thread.advance_seq (th : Thread) (e : QEntry) (g : Option Word) (n : Nat) : (th.advance e g n).seq = th.seq + 1 := rfl
@[simp] theorem Thread.advance_lpre (th : Thread) (e : QEntry) (g : Option Word) (n : Nat) : (th.advance e g n).lpre = none := rfl

theorem Thread.advance_target_pc (th : Thread) (e : QEntry) (g : Word) (n : Nat) : (th.advance e (some g) n).pc = g := rfl
theorem Thread.advance_target_loops (th : Thread) (e : QEntry) (g : Word) (n : Nat) : (th.advance e (some g) n).loops = th.loops := rfl

/-- Without a target the loop-back test at the word's last four bytes decides (05 R137). -/
theorem Thread.advance_next (th : Thread) (e : QEntry) (n : Nat) :
    ((th.advance e none n).loops, (th.advance e none n).pc) = loopBack (e.addr + wd e.size - 4) th.loops (e.addr + wd e.size) := rfl

theorem loopBack_elsewhere {a pc : Word} {ls : List Loop} (h : ∀ y r, ls = y :: r → y.last ≠ a) : loopBack a ls pc = (ls, pc) := by
  cases ls with
  | nil => rfl
  | cons y r => rw [loopBack, if_neg (h y r rfl)]

theorem loopBack_again {a pc : Word} {y : Loop} {r : List Loop} (ha : y.last = a) (hj : y.j + 1 < y.count) :
    loopBack a (y :: r) pc = ({ y with j := y.j + 1 } :: r, y.first) := by
  rw [loopBack, if_pos ha, if_pos hj]

theorem loopBack_ends {a pc : Word} {y : Loop} {r : List Loop} (ha : y.last = a) (hj : y.count ≤ y.j + 1) :
    loopBack a (y :: r) pc = loopBack a r pc := by
  rw [loopBack, if_pos ha, if_neg (Nat.not_lt.2 hj)]

/-- A thread that goes on where the loop-back test says stands in the levels and at the place that it gives. -/
theorem Thread.advance_of_loopBack {th : Thread} {e : QEntry} {n : Nat} {ls : List Loop} {pc : Word}
    (h : loopBack (e.addr + wd e.size - 4) th.loops (e.addr + wd e.size) = (ls, pc)) :
    (th.advance e none n).pc = pc ∧ (th.advance e none n).loops = ls :=
  have hn := (Thread.advance_next th e n).trans h
  ⟨congrArg Prod.snd hn, congrArg Prod.fst hn⟩

/-! ### NOP, the L word and LEXIT (05 R143, R145, 02 R49) -/

theorem execNop_past {s : State} {th : Thread} (h : AtFront s th) : execNop s = .next (s.past th none) :=
  sWord_past h rfl rfl rfl rfl rfl (Nat.le_add_right _ _)

theorem lexitLoops_pop (y : Loop) (r : List Loop) :
    lexitLoops false (y :: r) = ((loopBack y.last r (y.last + 4)).1, some (loopBack y.last r (y.last + 4)).2) := rfl

theorem lexitLoops_drain_plain {y : Loop} (hp : y.pipelined = false) (r : List Loop) :
    lexitLoops true (y :: r) = ({ y with count := min y.count (y.j + 1) } :: r, none) := by
  simp [lexitLoops, hp]

theorem lexitLoops_drain_pipelined {y : Loop} (hp : y.pipelined = true) (r : List Loop) :
    lexitLoops true (y :: r) = ({ y with n := min y.n (y.j + 1), count := min y.n (y.j + 1) + y.stages - 1 } :: r, none) := by
  simp [lexitLoops, hp]

theorem lexitLoops_length (drain : Bool) (ls : List Loop) : (lexitLoops drain ls).1.length ≤ ls.length := by
  cases ls with
  | nil => exact Nat.le_refl _
  | cons y r =>
    cases drain
    · rw [lexitLoops_pop]; exact Nat.le_succ_of_le (loopBack_length _ _ _)
    · cases hp : y.pipelined
      · rw [lexitLoops_drain_plain hp]; exact Nat.le_refl _
      · rw [lexitLoops_drain_pipelined hp]; exact Nat.le_refl _

/-- LEXIT without a level (05 R143). -/
theorem execLexit_no_level {s : State} {th : Thread} {a : BitVec 5} {w n : BitVec 1} (h : AtFront s th)
    (hr : th.sReady s.now [a] = .ok ()) (hl : th.loops = []) (hs : th.settled th.seq = true) :
    execLexit a w n s = .next (s.takeTrap th th.seq s.cur.e.addr 0x01 s.cur.e.wordVal 0) :=
  sWord_trap h.here (by rw [hr, hl]; rfl) hs

/-- LEXIT inside a level whose condition is false pops its source alone (05 R143). -/
theorem execLexit_stays {s : State} {th : Thread} {a : BitVec 5} {w n : BitVec 1} (h : AtFront s th)
    (hr : th.sReady s.now [a] = .ok ()) (hl : th.loops ≠ []) (hw : w = 0) (ha : th.sVal a = 0) :
    execLexit a w n s = .next (s.past (th.sPop [a]) none) :=
  sWord_past h (by simp [hr, hl, hw, ha, bind, Except.bind]) (by simp) (by simp) (by simp) (by simp)
    (Nat.le_trans (Thread.sPop_held th _) (by omega))

/-- LEXIT inside a level whose condition is true leaves the levels as `lexitLoops` says (05 R143). -/
theorem execLexit_exits {s : State} {th : Thread} {a : BitVec 5} {w n : BitVec 1} {ls : List Loop} {g : Option Word}
    (h : AtFront s th) (hr : th.sReady s.now [a] = .ok ()) (hl : th.loops ≠ []) (hc : w = 1 ∨ th.sVal a ≠ 0)
    (hx : lexitLoops (n == 1) th.loops = (ls, g)) :
    execLexit a w n s = .next (s.past ((th.sPop [a]).setLoops ls) g) := by
  have hlen := lexitLoops_length (n == 1) th.loops
  rw [hx] at hlen
  have hcond : w = 1#1 ∨ ¬ th.sVal a = 0#64 := hc
  have hloops : lexitLoops (n == 1#1) th.loops = (ls, g) := hx
  exact sWord_past h (by simp [hr, hl, hcond, hloops, bind, Except.bind]) (by simp) (by simp) (by simp) (by simp)
    (Thread.sPop_setLoops_held th _ _ (by rw [Thread.sPop_loops]; exact hlen))

/-- Settles O5: LEXIT by the cases of its level and its condition, the place of the front by those of the loop-back test. -/
theorem loopExitAndThePlaceOfTheFront : Obligations.LoopExitAndThePlaceOfTheFront := by
  refine ⟨?_, ?_⟩
  · intro s th a w n p h
    refine ⟨execNop_past h, by simp [exec_limm, execLimm, h.here], fun hr => ⟨?_, ?_, ?_⟩⟩
    · exact fun hl hs => execLexit_no_level h hr hl hs
    · exact fun hl hw ha => execLexit_stays h hr hl hw ha
    · intro y r hl hc
      have hne : th.loops ≠ [] := by simp [hl]
      refine ⟨?_, ?_, ?_⟩
      · rintro rfl
        exact execLexit_exits h hr hne hc (by rw [hl]; exact lexitLoops_pop y r)
      · rintro rfl hp
        exact execLexit_exits h hr hne hc (by rw [hl]; exact lexitLoops_drain_plain hp r)
      · rintro rfl hp
        exact execLexit_exits h hr hne hc (by rw [hl]; exact lexitLoops_drain_pipelined hp r)
  · intro x e now
    refine ⟨fun t => ⟨Thread.advance_target_pc x e t now, Thread.advance_target_loops x e t now⟩, fun o => by simp, ?_, ?_, ?_⟩
    · exact fun h => Thread.advance_of_loopBack (loopBack_elsewhere h)
    · intro y r hl ha hj
      exact Thread.advance_of_loopBack (by rw [hl]; exact loopBack_again ha hj)
    · intro y hl ha hj
      exact Thread.advance_of_loopBack (by rw [hl]; exact loopBack_ends ha hj)

end Sys2Proof.Machine

/-!
PROOFS. The words of the execute engine (06): where a V word's result lands or is pushed, the lanes and bits of packed registers, the lane
arithmetic of Table 6.4, and from these what each integer, permute, bit, compare, mask and push word writes.
-/

namespace Sys2Proof.Machine

/-! ### Lanes and bits of a register (06 R150, R151) -/

theorem laneOf_lt (w : Nat) (x : Vec) (i : Nat) : laneOf w x i < 2 ^ w := Nat.mod_lt _ (Nat.two_pow_pos w)

theorem laneOf_zero (w : Nat) (x : Vec) : laneOf w x 0 = x.toNat % 2 ^ w := by simp [laneOf]

theorem testBit_laneOf (w : Nat) (x : Vec) (i j : Nat) : (laneOf w x i).testBit j = (decide (j < w) && x.getLsbD (w * i + j)) := by
  rw [laneOf, Nat.testBit_mod_two_pow, Nat.testBit_div_two_pow, Nat.add_comm j]
  rfl

theorem getLsbD_eq_testBit_laneOf {w : Nat} (hw : 0 < w) (x : Vec) (n : Nat) : x.getLsbD n = (laneOf w x (n / w)).testBit (n % w) := by
  rw [testBit_laneOf, Nat.div_add_mod, decide_eq_true (Nat.mod_lt n hw), Bool.true_and]

theorem laneOf_congr {w i : Nat} {x y : Vec} (h : ∀ j, j < w → x.getLsbD (w * i + j) = y.getLsbD (w * i + j)) :
    laneOf w x i = laneOf w y i := by
  refine Nat.eq_of_testBit_eq fun j => ?_
  rw [testBit_laneOf, testBit_laneOf]
  by_cases hj : j < w
  · rw [h j hj]
  · simp [hj]

/-- The number of lanes packed lane 0 first, before it is cut to a register. -/
def laneSum (w : Nat) (l : List Nat) : Nat := l.foldr (fun x a => x + 2 ^ w * a) 0

theorem packLanes_eq_laneSum (w : Nat) (l : List Nat) : packLanes w l = BitVec.ofNat 2048 (laneSum w l) := rfl

theorem laneSum_cons (w x : Nat) (l : List Nat) : laneSum w (x :: l) = x + 2 ^ w * laneSum w l := rfl

theorem laneSum_lt {w : Nat} {l : List Nat} (hl : ∀ x ∈ l, x < 2 ^ w) : laneSum w l < 2 ^ (w * l.length) := by
  induction l with
  | nil => exact Nat.two_pow_pos _
  | cons x l ih =>
    obtain ⟨hx, hr⟩ := List.forall_mem_cons.1 hl
    calc laneSum w (x :: l) = x + 2 ^ w * laneSum w l := laneSum_cons w x l
      _ < 2 ^ w + 2 ^ w * laneSum w l := Nat.add_lt_add_right hx _
      _ = 2 ^ w * (laneSum w l + 1) := by rw [Nat.mul_succ, Nat.add_comm]
      _ ≤ 2 ^ w * 2 ^ (w * l.length) := Nat.mul_le_mul_left _ (ih hr)
      _ = 2 ^ (w * (x :: l).length) := by rw [← Nat.pow_add, List.length_cons, Nat.mul_succ, Nat.add_comm]

theorem laneSum_lane {w : Nat} {l : List Nat} (hl : ∀ x ∈ l, x < 2 ^ w) {i : Nat} (hi : i < l.length) :
    laneSum w l / 2 ^ (w * i) % 2 ^ w = l[i] := by
  induction l generalizing i with
  | nil => exact absurd hi (Nat.not_lt_zero i)
  | cons x l ih =>
    obtain ⟨hx, hr⟩ := List.forall_mem_cons.1 hl
    rw [laneSum_cons]
    cases i with
    | zero => rw [Nat.mul_zero, Nat.pow_zero, Nat.div_one, Nat.add_mul_mod_self_left, Nat.mod_eq_of_lt hx, List.getElem_cons_zero]
    | succ i =>
      rw [Nat.mul_succ, Nat.add_comm (w * i), Nat.pow_add, ← Nat.div_div_eq_div_mul, Nat.add_mul_div_left x _ (Nat.two_pow_pos w),
        Nat.div_eq_of_lt hx, Nat.zero_add, List.getElem_cons_succ]
      exact ih hr (Nat.lt_of_succ_lt_succ hi)

/-- Lanes that fit into a register are packed as they are. -/
theorem toNat_packLanes {w : Nat} {l : List Nat} (hl : ∀ x ∈ l, x < 2 ^ w) (hlen : w * l.length ≤ 2048) :
    (packLanes w l).toNat = laneSum w l := by
  have hlt := Nat.lt_of_lt_of_le (laneSum_lt hl) (Nat.pow_le_pow_right Nat.two_pos hlen)
  rw [packLanes_eq_laneSum, BitVec.toNat_ofNat, Nat.mod_eq_of_lt hlt]

/-- Each lane of packed lanes is the number that was packed. -/
theorem laneOf_packLanes_range {w k i : Nat} {f : Nat → Nat} (hk : w * k ≤ 2048) (hf : ∀ j, j < k → f j < 2 ^ w) (hi : i < k) :
    laneOf w (packLanes w ((List.range k).map f)) i = f i := by
  have hlen : ((List.range k).map f).length = k := by rw [List.length_map, List.length_range]
  have hl : ∀ x ∈ (List.range k).map f, x < 2 ^ w := List.forall_mem_map.2 fun j hj => hf j (List.mem_range.1 hj)
  rw [laneOf, toNat_packLanes hl (by rwa [hlen]), laneSum_lane hl (by rwa [hlen]), List.getElem_map, List.getElem_range]

/-- The bits that a mask governs are those of its groups of 32 (06 R151). -/
theorem getLsbD_wideMask (m : Word) {n : Nat} (hn : n < 2048) : (wideMask m).getLsbD n = m.getLsbD (n / 32) := by
  have hlt (g : Nat) : (if m.getLsbD g then 2 ^ 32 - 1 else 0) < 2 ^ 32 := by split <;> decide
  rw [getLsbD_eq_testBit_laneOf (w := 32) (by decide), wideMask,
    laneOf_packLanes_range (by decide) (fun g _ => hlt g) (by omega)]
  cases m.getLsbD (n / 32)
  · exact Nat.zero_testBit _
  · exact (Nat.testBit_two_pow_sub_one 32 _).trans (decide_eq_true (Nat.mod_lt n (by decide)))

/-- Every bit of a register is governed by the mask of ones. -/
theorem getLsbD_allBits {n : Nat} (hn : n < 2048) : allBits.getLsbD n = (BitVec.allOnes 64).getLsbD (n / 32) := by
  have hg : n / 32 < 64 := by omega
  rw [allBits, BitVec.getLsbD_allOnes, BitVec.getLsbD_allOnes, decide_eq_true hn, decide_eq_true hg]

theorem getLsbD_broadcast (x : Word) {n : Nat} (hn : n < 2048) : (broadcast 32 x).getLsbD n = x.getLsbD (n % 32) := by
  rw [getLsbD_eq_testBit_laneOf (w := 32) (by decide), broadcast,
    laneOf_packLanes_range (by decide) (fun _ _ => Nat.mod_lt _ (by decide)) (show n / 32 < lanes 32 by unfold lanes; omega),
    Nat.testBit_mod_two_pow, decide_eq_true (Nat.mod_lt n (by decide)), Bool.true_and]
  rfl

theorem eachLane_fst (w : Nat) (k : Word) (f : Nat → Nat × Fl) :
    (eachLane w k f).1 = packLanes w ((List.range (lanes w)).map (fun i => if laneActive w k i then (f i).1 else 0)) := by
  have hfst : Prod.fst ∘ (fun i => if laneActive w k i then f i else (0, 0)) = fun i => if laneActive w k i then (f i).1 else 0 :=
    funext fun i => apply_ite Prod.fst _ _ _
  rw [← hfst, ← List.map_map]
  rfl

/-- An active lane holds the value of its function (06 R151). -/
theorem laneOf_eachLane {w : Nat} {k : Word} {f : Nat → Nat × Fl} (hf : ∀ j, j < lanes w → (f j).1 < 2 ^ w)
    {j : Nat} (hj : j < lanes w) (ha : laneActive w k j = true) : laneOf w (eachLane w k f).1 j = (f j).1 := by
  have hlt (i : Nat) (hi : i < lanes w) : (if laneActive w k i then (f i).1 else 0) < 2 ^ w := by
    split
    · exact hf i hi
    · exact Nat.two_pow_pos w
  rw [eachLane_fst, laneOf_packLanes_range (k := lanes w) (Nat.mul_div_le 2048 w) hlt hj, if_pos ha]

/-- The bits of a lane stand in the lane's group of 32, when the width divides 32 (06 R151). -/
theorem group_of_lane {w : Nat} (hw : w ∣ 32) {i j : Nat} (hj : j < w) : (w * i + j) / 32 = i * w / 32 := by
  have hpos : 0 < w := Nat.pos_of_dvd_of_pos hw (by decide)
  obtain ⟨q, hq⟩ := hw
  rw [hq, ← Nat.div_div_eq_div_mul, ← Nat.div_div_eq_div_mul, Nat.mul_add_div hpos, Nat.div_eq_of_lt hj, Nat.mul_div_cancel _ hpos,
    Nat.add_zero]

/-- Registers that agree where a mask governs agree in its active lanes. -/
theorem laneOf_congr_active {w : Nat} (hw : w ∣ 32) {k : Word} {x y : Vec}
    (h : ∀ n, n < 2048 → k.getLsbD (n / 32) = true → x.getLsbD n = y.getLsbD n) {j : Nat} (hj : j < 2048 / w)
    (ha : k.getLsbD (j * w / 32) = true) : laneOf w x j = laneOf w y j := by
  refine laneOf_congr fun b hb => h _ ?_ (by rwa [group_of_lane hw hb])
  have hle : w * (j + 1) ≤ 2048 := Nat.le_trans (Nat.mul_le_mul_left w hj) (Nat.mul_div_le 2048 w)
  rw [Nat.mul_succ] at hle
  omega

/-! ### What a V word that issues makes of its thread (04 R111, R112) -/

@[simp] theorem State.landDue_thread? (s : State) (c t a b : Nat) : (s.landDue c t).thread? a b = s.thread? a b := by
  unfold State.landDue
  split
  · split <;> rfl
  · rfl

@[simp] theorem Thread.vPushed_c (th : Thread) (e : QEntry) (lat now : Nat) (x : Vec) : (th.vPushed e lat now x).c = th.c := by
  unfold Thread.vPushed; split <;> rfl
@[simp] theorem Thread.vPushed_t (th : Thread) (e : QEntry) (lat now : Nat) (x : Vec) : (th.vPushed e lat now x).t = th.t := by
  unfold Thread.vPushed; split <;> rfl
@[simp] theorem Thread.vPushed_f (th : Thread) (e : QEntry) (lat now : Nat) (x : Vec) : (th.vPushed e lat now x).f = th.f := by
  unfold Thread.vPushed; split <;> rfl
@[simp] theorem Thread.vPushed_tick (th : Thread) (e : QEntry) (lat now : Nat) (x : Vec) : (th.vPushed e lat now x).tick = th.tick := by
  unfold Thread.vPushed; split <;> rfl
@[simp] theorem Thread.vPushed_land (th : Thread) (e : QEntry) (lat now : Nat) (x : Vec) : (th.vPushed e lat now x).land = th.land := by
  unfold Thread.vPushed; split <;> rfl

@[simp] theorem Thread.vIssue_c (th : Thread) (e : QEntry) (lat now : Nat) (o : VOut) : (th.vIssue e lat now o).c = th.c :=
  Thread.vPushed_c ..
@[simp] theorem Thread.vIssue_t (th : Thread) (e : QEntry) (lat now : Nat) (o : VOut) : (th.vIssue e lat now o).t = th.t :=
  Thread.vPushed_t ..
@[simp] theorem Thread.vIssue_f (th : Thread) (e : QEntry) (lat now : Nat) (o : VOut) : (th.vIssue e lat now o).f = th.f :=
  Thread.vPushed_f ..
@[simp] theorem Thread.vIssue_tick (th : Thread) (e : QEntry) (lat now : Nat) (o : VOut) : (th.vIssue e lat now o).tick = th.tick + 1 :=
  congrArg (· + 1) (Thread.vPushed_tick ..)

/-- A result of the V word of an entry, to land at a tick. -/
def QEntry.landing (e : QEntry) (due : Nat) (dst : LandDst) (val mask : Vec) : Landing :=
  { dst := dst, val := val, mask := mask, due := due, seq := e.seq, addr := e.addr, corr := e.corr }

/-- The union of the flags that a V word raises, to land with its results; nothing where it raises none (06 R155). -/
def QEntry.flagsLanding (e : QEntry) (due : Nat) (fl : Fl) : List Landing :=
  if fl = 0 then [] else [e.landing due .flags (fl.setWidth 2048) 0x3F]

theorem QEntry.flagsLanding_dst (e : QEntry) (due : Nat) (fl : Fl) : ∀ y ∈ e.flagsLanding due fl, y.dst = .flags := by
  unfold QEntry.flagsLanding
  split <;> simp [QEntry.landing]

theorem Thread.vIssue_land (th : Thread) (e : QEntry) (lat now : Nat) (o : VOut) :
    (th.vIssue e lat now o).land = th.land ++ o.res.map (fun r => e.landing (th.tick + lat) r.1 r.2.1 r.2.2) ++
      e.flagsLanding (th.tick + lat) o.fl := by
  simp only [Thread.vIssue, Thread.oneTick, Thread.vPushed_land]
  rfl

/-- What a V word pushes is reserved at once, behind what its queue holds, and fills `lat` cycles later (04 R101, R111). -/
theorem Thread.vIssue_sq {th : Thread} {e : QEntry} {lat now : Nat} {o : VOut} (h : vPush e.ins = some .sq) :
    (th.vIssue e lat now o).q.sq = th.q.sq ++
      [{ val := o.push, full := true, fillAt := now + lat, seq := e.seq, addr := e.addr, corr := e.corr }] := by
  simp only [Thread.vIssue, Thread.oneTick, Thread.vPushed, h]
  rfl

theorem Thread.vIssue_vsq {th : Thread} {e : QEntry} {lat now : Nat} {o : VOut} (h : vPush e.ins = some .vsq) :
    (th.vIssue e lat now o).q.vsq = th.q.vsq ++
      [{ val := o.push.setWidth 64, full := true, fillAt := now + lat, seq := e.seq, addr := e.addr, corr := e.corr }] := by
  simp only [Thread.vIssue, Thread.oneTick, Thread.vPushed, h]
  rfl

theorem Thread.vIssue_vaq {th : Thread} {e : QEntry} {lat now : Nat} {o : VOut} (h : vPush e.ins = some .vaq) :
    (th.vIssue e lat now o).q.vaq = th.q.vaq ++
      [{ val := o.push, full := true, fillAt := now + lat, seq := e.seq, addr := e.addr, corr := e.corr }] := by
  simp only [Thread.vIssue, Thread.oneTick, Thread.vPushed, h]
  rfl

/-- The thread of a V word at the head of its queue, after the word has issued with the outcome `o`. -/
def State.issued (s : State) (th : Thread) (lat : Nat) (o : VOut) : Thread :=
  ({ th with xq := th.xq.tail } : Thread).vIssue s.cur.e lat s.now o

/-- A V word that can issue leaves its thread as `State.issued` says (06 R155). -/
theorem vWord_issues {s : State} {th : Thread} {i : Instr} {lat : Nat} {body : Thread → VOut} (h : AtIssue s th i) :
    ∃ t, vWord s lat body = .next t ∧ t.thread? th.c th.t = some (s.issued th lat (body th)) := by
  obtain ⟨hc, ht⟩ := State.thread?_slot h.here
  have hx := State.thread?_setThread (x := s.issued th lat (body th)) h.here ((Thread.vIssue_c ..).trans hc) ((Thread.vIssue_t ..).trans ht)
  rw [← hc, ← ht] at hx
  exact ⟨_, vWord_ok h, (State.landDue_thread? ..).trans hx⟩

/-! ### Results that land and values that are pushed (04 R111, 06 R151, R154) -/

/-- A word with a vector destination pushes `sq` where the destination is 30, and nothing else (06 R154). -/
theorem vPush_of_vDest {i : Instr} {d : BitVec 5} (h : vDest i = some d) : vPush i = if d = 30 then some .sq else none := by
  unfold vPush
  split
  · cases h
  · cases h
  · simp [h]

theorem VOut.toV_push (th : Thread) (val mask : Vec) (fl : Fl) : (VOut.toV th 30 val mask fl).push = val &&& mask := rfl

theorem VOut.toV_of_ne {th : Thread} {d : BitVec 5} (hd : d ≠ 30) (val mask : Vec) (fl : Fl) :
    VOut.toV th d val mask fl = { res := [(.v d.toNat, val, mask)], fl := fl, push := 0, srnd := th.csr.srnd } := if_neg hd

/-- A V word with one vector result: it lands under its mask or is pushed. What holds of every register with the result's bits where the
mask governs holds of what lands and of what is pushed. -/
theorem landsBits_of_toV {s : State} {th : Thread} {i : Instr} {lat : Nat} {body : Thread → VOut} {d : BitVec 5} {k : Word}
    {val mask : Vec} {fl : Fl} {p : Vec → Prop} (h : AtIssue s th i) (hd : vDest i = some d) (hx : exec i s = vWord s lat body)
    (hb : body th = VOut.toV th d val mask fl) (hm : ∀ n, n < 2048 → mask.getLsbD n = k.getLsbD (n / 32))
    (hp : ∀ v : Vec, (∀ n, n < 2048 → k.getLsbD (n / 32) = true → v.getLsbD n = val.getLsbD n) → p v) :
    LandsBits s th i lat d k p := by
  obtain ⟨t, ht, hth⟩ := vWord_issues (lat := lat) (body := body) h
  rw [← hx] at ht
  rw [hb] at hth
  refine ⟨fun hne => ?_, fun h30 => ?_⟩
  · rw [VOut.toV_of_ne hne] at hth
    refine ⟨t, _, s.cur.e.landing (th.tick + lat) (.v d.toNat) val mask, s.cur.e.flagsLanding (th.tick + lat) fl, ht, hth, ?_,
      QEntry.flagsLanding_dst _ _ _, rfl, rfl, hm, hp val fun _ _ _ => rfl, Thread.vIssue_f .., Thread.vIssue_tick ..⟩
    rw [State.issued, Thread.vIssue_land]
    simp
  · have hpush : vPush s.cur.e.ins = some .sq := by rw [h.word, vPush_of_vDest hd, if_pos h30]
    subst h30
    refine ⟨t, _, _, ht, hth, Thread.vIssue_sq hpush, rfl, rfl, hp _ fun n hn hk => ?_, fun n hn hk => ?_, Thread.vIssue_f ..,
      Thread.vIssue_tick ..⟩
    · rw [VOut.toV_push, BitVec.getLsbD_and, hm n hn, hk, Bool.and_true]
    · show ((VOut.toV th 30 val mask fl).push).getLsbD n = false
      rw [VOut.toV_push, BitVec.getLsbD_and, hm n hn, hk, Bool.and_false]

/-- A V word whose result is a mask register lands it under its mask, with no flag. -/
theorem lands_of_toM {s : State} {th : Thread} {i : Instr} {lat : Nat} {body : Thread → VOut} {d : BitVec 3} {val mask : Word}
    (h : AtIssue s th i) (hx : exec i s = vWord s lat body) (hb : body th = VOut.toM th d val mask) :
    ∃ (t : State) (x : Thread) (l : Landing), exec i s = .next t ∧ t.thread? th.c th.t = some x ∧ x.land = th.land ++ [l] ∧
      l.dst = .m d.toNat ∧ l.due = th.tick + lat ∧ l.mask.setWidth 64 = mask ∧ l.val.setWidth 64 = val := by
  obtain ⟨t, ht, hth⟩ := vWord_issues (lat := lat) (body := body) h
  refine ⟨t, _, s.cur.e.landing (th.tick + lat) (.m d.toNat) (val.setWidth 2048) (mask.setWidth 2048), hx.trans ht, hth, ?_, rfl, rfl,
    ?_, ?_⟩
  · rw [State.issued, Thread.vIssue_land, hb]
    simp [VOut.toM, QEntry.flagsLanding]
  · exact (BitVec.setWidth_setWidth_of_le mask (by decide)).trans (BitVec.setWidth_eq mask)
  · exact (BitVec.setWidth_setWidth_of_le val (by decide)).trans (BitVec.setWidth_eq val)

/-! ### Lane arithmetic (06 Table 6.4, R158) -/

theorem typeWidth_dvd (t : BitVec 4) : typeWidth t ∣ 32 := by revert t; decide

theorem laneW_eq_typeWidth {t : BitVec 4} (ht : t ≤ 11) : laneW t.toNat = typeWidth t := by revert t; decide

/-- The integer types are of set ANY. -/
theorem le_eleven_of_int {t : BitVec 4} (ht : t ≤ 5) : t ≤ 11 := BitVec.le_trans ht (by decide)

theorem isInt_of_le {t : BitVec 4} (ht : t ≤ 5) : isInt t.toNat = true := decide_eq_true ht

theorem laneInt_eq_laneZ {t : BitVec 4} (ht : t ≤ 5) (n : Nat) : laneInt t.toNat n = laneZ t n := by
  have hs : isSigned t.toNat = decide (t ≤ 2) := rfl
  simp only [laneInt, laneZ, laneW_eq_typeWidth (le_eleven_of_int ht), hs, Bool.and_eq_true, decide_eq_true_eq]

theorem wrapN_lt (w : Nat) (x : Int) : wrapN w x < 2 ^ w := by
  have hpos : (0 : Int) < 2 ^ w := Int.pow_pos (by decide)
  rw [wrapN, Int.toNat_lt (Int.emod_nonneg x (Int.ne_of_gt hpos)), Int.natCast_pow]
  exact Int.emod_lt_of_pos x hpos

theorem laneOfZ_lt (t : BitVec 4) (sat : Bool) (x : Int) : laneOfZ t sat x < 2 ^ typeWidth t := wrapN_lt _ _

theorem laneOfZ_wraps (t : BitVec 4) (x : Int) : laneOfZ t false x = wrapN (typeWidth t) x := rfl

/-- Clamping by comparisons is clamping by the least and the greatest. -/
theorem clamp_eq_ite {lo hi : Int} (h : lo ≤ hi) (x : Int) : max lo (min hi x) = if x < lo then lo else if hi < x then hi else x := by
  split
  · omega
  · split <;> omega

theorem intLo_le_intHi (t : Nat) : intLo t ≤ intHi t := by
  have h1 : (0 : Int) < 2 ^ (laneW t - 1) := Int.pow_pos (by decide)
  have h2 : (0 : Int) < 2 ^ laneW t := Int.pow_pos (by decide)
  unfold intLo intHi
  split <;> omega

theorem intLane_clamps (t : Nat) (x : Int) :
    (intLane t true x).1 = wrapN (laneW t) (if x < intLo t then intLo t else if intHi t < x then intHi t else x) := by
  rw [← clamp_eq_ite (intLo_le_intHi t)]
  rfl

/-- The lane of an exact integer: wrapped, or clamped under `.sat` (06 R158). -/
theorem intLane_eq_laneOfZ {t : BitVec 4} (ht : t ≤ 5) (sat : Bool) (x : Int) : (intLane t.toNat sat x).1 = laneOfZ t sat x := by
  have hw := laneW_eq_typeWidth (le_eleven_of_int ht)
  cases sat
  · rw [laneOfZ_wraps, ← hw]
    rfl
  · have hs : isSigned t.toNat = decide (t ≤ 2) := rfl
    simp only [intLane_clamps, intLo, intHi, hs, hw, decide_eq_true_eq]
    rfl

theorem arith2_int {t : BitVec 4} (ht : t ≤ 5) (sat : Bool) (fi : Int → Int → Int) (ff : BitVec 2 → FV → FV → Ex) (mode : BitVec 2)
    (x y : Nat) : (arith2 t.toNat sat fi ff mode x y).1 = laneOfZ t sat (fi (laneZ t x) (laneZ t y)) := by
  rw [arith2, if_pos (isInt_of_le ht), intLane_eq_laneOfZ ht, laneInt_eq_laneZ ht, laneInt_eq_laneZ ht]

theorem arith3_int {t : BitVec 4} (ht : t ≤ 5) (fi : Int → Int → Int → Int) (ff : BitVec 2 → FV → FV → FV → Ex) (mode : BitVec 2)
    (x y c : Nat) : (arith3 t.toNat fi ff mode x y c).1 = laneOfZ t false (fi (laneZ t x) (laneZ t y) (laneZ t c)) := by
  rw [arith3, if_pos (isInt_of_le ht), intLane_eq_laneOfZ ht, laneInt_eq_laneZ ht, laneInt_eq_laneZ ht, laneInt_eq_laneZ ht]

theorem condOf_int {t : BitVec 4} (ht : t ≤ 5) (fi : Int → Int → Bool) (ff : Int → Bool) (x y : Nat) :
    condOf t.toNat fi ff x y = fi (laneZ t x) (laneZ t y) := by
  rw [condOf, if_pos (isInt_of_le ht), laneInt_eq_laneZ ht, laneInt_eq_laneZ ht]

theorem laneW_of_int {t : BitVec 4} (ht : t ≤ 5) : laneW t.toNat = typeWidth t := laneW_eq_typeWidth (le_eleven_of_int ht)

theorem natAbs_eq_ite (x : Int) : (x.natAbs : Int) = if x < 0 then -x else x := by split <;> omega

/-- A lane of VMULH: the product's upper half (06 Table 6.4). -/
theorem mulhLane_eq_laneOfZ {t : BitVec 4} (ht : t ≤ 5) (x y : Nat) :
    wrapN (laneW t.toNat) (laneInt t.toNat x * laneInt t.toNat y / 2 ^ laneW t.toNat) =
      laneOfZ t false (laneZ t x * laneZ t y / 2 ^ typeWidth t) := by
  rw [laneOfZ_wraps, laneW_of_int ht, laneInt_eq_laneZ ht, laneInt_eq_laneZ ht]

theorem absLane_eq_laneOfZ {t : BitVec 4} (ht : t ≤ 5) (sat : Bool) (x : Nat) (o : Nat × Fl) :
    (if isInt t.toNat then intLane t.toNat sat (laneInt t.toNat x).natAbs else o).1 =
      laneOfZ t sat (if laneZ t x < 0 then -(laneZ t x) else laneZ t x) := by
  rw [if_pos (isInt_of_le ht), intLane_eq_laneOfZ ht, laneInt_eq_laneZ ht, natAbs_eq_ite]

theorem negLane_eq_laneOfZ {t : BitVec 4} (ht : t ≤ 5) (sat : Bool) (x : Nat) (o : Nat × Fl) :
    (if isInt t.toNat then intLane t.toNat sat (-(laneInt t.toNat x)) else o).1 = laneOfZ t sat (-(laneZ t x)) := by
  rw [if_pos (isInt_of_le ht), intLane_eq_laneOfZ ht, laneInt_eq_laneZ ht]

/-- The one bits of a lane, by its binary digits (06 R175). -/
theorem popLane_eq_filter {t : BitVec 4} (ht : t ≤ 5) (x : Nat) :
    popLane (laneW t.toNat) x = ((List.range (typeWidth t)).filter (fun k => x / 2 ^ k % 2 = 1)).length := by
  have hbit : (fun k => x.testBit k) = fun k => decide (x / 2 ^ k % 2 = 1) := funext fun k => Nat.testBit_eq_decide_div_mod_eq
  rw [popLane, hbit, laneW_of_int ht]

theorem length_filter_range_lt (n : Nat) (p : Nat → Bool) : ((List.range n).filter p).length < 2 ^ n :=
  Nat.lt_of_le_of_lt (Nat.le_trans (List.length_filter_le _ _) (Nat.le_of_eq List.length_range)) Nat.lt_two_pow_self

/-! ### Words that work lane by lane (06 R151, R158, R159, R162, R172, R173, R175) -/

/-- Lane `j` of a source read at the width of a type. -/
def Thread.lane (th : Thread) (t : BitVec 4) (r : BitVec 5) (j : Nat) : Nat := laneOf (typeWidth t) (th.vVal r (typeWidth t)) j

theorem Thread.lane_lt (th : Thread) (t : BitVec 4) (r : BitVec 5) (j : Nat) : th.lane t r j < 2 ^ typeWidth t := laneOf_lt _ _ _

/-- The outcome is that of a V word which writes `val j` into each lane `j` of type `t` that the mask `m` makes active in `d`. -/
def WritesLanes (s : State) (th : Thread) (o : Out) (lat : Nat) (d : BitVec 5) (t : BitVec 4) (m : BitVec 3) (val : Nat → Nat) : Prop :=
  ∃ (body : Thread → VOut) (f : Nat → Nat × Fl) (fl : Fl), o = vWord s lat body ∧
    body th = VOut.toV th d (eachLane (typeWidth t) (th.mVal m) f).1 (wideMask (th.mVal m)) fl ∧
    ∀ j, (f j).1 = val j ∧ val j < 2 ^ typeWidth t

theorem WritesLanes.lands {s : State} {th : Thread} {i : Instr} {lat : Nat} {d : BitVec 5} {t : BitVec 4} {m : BitVec 3} {val : Nat → Nat}
    (hw : WritesLanes s th (exec i s) lat d t m val) (h : AtIssue s th i) (hd : vDest i = some d) :
    LandsBits s th i lat d (th.mVal m) (fun v => ∀ j, j < 2048 / typeWidth t → (th.mVal m).getLsbD (j * typeWidth t / 32) = true →
      laneOf (typeWidth t) v j = val j) := by
  obtain ⟨body, f, fl, hx, hb, hf⟩ := hw
  refine landsBits_of_toV h hd hx hb (fun n hn => getLsbD_wideMask _ hn) fun v hv j hj ha => ?_
  calc laneOf (typeWidth t) v j = laneOf (typeWidth t) (eachLane (typeWidth t) (th.mVal m) f).1 j :=
        laneOf_congr_active (typeWidth_dvd t) hv hj ha
    _ = (f j).1 := laneOf_eachLane (fun i _ => (hf i).1 ▸ (hf i).2) hj ha
    _ = val j := (hf j).1

theorem ite_lt {n x y : Nat} {p : Prop} [Decidable p] (hx : x < n) (hy : y < n) : (if p then x else y) < n := by split <;> assumption

section Shapes

variable {s : State} {th : Thread} {o : Out} {lat : Nat} {d a b : BitVec 5} {t : BitVec 4} {m : BitVec 3} {val : Nat → Nat}

theorem vBin_writesLanes {f : BitVec 2 → Nat → Nat → Nat × Fl} (ho : o = vBin s lat d a b t.toNat m.toNat f) (ht : t ≤ 11)
    (hf : ∀ j, (f s.cur.e.frm (th.lane t a j) (th.lane t b j)).1 = val j) (hv : ∀ j, val j < 2 ^ typeWidth t) :
    WritesLanes s th o lat d t m val :=
  ⟨_, fun j => f s.cur.e.frm (th.lane t a j) (th.lane t b j), _, ho,
    by simp only [laneW_eq_typeWidth ht, BitVec.ofNat_toNat, BitVec.setWidth_eq]; rfl, fun j => ⟨hf j, hv j⟩⟩

theorem vUn_writesLanes {f : BitVec 2 → Nat → Nat × Fl} (ho : o = vUn s lat d a t.toNat m.toNat f) (ht : t ≤ 11)
    (hf : ∀ j, (f s.cur.e.frm (th.lane t a j)).1 = val j) (hv : ∀ j, val j < 2 ^ typeWidth t) : WritesLanes s th o lat d t m val :=
  ⟨_, fun j => f s.cur.e.frm (th.lane t a j), _, ho,
    by simp only [laneW_eq_typeWidth ht, BitVec.ofNat_toNat, BitVec.setWidth_eq]; rfl, fun j => ⟨hf j, hv j⟩⟩

theorem vTri_writesLanes {f : BitVec 2 → Nat → Nat → Nat → Nat × Fl} (ho : o = vTri s lat d a b t.toNat m.toNat f) (ht : t ≤ 11)
    (hf : ∀ j, (f s.cur.e.frm (th.lane t a j) (th.lane t b j) (th.lane t d j)).1 = val j) (hv : ∀ j, val j < 2 ^ typeWidth t) :
    WritesLanes s th o lat d t m val :=
  ⟨_, fun j => f s.cur.e.frm (th.lane t a j) (th.lane t b j) (th.lane t d j), _, ho,
    by simp only [laneW_eq_typeWidth ht, BitVec.ofNat_toNat, BitVec.setWidth_eq]; rfl, fun j => ⟨hf j, hv j⟩⟩

theorem vMove_writesLanes {f : Thread → Nat → Nat} (ho : o = vMove s lat d t.toNat m.toNat f) (ht : t ≤ 11)
    (hf : ∀ j, f th j = val j) (hv : ∀ j, val j < 2 ^ typeWidth t) : WritesLanes s th o lat d t m val :=
  ⟨_, fun j => (f th j, 0), _, ho,
    by simp only [laneW_eq_typeWidth ht, BitVec.ofNat_toNat, BitVec.setWidth_eq]; rfl, fun j => ⟨hf j, hv j⟩⟩

end Shapes

/-- Each word of these tables writes the lanes that its row gives (06 Table 6.4, R162, R172, R173, R175), at the latency of its class. -/
theorem exec_writesLanes {i : Instr} {s : State} {th : Thread} {lat : Nat} {d : BitVec 5} {t : BitVec 4} {m : BitVec 3} {val : Nat → Nat}
    (hl : vLatencyOf i = some lat) (h : laneFnOf th i = some (d, t, m, val)) :
    WritesLanes s th (exec i s) lat d t m val ∧ vDest i = some d := by
  cases i with
  | vadd d a b t m x =>
    cases hl
    obtain ⟨ht, ⟨⟩⟩ := Option.ite_none_right_eq_some.1 h
    exact ⟨vBin_writesLanes (exec_vadd ..) (le_eleven_of_int ht) (fun _ => arith2_int ht ..) (fun _ => laneOfZ_lt ..), rfl⟩
  | vsub d a b t m x =>
    cases hl
    obtain ⟨ht, ⟨⟩⟩ := Option.ite_none_right_eq_some.1 h
    exact ⟨vBin_writesLanes (exec_vsub ..) (le_eleven_of_int ht) (fun _ => arith2_int ht ..) (fun _ => laneOfZ_lt ..), rfl⟩
  | vmul d a b t m x =>
    cases hl
    obtain ⟨ht, ⟨⟩⟩ := Option.ite_none_right_eq_some.1 h
    exact ⟨vBin_writesLanes (exec_vmul ..) (le_eleven_of_int ht) (fun _ => arith2_int ht ..) (fun _ => laneOfZ_lt ..), rfl⟩
  | vmulh d a b t m =>
    cases hl
    obtain ⟨ht, ⟨⟩⟩ := Option.ite_none_right_eq_some.1 h
    exact ⟨vBin_writesLanes (exec_vmulh ..) (le_eleven_of_int ht) (fun _ => mulhLane_eq_laneOfZ ht ..) (fun _ => laneOfZ_lt ..), rfl⟩
  | vfma d a b t m =>
    cases hl
    obtain ⟨ht, ⟨⟩⟩ := Option.ite_none_right_eq_some.1 h
    exact ⟨vTri_writesLanes (exec_vfma ..) (le_eleven_of_int ht) (fun _ => arith3_int ht ..) (fun _ => laneOfZ_lt ..), rfl⟩
  | vfms d a b t m =>
    cases hl
    obtain ⟨ht, ⟨⟩⟩ := Option.ite_none_right_eq_some.1 h
    exact ⟨vTri_writesLanes (exec_vfms ..) (le_eleven_of_int ht) (fun _ => arith3_int ht ..) (fun _ => laneOfZ_lt ..), rfl⟩
  | vfnm d a b t m =>
    cases hl
    obtain ⟨ht, ⟨⟩⟩ := Option.ite_none_right_eq_some.1 h
    exact ⟨vTri_writesLanes (exec_vfnm ..) (le_eleven_of_int ht) (fun _ => arith3_int ht ..) (fun _ => laneOfZ_lt ..), rfl⟩
  | vmin d a b t m =>
    cases hl
    obtain ⟨ht, ⟨⟩⟩ := Option.ite_none_right_eq_some.1 h
    exact ⟨vBin_writesLanes (exec_vmin ..) (le_eleven_of_int ht) (fun _ => arith2_int ht ..) (fun _ => laneOfZ_lt ..), rfl⟩
  | vmax d a b t m =>
    cases hl
    obtain ⟨ht, ⟨⟩⟩ := Option.ite_none_right_eq_some.1 h
    exact ⟨vBin_writesLanes (exec_vmax ..) (le_eleven_of_int ht) (fun _ => arith2_int ht ..) (fun _ => laneOfZ_lt ..), rfl⟩
  | vabs d a t m x =>
    cases hl
    obtain ⟨ht, ⟨⟩⟩ := Option.ite_none_right_eq_some.1 h
    exact ⟨vUn_writesLanes (exec_vabs ..) (le_eleven_of_int ht) (fun _ => absLane_eq_laneOfZ ht ..) (fun _ => laneOfZ_lt ..), rfl⟩
  | vneg d a t m x =>
    cases hl
    obtain ⟨ht, ⟨⟩⟩ := Option.ite_none_right_eq_some.1 h
    exact ⟨vUn_writesLanes (exec_vneg ..) (le_eleven_of_int ht) (fun _ => negLane_eq_laneOfZ ht ..) (fun _ => laneOfZ_lt ..), rfl⟩
  | vshl d a b t m =>
    cases hl
    obtain ⟨ht, ⟨⟩⟩ := Option.ite_none_right_eq_some.1 h
    exact ⟨vBin_writesLanes (exec_vshl ..) (le_eleven_of_int ht) (fun _ => by simp only [laneW_of_int ht]; rfl)
      (fun _ => Nat.mod_lt _ (Nat.two_pow_pos _)), rfl⟩
  | vshr d a b t m =>
    cases hl
    obtain ⟨ht, ⟨⟩⟩ := Option.ite_none_right_eq_some.1 h
    exact ⟨vBin_writesLanes (exec_vshr ..) (le_eleven_of_int ht) (fun _ => by simp only [laneW_of_int ht]; rfl)
      (fun _ => Nat.lt_of_le_of_lt (Nat.div_le_self ..) (th.lane_lt t a _)), rfl⟩
  | vpopc d a t m =>
    cases hl
    obtain ⟨ht, ⟨⟩⟩ := Option.ite_none_right_eq_some.1 h
    exact ⟨vUn_writesLanes (exec_vpopc ..) (le_eleven_of_int ht) (fun _ => popLane_eq_filter ht _)
      (fun _ => length_filter_range_lt ..), rfl⟩
  | vmov d a t m =>
    cases hl
    obtain ⟨ht, ⟨⟩⟩ := Option.ite_none_right_eq_some.1 h
    exact ⟨vMove_writesLanes (exec_vmov ..) ht (fun _ => by rw [laneW_eq_typeWidth ht]) (fun _ => laneOf_lt ..), rfl⟩
  | viota d t m =>
    cases hl
    obtain ⟨ht, ⟨⟩⟩ := Option.ite_none_right_eq_some.1 h
    exact ⟨vMove_writesLanes (exec_viota ..) (le_eleven_of_int ht) (fun _ => by rw [laneW_of_int ht])
      (fun _ => Nat.mod_lt _ (Nat.two_pow_pos _)), rfl⟩
  | vperm d a b t m x =>
    cases hl
    obtain ⟨ht, ⟨⟩⟩ := Option.ite_none_right_eq_some.1 h
    have h11 : t ≤ 11 := BitVec.le_trans ht (by decide)
    exact ⟨vMove_writesLanes (exec_vperm ..) h11 (fun _ => by simp only [laneW_eq_typeWidth h11]; rfl)
      (fun _ => ite_lt (laneOf_lt ..) (Nat.two_pow_pos _)), rfl⟩
  | vrot d a b t m =>
    cases hl
    obtain ⟨ht, ⟨⟩⟩ := Option.ite_none_right_eq_some.1 h
    exact ⟨vMove_writesLanes (exec_vrot ..) ht (fun _ => by simp only [laneW_eq_typeWidth ht, laneOf_zero]; rfl)
      (fun _ => laneOf_lt ..), rfl⟩
  | vbcst d a b t m =>
    cases hl
    obtain ⟨ht, ⟨⟩⟩ := Option.ite_none_right_eq_some.1 h
    exact ⟨vMove_writesLanes (exec_vbcst ..) ht (fun _ => by simp only [laneW_eq_typeWidth ht, laneOf_zero]; rfl)
      (fun _ => laneOf_lt ..), rfl⟩
  | vzip d a b t m x =>
    cases hl
    obtain ⟨ht, ⟨⟩⟩ := Option.ite_none_right_eq_some.1 h
    exact ⟨vMove_writesLanes (exec_vzip ..) ht (fun _ => by simp only [laneW_eq_typeWidth ht]; rfl) (fun _ => laneOf_lt ..), rfl⟩
  | vunzip d a b t m x =>
    cases hl
    obtain ⟨ht, ⟨⟩⟩ := Option.ite_none_right_eq_some.1 h
    exact ⟨vMove_writesLanes (exec_vunzip ..) ht (fun _ => by simp only [laneW_eq_typeWidth ht]; rfl)
      (fun _ => ite_lt (laneOf_lt ..) (laneOf_lt ..)), rfl⟩
  | _ => cases h

/-! ### Words that work on bits, and VMOVI (06 R162, R164, R173) -/

/-- A word with a vector destination that writes every bit. -/
theorem landsBits_whole {s : State} {th : Thread} {i : Instr} {lat : Nat} {body : Thread → VOut} {d : BitVec 5} {val : Vec} {fl : Fl}
    {p : Vec → Prop} (h : AtIssue s th i) (hd : vDest i = some d) (hx : exec i s = vWord s lat body)
    (hb : body th = VOut.toV th d val allBits fl) (hp : p val) : LandsBits s th i lat d (BitVec.allOnes 64) p := by
  refine landsBits_of_toV h hd hx hb (fun n hn => getLsbD_allBits hn) fun v hv => ?_
  have hval : v = val := BitVec.eq_of_getLsbD_eq fun n hn => hv n hn (by
    rw [BitVec.getLsbD_allOnes]
    exact decide_eq_true (by omega))
  rwa [hval]

/-- A bitwise word writes the bits of its function where its mask governs (06 R162). -/
theorem vBits_lands {s : State} {th : Thread} {i : Instr} {d a b : BitVec 5} {t : BitVec 4} {m : BitVec 3} {f : Vec → Vec → Vec}
    {p : Nat → Bool} (h : AtIssue s th i) (hd : vDest i = some d) (hx : exec i s = vBits s d a b t.toNat m.toNat f) (ht : tAny t = true)
    (hp : ∀ n, n < 2048 → (f (th.vVal a (typeWidth t)) (th.vVal b (typeWidth t))).getLsbD n = p n) :
    LandsBits s th i 2 d (th.mVal m) (fun v => ∀ n, n < 2048 → (th.mVal m).getLsbD (n / 32) = true → v.getLsbD n = p n) := by
  refine landsBits_of_toV h hd hx rfl (fun n hn => ?_) fun v hv n hn hk => ?_
  · rw [getLsbD_wideMask _ hn, BitVec.ofNat_toNat, BitVec.setWidth_eq]
  · rw [hv n hn hk, laneW_eq_typeWidth (of_decide_eq_true ht), hp n hn]

/-- VSEL takes each bit from the operand that its mask selects (06 R164). -/
theorem getLsbD_select (x y : Vec) (k : Word) {n : Nat} (hn : n < 2048) :
    (x &&& wideMask k ||| y &&& ~~~wideMask k).getLsbD n = if k.getLsbD (n / 32) then x.getLsbD n else y.getLsbD n := by
  rw [BitVec.getLsbD_or, BitVec.getLsbD_and, BitVec.getLsbD_and, BitVec.getLsbD_not, getLsbD_wideMask k hn, decide_eq_true hn]
  cases k.getLsbD (n / 32) <;> simp

theorem execVsel_lands {s : State} {th : Thread} {d a b : BitVec 5} {t : BitVec 4} {m : BitVec 3} (h : AtIssue s th (.vsel d a b t m))
    (ht : tAny t = true) : LandsBits s th (.vsel d a b t m) 2 d (BitVec.allOnes 64) (fun v => ∀ n, n < 2048 →
      (BitVec.allOnes 64).getLsbD (n / 32) = true → v.getLsbD n =
        if (th.mVal m).getLsbD (n / 32) then (th.vVal a (typeWidth t)).getLsbD n else (th.vVal b (typeWidth t)).getLsbD n) := by
  refine landsBits_whole h rfl (exec_vsel d a b t m s) rfl fun n hn _ => ?_
  rw [laneW_eq_typeWidth (of_decide_eq_true ht)]
  exact getLsbD_select _ _ _ hn

/-- Each bit word writes the bits that its row gives (06 R162, R164). -/
theorem exec_landsBits {i : Instr} {s : State} {th : Thread} {d : BitVec 5} {t : BitVec 4} {m : BitVec 3} {p : Nat → Bool}
    (h : AtIssue s th i) (hw : i.wellFormed = true) (hb : vBitsOf th i = some (d, t, m, p)) :
    LandsBits s th i 2 d (th.mVal m) (fun v => ∀ n, n < 2048 → (th.mVal m).getLsbD (n / 32) = true → v.getLsbD n = p n) := by
  obtain ⟨hlegal, -⟩ := Bool.and_eq_true_iff.1 hw
  cases i with
  | vand d a b t m => cases hb; exact vBits_lands h rfl (exec_vand d a b t m s) hlegal fun n _ => BitVec.getLsbD_and
  | vor d a b t m => cases hb; exact vBits_lands h rfl (exec_vor d a b t m s) hlegal fun n _ => BitVec.getLsbD_or
  | vxor d a b t m => cases hb; exact vBits_lands h rfl (exec_vxor d a b t m s) hlegal fun n _ => BitVec.getLsbD_xor
  | vnot d a t m =>
    cases hb
    exact vBits_lands h rfl (exec_vnot d a t m s) hlegal fun n hn => by rw [BitVec.getLsbD_not, decide_eq_true hn, Bool.true_and]
  | vsel d a b t m => cases hb; exact execVsel_lands h hlegal
  | _ => cases hb

/-- Settles O18: a word that works lane by lane is of one of four shapes, each of which writes the lanes of its row (`exec_writesLanes`);
a bit word and VMOVI write the bits of one register (`exec_landsBits`, `landsBits_whole`). -/
theorem integerPermuteAndBitLanes : Obligations.IntegerPermuteAndBitLanes := by
  refine ⟨fun i s th lat d t m val h _ hl hf => ?_, fun i s th h hw => ⟨fun d t m p hb => exec_landsBits h hw hb, ?_⟩⟩
  · obtain ⟨hlanes, hd⟩ := exec_writesLanes hl hf
    exact hlanes.lands h hd
  · rintro d k p rfl
    exact landsBits_whole h rfl (exec_vmovi d k p s) rfl fun n hn => getLsbD_broadcast _ hn

/-! ### Masks as results (06 R163, R174) -/

/-- The bits of a mask that is put together group by group. -/
theorem getLsbD_foldl_groups (p : Nat → Bool) (n : Nat) {g : Nat} (hg : g < 64) :
    ((List.range n).foldl (fun (acc : Word) j => if p j then acc ||| wd (2 ^ j) else acc) 0).getLsbD g = (decide (g < n) && p g) := by
  induction n with
  | zero => simp
  | succ n ih =>
    have hbit : (wd (2 ^ n)).getLsbD g = decide (n = g) := by
      rw [wd, BitVec.getLsbD_ofNat, decide_eq_true hg, Bool.true_and, Nat.testBit_two_pow]
    rw [List.range_succ, List.foldl_append, List.foldl_cons, List.foldl_nil, apply_ite (BitVec.getLsbD · g), BitVec.getLsbD_or, ih, hbit]
    by_cases hng : n = g
    · subst hng
      cases p n <;> simp
    · have hlt : (g < n + 1) = (g < n) := propext (by omega)
      simp [hng, hlt]

/-- A compare lands a whole mask register: each bit is its mask bit and the condition of every lane of its group, or of some lane
(06 R163). -/
theorem vCmp_lands {s : State} {th : Thread} {i : Instr} {d m : BitVec 3} {a b : BitVec 5} {t : BitVec 4} {alt : Bool}
    {f : Nat → Nat → Bool} {c : Nat → Bool} (h : AtIssue s th i) (hx : exec i s = vCmp s d a b t.toNat m.toNat alt f) (ht : t ≤ 5)
    (hc : ∀ j, f (th.lane t a j) (th.lane t b j) = c j) :
    ∃ (u : State) (x : Thread) (l : Landing), exec i s = .next u ∧ u.thread? th.c th.t = some x ∧ x.land = th.land ++ [l] ∧
      l.dst = .m d.toNat ∧ l.due = th.tick + 2 ∧ (l.mask.setWidth 64) = BitVec.allOnes 64 ∧
      ∀ g, g < 64 → (l.val.setWidth 64).getLsbD g = ((th.mVal m).getLsbD g &&
        let js := (List.range (32 / typeWidth t)).map (fun j => 32 / typeWidth t * g + j)
        if alt then js.any c else js.all c) := by
  obtain ⟨u, x, l, hu, hthread, hland, hdst, hdue, hmask, hval⟩ := lands_of_toM h hx rfl
  refine ⟨u, x, l, hu, hthread, hland, hdst, hdue, hmask, fun g hg => ?_⟩
  rw [hval, getLsbD_foldl_groups _ 64 hg, decide_eq_true hg, Bool.true_and, BitVec.ofNat_toNat, BitVec.setWidth_eq, laneW_of_int ht]
  have hcond : c = fun j => f (th.lane t a j) (th.lane t b j) := funext fun j => (hc j).symm
  rw [hcond]
  simp only [List.any_map, List.all_map]
  rfl

/-- Each integer compare lands the conditions that its row gives (06 R163). -/
theorem exec_compares {i : Instr} {s : State} {th : Thread} {d m : BitVec 3} {t : BitVec 4} {alt : Bool} {c : Nat → Bool}
    (h : compareOf th i = some (d, t, m, alt, c)) :
    ∃ (a b : BitVec 5) (f : Nat → Nat → Bool), t ≤ 5 ∧ exec i s = vCmp s d a b t.toNat m.toNat alt f ∧
      ∀ j, f (th.lane t a j) (th.lane t b j) = c j := by
  cases i with
  | vcmpeq d a b t m x =>
    obtain ⟨ht, ⟨⟩⟩ := Option.ite_none_right_eq_some.1 h
    exact ⟨a, b, _, ht, exec_vcmpeq d a b t m x s, fun j => condOf_int ht _ _ _ _⟩
  | vcmplt d a b t m x =>
    obtain ⟨ht, ⟨⟩⟩ := Option.ite_none_right_eq_some.1 h
    exact ⟨a, b, _, ht, exec_vcmplt d a b t m x s, fun j => condOf_int ht _ _ _ _⟩
  | vcmple d a b t m x =>
    obtain ⟨ht, ⟨⟩⟩ := Option.ite_none_right_eq_some.1 h
    exact ⟨a, b, _, ht, exec_vcmple d a b t m x s, fun j => condOf_int ht _ _ _ _⟩
  | _ => cases h

/-- MLOG's operation of two masks, bit by bit (06 R174). -/
theorem getLsbD_maskOp (p : BitVec 2) (x y : Word) {g : Nat} (hg : g < 64) :
    (if p = 0 then x &&& y else if p = 1 then x ||| y else if p = 2 then x ^^^ y else x &&& ~~~y).getLsbD g =
      if p = 0 then x.getLsbD g && y.getLsbD g else if p = 1 then x.getLsbD g || y.getLsbD g
        else if p = 2 then x.getLsbD g != y.getLsbD g else x.getLsbD g && !y.getLsbD g := by
  simp only [apply_ite (BitVec.getLsbD · g), BitVec.getLsbD_and, BitVec.getLsbD_or, BitVec.getLsbD_xor, BitVec.getLsbD_not,
    decide_eq_true hg, Bool.true_and, bne]

theorem getLsbD_inverted (n : BitVec 1) (x : Word) {g : Nat} (hg : g < 64) :
    (if n = 1 then ~~~x else x).getLsbD g = ((n == 1) != x.getLsbD g) := by
  by_cases hn : n = 1
  · rw [if_pos hn, BitVec.getLsbD_not, decide_eq_true hg, Bool.true_and, beq_iff_eq.2 hn, Bool.true_bne]
  · rw [if_neg hn, beq_eq_false_iff_ne.2 hn, Bool.false_bne]

theorem execMlog_lands {s : State} {th : Thread} {d a b m : BitVec 3} {p : BitVec 2} {n : BitVec 1} (h : AtIssue s th (.mlog d a p b m n)) :
    ∃ (t : State) (x : Thread) (l : Landing), exec (.mlog d a p b m n) s = .next t ∧ t.thread? th.c th.t = some x ∧
      x.land = th.land ++ [l] ∧ l.dst = .m d.toNat ∧ l.due = th.tick + 2 ∧ l.mask.setWidth 64 = th.mVal m ∧
      ∀ g, g < 64 → l.val.getLsbD g = ((n == 1) != (let y := (th.mVal a).getLsbD g; let z := (th.mVal b).getLsbD g
        if p = 0 then y && z else if p = 1 then y || z else if p = 2 then y != z else y && !z)) := by
  obtain ⟨t, x, l, ht, hthread, hland, hdst, hdue, hmask, hval⟩ := lands_of_toM h (exec_mlog d a p b m n s) rfl
  refine ⟨t, x, l, ht, hthread, hland, hdst, hdue, hmask, fun g hg => ?_⟩
  have hlow : l.val.getLsbD g = (l.val.setWidth 64).getLsbD g := by rw [BitVec.getLsbD_setWidth, decide_eq_true hg, Bool.true_and]
  rw [hlow, hval]
  exact (getLsbD_inverted n _ hg).trans (congrArg ((n == 1) != ·) (getLsbD_maskOp p _ _ hg))

/-! ### MPOP and MFIRST (06 R174) -/

/-- A number in group 0, with every other group zero. -/
theorem toNat_packLanes_single {n : Nat} (hn : n < 2 ^ 32) : (packLanes 32 [n]).toNat = n := by
  have hl : ∀ x ∈ [n], x < 2 ^ 32 := fun x hx => List.mem_singleton.1 hx ▸ hn
  exact toNat_packLanes hl (by rw [List.length_singleton]; decide)

theorem maskBits_eq_filter (x y : Word) : maskBits x y = (List.range 64).filter (fun g => x.getLsbD g && y.getLsbD g) := by
  simp only [maskBits, BitVec.getLsbD_and]

theorem length_maskBits_le (x y : Word) : (maskBits x y).length ≤ 64 :=
  Nat.le_trans (List.length_filter_le _ _) (Nat.le_of_eq List.length_range)

/-- The first of the bits set in both masks is the least, and 64 stands for none. -/
theorem headD_maskBits (x y : Word) :
    (maskBits x y).headD 64 ≤ 64 ∧ (∀ g, g < (maskBits x y).headD 64 → (x.getLsbD g && y.getLsbD g) = false) ∧
      ((maskBits x y).headD 64 < 64 →
        (x.getLsbD ((maskBits x y).headD 64) && y.getLsbD ((maskBits x y).headD 64)) = true) := by
  have hfind : (maskBits x y).headD 64 = ((List.range 64).find? (fun g => x.getLsbD g && y.getLsbD g)).getD 64 := by
    rw [maskBits_eq_filter, List.headD_eq_head?_getD, List.head?_filter]
  rw [hfind]
  cases hf : (List.range 64).find? (fun g => x.getLsbD g && y.getLsbD g) with
  | none =>
    have hnone := List.find?_eq_none.1 hf
    exact ⟨Nat.le_refl _, fun g hg => by simpa using hnone g (List.mem_range.2 hg), fun hlt => absurd hlt (Nat.lt_irrefl _)⟩
  | some k =>
    obtain ⟨hk, hmem, hbefore⟩ := List.find?_range_eq_some.1 hf
    exact ⟨Nat.le_of_lt (List.mem_range.1 hmem), fun g hg => by simpa only [Bool.not_eq_true'] using hbefore g hg, fun _ => hk⟩

/-! ### Pushes to the scalar side (06 R176) -/

theorem execVtos_pushes {s : State} {th : Thread} {r j : BitVec 5} (h : AtIssue s th (.vtos r j)) :
    ∃ (t : State) (x : Thread) (e : QE Word), exec (.vtos r j) s = .next t ∧ t.thread? th.c th.t = some x ∧
      x.q.vsq = th.q.vsq ++ [e] ∧ e.fillAt = s.now + 2 ∧ e.val = wd ((th.vVal r 32).toNat / 2 ^ (64 * j.toNat) % 2 ^ 64) := by
  obtain ⟨t, ht, hthread⟩ := vWord_issues (lat := 2) (body := fun th =>
    { res := [], fl := 0, push := wd (laneOf 64 (th.vVal r 32) j.toNat) |>.setWidth 2048, srnd := th.csr.srnd }) h
  refine ⟨t, _, _, (exec_vtos r j s).trans ht, hthread, Thread.vIssue_vsq (by rw [h.word]; rfl), rfl, ?_⟩
  dsimp only
  rw [BitVec.setWidth_setWidth_of_le _ (by decide), BitVec.setWidth_eq, laneOf]

theorem execVtoa_pushes {s : State} {th : Thread} {r : BitVec 5} (h : AtIssue s th (.vtoa r)) :
    ∃ (t : State) (x : Thread) (e : QE Vec), exec (.vtoa r) s = .next t ∧ t.thread? th.c th.t = some x ∧
      x.q.vaq = th.q.vaq ++ [e] ∧ e.fillAt = s.now + 2 ∧ e.val = th.vVal r 32 := by
  obtain ⟨t, ht, hthread⟩ := vWord_issues (lat := 2) (body := fun th =>
    { res := [], fl := 0, push := th.vVal r 32, srnd := th.csr.srnd }) h
  exact ⟨t, _, _, (exec_vtoa r s).trans ht, hthread, Thread.vIssue_vaq (by rw [h.word]; rfl), rfl, rfl⟩

/-- Settles O19: the compares are of one shape (`vCmp_lands`), MLOG lands a mask, MPOP and MFIRST write one number into a whole register,
VTOS and VTOA push. -/
theorem comparesMaskWordsAndPushes : Obligations.ComparesMaskWordsAndPushes := by
  refine ⟨fun i s th d m t alt c h hc => ?_, fun s th d a m p b n v r j =>
    ⟨execMlog_lands, fun h => ?_, fun h => ?_, execVtos_pushes, execVtoa_pushes⟩⟩
  · obtain ⟨a, b, f, ht, hx, hf⟩ := exec_compares hc
    exact vCmp_lands h hx ht hf
  · refine landsBits_whole h rfl (exec_mpop v a m s) rfl ?_
    rw [toNat_packLanes_single (Nat.lt_of_le_of_lt (length_maskBits_le _ _) (by decide)), maskBits_eq_filter]
  · refine landsBits_whole h rfl (exec_mfirst v a m s) rfl ?_
    have hfirst := headD_maskBits (th.mVal a) (th.mVal m)
    dsimp only
    rwa [toNat_packLanes_single (Nat.lt_of_le_of_lt hfirst.1 (by decide))]

end Sys2Proof.Machine
